-- ==== Sys2Proof/Word.lean ====
section
/-!
DEFINITION. The word types of the Kratal DQK12-S4L, its tables kept as plain lists, and the status codes of R80.
-/
namespace Sys2Proof

/-- A byte. -/
abbrev Byte := BitVec 8
/-- A 64-bit scalar, register word or KTIME value. -/
abbrev Word := BitVec 64
/-- A 512-bit descriptor register (03, Registers and instructions). -/
abbrev Desc := BitVec 512
/-- A sparse table: entries by number, kept in rising order of the number by the operations of Machine/Tab.lean. -/
abbrev Tab (α : Type) := List (Nat × α)

/-- The status codes of R80, and no others. -/
inductive Status where
  | ok | okEmpty | part
  | badDesc | cfgInvalid | perm | budget
  | notAnchor | staleEpoch | orphaned
  | duplicate | staleGen | revoked | noRecvBuf | deadTarget | timeout
  | checkFail | poison | uncorrectable
  | noSpace | readOnly
  | aborted | domainOff
deriving DecidableEq, Repr, Inhabited

/-- The two levels of a signal that a command carries. -/
inductive Level where
  | low | high
deriving DecidableEq, Repr, Inhabited

end Sys2Proof
end

