-- ==== Sys2Proof/Syntax.lean ====
section
/-!
DEFINITION. The commands the block takes, one constructor per row of spec/opcode_table.json, and the contents of the messages and
events they carry.
-/
namespace Sys2Proof

/-- The comparison of `cmp` and `cmpi` (R566). -/
inductive Cond where
  | eq | ne | lt | ltu | ge | geu
deriving DecidableEq, Repr, Inhabited

/-- The paths by which a register access arrives (R589, R700): a session of the management path, or endpoint half 2r + h. -/
inductive Path where
  | session (n : Nat)
  | half (h : Nat)
deriving DecidableEq, Repr, Inhabited

/-- The envelope of a session command (R592): its secure channel, SESSION and SEQ, and whether its TAG verifies (R593). -/
structure SecCmd where
  chan    : Nat
  session : Nat
  seq     : Nat
  tagOk   : Bool
deriving DecidableEq, Repr, Inhabited

/-- What KEY_ENROL enrols (R590, R604): an operator or installer public key in a slot, or none to clear it; a partition's Ballast key, new or dropped. -/
inductive Enrol where
  | operator (slot : Nat) (key : Option Nat)
  | installer (slot : Nat) (key : Option Nat)
  | ballastNew (part : Nat)
  | ballastDrop (part : Nat)
deriving DecidableEq, Repr, Inhabited

/-- The extension of a transport packet (R427), and what the fabric opcodes carry. -/
inductive Ext where
  | none
  | msg (consumer len off : Nat)
  | write (target off total : Nat) (fin : Bool)
  | atomic (key off op1 op2 : Nat)
  | ack (psn status echo : Nat) (sack : BitVec 64)
  | nak (psn status : Nat)
  | resp (psn status result : Nat)
  | conn (srcQp srcIncarn payload : Nat) (sec : Bool) (status : Nat)
  | fload (off len : Nat)
  | floadResp (psn off : Nat)
  | fstore (off total : Nat)
  | gop (group seq kind root len status : Nat)
deriving DecidableEq, Repr, Inhabited

/-- A transport packet (R423, R425): `srcQp` is its UDP source port less 0xC000; `v4` its address family; `addr` the address of the other
side, its source where it is received and its destination where it is sent. -/
structure Packet where
  opcode  : Nat
  cls     : Nat
  sec     : Bool
  srcNode : Nat
  dstNode : Nat
  dstQp   : Nat
  srcQp   : Nat
  part    : Nat
  ackReq  : Bool
  first   : Bool
  last    : Bool
  retx    : Bool
  incarn  : Nat
  psn     : Nat
  txTime  : Nat
  v4      : Bool
  addr    : Nat
  ext     : Ext
  data    : List Byte
deriving DecidableEq, Repr, Inhabited

/-- A die that answers on a Ballast channel at start-up, as its parameter page and training give it (R370, R371, R396): chip enable and LUN, bits per cell, data and spare
bytes of a page, pages of an erase unit, erase units, times in µs, a single-bit mode, and the rate in MT/s that it trains to in NV-DDR3, NV-LPDDR4 and Toggle DDR, 0 for none. -/
structure NandDie where
  ce    : Nat
  lun   : Nat
  bpc   : Nat
  page  : Nat
  spare : Nat
  p     : Nat
  e     : Nat
  tr    : Nat
  tprog : Nat
  ters  : Nat
  slc   : Bool
  ddr3  : Nat
  lpddr4 : Nat
  toggle : Nat
deriving DecidableEq, Repr, Inhabited


/-- What an SRAM word that the code could not correct held (R616): a clean copy; a thread's context frame or completion ring, or the slot registers of its core; a dirty
Basket cache record; a Merge accumulator row; a landing or reorder buffer entry of a QP, by its PSN; the state of a sequencer or arbiter, with the unit that holds it
and the operations it had accepted; Gondola memory. -/
inductive SramWord where
  | clean
  | thread (t : Nat) (slot : Bool)
  | basket (b : Nat)
  | mergeRow (engine stream row : Nat)
  | landing (qp : Nat) (psn : Option Nat)
  | state (loc : BitVec 32) (ops : List (Nat × Nat))
  | gondola
deriving DecidableEq, Repr, Inhabited


/-- The commands: one constructor per row of the opcode table. A Fyley instruction carries its thread `t` and the fields of its
encoding (R560 to R586), `p` being PRED; an engine issue its thread, PRED, TS and DS (R575); an event what happened outside. -/
inductive Instr where
  /-- ADD (R564): Writes sA + sB modulo 2^64 into sD. -/
  | add (t : Nat) (p : BitVec 2) (rd ra rb : BitVec 5)
  /-- SUB (R564): Writes sA − sB modulo 2^64 into sD. -/
  | sub (t : Nat) (p : BitVec 2) (rd ra rb : BitVec 5)
  /-- AND (R564): Writes the bitwise AND of sA and sB into sD. -/
  | and (t : Nat) (p : BitVec 2) (rd ra rb : BitVec 5)
  /-- OR (R564): Writes the bitwise OR of sA and sB into sD. -/
  | or (t : Nat) (p : BitVec 2) (rd ra rb : BitVec 5)
  /-- XOR (R564): Writes the bitwise XOR of sA and sB into sD. -/
  | xor (t : Nat) (p : BitVec 2) (rd ra rb : BitVec 5)
  /-- ANDN (R564): Writes sA AND NOT sB into sD. -/
  | andn (t : Nat) (p : BitVec 2) (rd ra rb : BitVec 5)
  /-- SHL (R564): Shifts sA left by sB[5:0] into sD. -/
  | shl (t : Nat) (p : BitVec 2) (rd ra rb : BitVec 5)
  /-- SHR (R564): Shifts sA right with zero fill by sB[5:0] into sD. -/
  | shr (t : Nat) (p : BitVec 2) (rd ra rb : BitVec 5)
  /-- SRA (R564): Shifts sA right with sign fill by sB[5:0] into sD. -/
  | sra (t : Nat) (p : BitVec 2) (rd ra rb : BitVec 5)
  /-- MUL (R564): Writes the low 64 bits of sA × sB into sD. -/
  | mul (t : Nat) (p : BitVec 2) (rd ra rb : BitVec 5)
  /-- MULHU (R564): Writes the high 64 bits of the unsigned 128-bit product into sD. -/
  | mulhu (t : Nat) (p : BitVec 2) (rd ra rb : BitVec 5)
  /-- MIN (R564): Writes the signed smaller of sA and sB into sD. -/
  | min (t : Nat) (p : BitVec 2) (rd ra rb : BitVec 5)
  /-- MINU (R564): Writes the unsigned smaller of sA and sB into sD. -/
  | minu (t : Nat) (p : BitVec 2) (rd ra rb : BitVec 5)
  /-- MAX (R564): Writes the signed larger of sA and sB into sD. -/
  | max (t : Nat) (p : BitVec 2) (rd ra rb : BitVec 5)
  /-- MAXU (R564): Writes the unsigned larger of sA and sB into sD. -/
  | maxu (t : Nat) (p : BitVec 2) (rd ra rb : BitVec 5)
  /-- CLZ (R564): Writes the count of leading zero bits of sA into sD. -/
  | clz (t : Nat) (p : BitVec 2) (rd ra : BitVec 5)
  /-- CTZ (R564): Writes the count of trailing zero bits of sA into sD. -/
  | ctz (t : Nat) (p : BitVec 2) (rd ra : BitVec 5)
  /-- POPC (R564): Writes the count of one bits of sA into sD. -/
  | popc (t : Nat) (p : BitVec 2) (rd ra : BitVec 5)
  /-- ADDI (R565): Adds a sign-extended 14-bit immediate to sA into sD. -/
  | addi (t : Nat) (p : BitVec 2) (rd ra : BitVec 5) (imm : BitVec 14)
  /-- ANDI (R565): ANDs sA with a zero-extended immediate into sD. -/
  | andi (t : Nat) (p : BitVec 2) (rd ra : BitVec 5) (imm : BitVec 14)
  /-- ORI (R565): ORs sA with a zero-extended immediate into sD. -/
  | ori (t : Nat) (p : BitVec 2) (rd ra : BitVec 5) (imm : BitVec 14)
  /-- XORI (R565): XORs sA with a zero-extended immediate into sD. -/
  | xori (t : Nat) (p : BitVec 2) (rd ra : BitVec 5) (imm : BitVec 14)
  /-- SHLI (R565): Shifts sA left by an immediate count into sD. -/
  | shli (t : Nat) (p : BitVec 2) (rd ra : BitVec 5) (count : BitVec 6)
  /-- SHRI (R565): Shifts sA right with zero fill by an immediate count into sD. -/
  | shri (t : Nat) (p : BitVec 2) (rd ra : BitVec 5) (count : BitVec 6)
  /-- SRAI (R565): Shifts sA right with sign fill by an immediate count into sD. -/
  | srai (t : Nat) (p : BitVec 2) (rd ra : BitVec 5) (count : BitVec 6)
  /-- LI (R565): Loads a sign-extended 32-bit immediate into sD. -/
  | li (t : Nat) (p : BitVec 2) (rd : BitVec 5) (imm : BitVec 32)
  /-- LIH (R565): Replaces sD[63:32] with a 32-bit immediate. -/
  | lih (t : Nat) (p : BitVec 2) (rd : BitVec 5) (imm : BitVec 32)
  /-- CMP (R566): Sets a predicate to the comparison of two scalars under COND. -/
  | cmp (t : Nat) (p : BitVec 2) (pd : BitVec 2) (c : Cond) (ra rb : BitVec 5)
  /-- CMPI (R566): Sets a predicate to the comparison of a scalar with an immediate under COND. -/
  | cmpi (t : Nat) (p : BitVec 2) (pd : BitVec 2) (c : Cond) (ra : BitVec 5) (imm : BitVec 14)
  /-- PAND (R566): Sets a predicate to the AND of two predicates. -/
  | pand (t : Nat) (p : BitVec 2) (pd pa pb : BitVec 2)
  /-- POR (R566): Sets a predicate to the OR of two predicates. -/
  | por (t : Nat) (p : BitVec 2) (pd pa pb : BitVec 2)
  /-- PNOT (R566): Sets a predicate to the negation of another. -/
  | pnot (t : Nat) (p : BitVec 2) (pd pa : BitVec 2)
  /-- PMOV (R566): Sets a predicate to whether a scalar is non-zero. -/
  | pmov (t : Nat) (p : BitVec 2) (pd : BitVec 2) (ra : BitVec 5)
  /-- LD (R567): Synchronously loads 1 to 8 bytes of plain HBM into a scalar, recording access failures. -/
  | ld (t : Nat) (p : BitVec 2) (size : BitVec 2) (rd ra : BitVec 5) (off : BitVec 12)
  /-- ST (R567): Posts a store of 1 to 8 bytes of a scalar to plain HBM. -/
  | st (t : Nat) (p : BitVec 2) (size : BitVec 2) (rs ra : BitVec 5) (off : BitVec 12)
  /-- DESC_LD (R570): Synchronously loads 64 bytes from plain HBM into a descriptor register. -/
  | descLd (t : Nat) (p : BitVec 2) (dd : BitVec 4) (ra : BitVec 5)
  /-- DESC_ST (R570): Posts a store of a descriptor register's 64 bytes to plain HBM. -/
  | descSt (t : Nat) (p : BitVec 2) (ds : BitVec 4) (ra : BitVec 5)
  /-- DESC_SET (R570): Inserts low bits of a scalar into a field of a descriptor register. -/
  | descSet (t : Nat) (p : BitVec 2) (dd : BitVec 4) (ra : BitVec 5) (pos : BitVec 9) (w1 : BitVec 6)
  /-- DESC_GET (R570): Extracts a descriptor field into a scalar, zero-extended. -/
  | descGet (t : Nat) (p : BitVec 2) (rd : BitVec 5) (ds : BitVec 4) (pos : BitVec 9) (w1 : BitVec 6)
  /-- DESC_SETI (R570): Inserts immediate bits into a field of a descriptor register. -/
  | descSeti (t : Nat) (p : BitVec 2) (dd : BitVec 4) (pos : BitVec 9) (w1 : BitVec 6) (imm : BitVec 32)
  /-- DESC_CLR (R570): Clears a descriptor register. -/
  | descClr (t : Nat) (p : BitVec 2) (dd : BitVec 4)
  /-- DESC_MOV (R570): Copies one descriptor register into another. -/
  | descMov (t : Nat) (p : BitVec 2) (dd ds : BitVec 4)
  /-- BR (R571): Jumps by a signed word offset, faulting on a target outside the program. -/
  | br (t : Nat) (p : BitVec 2) (off : BitVec 24)
  /-- JAL (R571): Writes the return address and jumps by a signed offset. -/
  | jal (t : Nat) (p : BitVec 2) (rd : BitVec 5) (off : BitVec 19)
  /-- JR (R571): Jumps to the address held in a scalar. -/
  | jr (t : Nat) (p : BitVec 2) (ra : BitVec 5)
  /-- YIELD (R573): Gives up the slot at once and requeues the thread at the back of its rank. -/
  | yield (t : Nat) (p : BitVec 2)
  /-- LIVE (R572): Declares which descriptor and scalar registers are live at later yield points. -/
  | live (t : Nat) (p : BitVec 2) (dmask : BitVec 16) (smask : BitVec 24)
  /-- END (R77): Waits for outstanding operations, posts the end completion and frees the thread's frame. -/
  | endThr (t : Nat) (p : BitVec 2) (ra : BitVec 5)
  /-- WAIT_TAG (R579): Takes the oldest held completion with a given tag, yielding until one posts. -/
  | waitTag (t : Nat) (p : BitVec 2) (ts : BitVec 5) (dd : BitVec 4) (wr : Bool) (pd : BitVec 2)
  /-- WAIT_ANY (R579): Takes the oldest held completion of any tag, yielding until one posts. -/
  | waitAny (t : Nat) (p : BitVec 2) (dd : BitVec 4) (wr : Bool) (pd : BitVec 2)
  /-- WAIT_ALL (R579): Yields until no operation is outstanding and discards every held completion. -/
  | waitAll (t : Nat) (p : BitVec 2) (dd : BitVec 4) (wr : Bool) (pd : BitVec 2)
  /-- FENCE (R581): Waits until the thread's posted stores are visible to every reader. -/
  | fence (t : Nat) (p : BitVec 2)
  /-- BSK_LOAD (R582): Reads one 8-byte word of a Basket record with the state-derived status. -/
  | bskLoad (t : Nat) (p : BitVec 2) (rv rb : BitVec 5) (w : BitVec 5) (rs : BitVec 5)
  /-- BSK_STORE (R582): Writes masked bits of one Basket record word under the writer rules. -/
  | bskStore (t : Nat) (p : BitVec 2) (rv rb rm : BitVec 5) (w : BitVec 5) (rs : BitVec 5)
  /-- FLAG_SET (R583): Sets a flag cell after the thread's seen writes are visible. -/
  | flagSet (t : Nat) (p : BitVec 2) (ra rb : BitVec 5)
  /-- FLAG_ADD (R547): Adds to a flag cell modulo 2^64 and returns the old value. -/
  | flagAdd (t : Nat) (p : BitVec 2) (rd ra rb : BitVec 5)
  /-- FLAG_READ (R583): Reads a flag cell into a scalar. -/
  | flagRead (t : Nat) (p : BitVec 2) (rd ra : BitVec 5)
  /-- FLAG_WAIT (R547): Waits until a flag cell meets a condition against an operand. -/
  | flagWait (t : Nat) (p : BitVec 2) (rd ra rb : BitVec 5) (cc : BitVec 2)
  /-- FLAG_WAITER_WAKE (R549): A write that makes a waiting thread's condition true makes it ready with the stored value. -/
  | flagWaiterWake (t : Nat)
  /-- MBX_POST (R545): Posts an OUT message on a mailbox channel, or NO_SPACE while FULL. -/
  | mbxPost (t : Nat) (p : BitVec 2) (rd ra rb : BitVec 5)
  /-- MBX_TAKE (R545): Takes the IN message and clears FULL, optionally waiting for one. -/
  | mbxTake (t : Nat) (p : BitVec 2) (rd ra rb : BitVec 5) (wait : Bool)
  /-- DB_RING (R545): Sets the DB_H bits of a mask on a channel. -/
  | dbRing (t : Nat) (p : BitVec 2) (rd ra rb : BitVec 5)
  /-- DB_TAKE (R545): Returns and clears the masked DB_K bits of a channel. -/
  | dbTake (t : Nat) (p : BitVec 2) (rd ra rb : BitVec 5)
  /-- DB_WAIT (R545): Waits until a masked DB_K bit is set, clearing nothing. -/
  | dbWait (t : Nat) (p : BitVec 2) (rd ra rb : BitVec 5)
  /-- THR_LAUNCH (R585): Writes a launch descriptor into a thread-fed launch ring and advances PROD. -/
  | thrLaunch (t : Nat) (p : BitVec 2) (rd : BitVec 5) (ds tile : BitVec 4) (rt : Bool)
  /-- SYS_GET (R586): Reads KTIME, thread identity, counts, access status or lost completion by SEL. -/
  | sysGet (t : Nat) (p : BitVec 2) (rd : BitVec 5) (sel : BitVec 9)
  /-- UNDEFINED_ENCODING_FAULT (R78): A thread meets an undefined encoding, misaligned long form, bad branch or flag range and faults with BAD_DESC. -/
  | undefinedEncodingFault (t : Nat) (w0 w1 : BitVec 32)
  /-- SLICE_EXPIRY (R68): A thread that holds a slot for a full slice is forced to switch with every register live. -/
  | sliceExpiry (t : Nat)
  /-- THREAD_SWITCH (R66): At a yield point the slot saves the outgoing context and takes the head of the ready queue. -/
  | threadSwitch (tile core slot : Nat)
  /-- LAUNCH_TAKE (R552): A tile takes launch entry CONS when CONS differs from PROD and launches it. -/
  | launchTake (rt : Bool) (part tile : Nat)
  /-- COMPLETION_POST (R74): An accepted operation posts one completion word into the thread's completion ring. -/
  | completionPost (t op : Nat)
  /-- ENGINE_ISSUE_FULL_WAIT (R580): An issue that finds all 32 entries reserved waits for one to post, then may discard the oldest held completion. -/
  | engineIssueFullWait (t : Nat)
  /-- PUSH_LAYER (R222): Compacts staged tokens of one layer into origin frames and transmits the layer's pages to the receiver. -/
  | pushLayer (t : Nat) (p : BitVec 2) (ts : BitVec 5) (ds : BitVec 4)
  /-- PUSH_END (R234): Waits for layer pushes, checks the push and sends END with the OFFER, or ends a local push. -/
  | pushEnd (t : Nat) (p : BitVec 2) (ts : BitVec 5) (ds : BitVec 4)
  /-- PULL_PAGES (R246): Pulls prefix pages named by lookup results from a cache node and maps them shared. -/
  | pullPages (t : Nat) (p : BitVec 2) (ts : BitVec 5) (ds : BitVec 4)
  /-- FEED_LAYER (R248): Expands mapped pages of a layer into an OUT staging slot and rings a doorbell. -/
  | feedLayer (t : Nat) (p : BitVec 2) (ts : BitVec 5) (ds : BitVec 4)
  /-- PUSH_PREFIX (R250): Offers pages to a cache node for its prefix index. -/
  | pushPrefix (t : Nat) (p : BitVec 2) (ts : BitVec 5) (ds : BitVec 4)
  /-- BDL_RELEASE (R519): Releases a held IN window slot so RELEASED can advance. -/
  | bdlRelease (t : Nat) (p : BitVec 2) (ts : BitVec 5) (ds : BitVec 4)
  /-- SAIL_CMD (R259): Issues a DELTA, GEMV, SCALE_COPY, FILL, SCRUB or RESULT_FLUSH command to selected Sail units. -/
  | sailCmd (t : Nat) (p : BitVec 2) (ts : BitVec 5) (ds : BitVec 4)
  /-- SAIL_FENCE (R273): Places a FENCE in selected units, completing when earlier writes are readable by the controller. -/
  | sailFence (t : Nat) (p : BitVec 2) (ts : BitVec 5) (ds : BitVec 4)
  /-- SAIL_ATTN (R301): Reads a layer's page tables, pins shared frames and expands attention into ATTN_PARTIAL commands. -/
  | sailAttn (t : Nat) (p : BitVec 2) (ts : BitVec 5) (ds : BitVec 4)
  /-- SAIL_DELTA (R334): Computes an adapter delta for one projection of one layer on the Sail path. -/
  | sailDelta (t : Nat) (p : BitVec 2) (ts : BitVec 5) (ds : BitVec 4)
  /-- MRG_OPEN (R306): Opens a Merge engine input stream for partial rows and peer contributions. -/
  | mrgOpen (t : Nat) (p : BitVec 2) (ts : BitVec 5) (ds : BitVec 4)
  /-- ENV_PACK (R175): Codes raw data into an Envelope object. -/
  | envPack (t : Nat) (p : BitVec 2) (ts : BitVec 5) (ds : BitVec 4)
  /-- ENV_UNPACK (R174): Expands and checks segments of an Envelope object to a destination. -/
  | envUnpack (t : Nat) (p : BitVec 2) (ts : BitVec 5) (ds : BitVec 4)
  /-- MAT_SEARCH (R190): Searches rule banks and writes the winning entry's result record. -/
  | matSearch (t : Nat) (p : BitVec 2) (ts : BitVec 5) (ds : BitVec 4)
  /-- MAT_INSERT (R193): Inserts a rule or prefix entry into a Match Array bank. -/
  | matInsert (t : Nat) (p : BitVec 2) (ts : BitVec 5) (ds : BitVec 4)
  /-- MAT_DELETE (R196): Deletes a matching rule entry, or a prefix entry with its references after the lease. -/
  | matDelete (t : Nat) (p : BitVec 2) (ts : BitVec 5) (ds : BitVec 4)
  /-- MAT_SPREAD (R195): Restores the hole spacing of a rule bank by shifting entries. -/
  | matSpread (t : Nat) (p : BitVec 2) (ts : BitVec 5) (ds : BitVec 4)
  /-- MAT_HASH (R199): Computes chain hashes of whole pages of token words. -/
  | matHash (t : Nat) (p : BitVec 2) (ts : BitVec 5) (ds : BitVec 4)
  /-- MAT_RUN (R205): Looks up the longest run of hit hashes locally or by forwarding to the cache pool. -/
  | matRun (t : Nat) (p : BitVec 2) (ts : BitVec 5) (ds : BitVec 4)
  /-- TIE_EVICT (R356): Surveys prefix entries by age and deletes the oldest up to a target. -/
  | tieEvict (t : Nat) (p : BitVec 2) (ts : BitVec 5) (ds : BitVec 4)
  /-- QP_CREATE (R419): Allocates the lowest FREE QP of the partition into INIT. -/
  | qpCreate (t : Nat) (p : BitVec 2) (ts : BitVec 5) (ds : BitVec 4)
  /-- QP_CONNECT (R420): Starts the connect handshake of a QP in INIT toward a peer. -/
  | qpConnect (t : Nat) (p : BitVec 2) (ts : BitVec 5) (ds : BitVec 4)
  /-- QP_DESTROY (R422): Frees a QP, aborting its operations and sending one CLOSE if READY. -/
  | qpDestroy (t : Nat) (p : BitVec 2) (ts : BitVec 5) (ds : BitVec 4)
  /-- TQ_SEND (R430): Sends a message into the peer's next posted buffer. -/
  | tqSend (t : Nat) (p : BitVec 2) (ts : BitVec 5) (ds : BitVec 4)
  /-- TQ_RECV (R431): Posts a receive buffer in a slot with a generation tag. -/
  | tqRecv (t : Nat) (p : BitVec 2) (ts : BitVec 5) (ds : BitVec 4)
  /-- TQ_WRITE (R430): Writes into a peer's registered region or posted buffer. -/
  | tqWrite (t : Nat) (p : BitVec 2) (ts : BitVec 5) (ds : BitVec 4)
  /-- TQ_FADD (R440): Performs a 64-bit fetch-add at a peer region exactly once. -/
  | tqFadd (t : Nat) (p : BitVec 2) (ts : BitVec 5) (ds : BitVec 4)
  /-- TQ_CAS (R440): Performs a 64-bit compare-swap at a peer region exactly once. -/
  | tqCas (t : Nat) (p : BitVec 2) (ts : BitVec 5) (ds : BitVec 4)
  /-- TQ_REG (R444): Registers a region inside a Tether lend range and returns its key. -/
  | tqReg (t : Nat) (p : BitVec 2) (ts : BitVec 5) (ds : BitVec 4)
  /-- TQ_REVOKE (R445): Revokes a region, waiting for accepted operations, then frees it with a new GEN. -/
  | tqRevoke (t : Nat) (p : BitVec 2) (ts : BitVec 5) (ds : BitVec 4)
  /-- FAB_LOAD (R457): Loads bytes from a fabric address, blocking the thread until complete. -/
  | fabLoad (t : Nat) (p : BitVec 2) (ts : BitVec 5) (ds : BitVec 4)
  /-- FAB_STORE (R458): Stores bytes to a fabric address, completing when all are visible. -/
  | fabStore (t : Nat) (p : BitVec 2) (ts : BitVec 5) (ds : BitVec 4)
  /-- FAB_FADD (R457): Performs a fabric fetch-add exactly once. -/
  | fabFadd (t : Nat) (p : BitVec 2) (ts : BitVec 5) (ds : BitVec 4)
  /-- FAB_CAS (R457): Performs a fabric compare-swap exactly once. -/
  | fabCas (t : Nat) (p : BitVec 2) (ts : BitVec 5) (ds : BitVec 4)
  /-- GOP_BARRIER (R463): Enters a group barrier that completes when every member has entered. -/
  | gopBarrier (t : Nat) (p : BitVec 2) (ts : BitVec 5) (ds : BitVec 4)
  /-- GOP_BROADCAST (R463): Copies the root's bytes to every member over the group tree. -/
  | gopBroadcast (t : Nat) (p : BitVec 2) (ts : BitVec 5) (ds : BitVec 4)
  /-- GOP_SNAPSHOT (R466): Holds and drains the partition's traffic, then records the consistent cut. -/
  | gopSnapshot (t : Nat) (p : BitVec 2) (ts : BitVec 5) (ds : BitVec 4)
  /-- GOP_RESUME (R466): Ends this member's snapshot hold. -/
  | gopResume (t : Nat) (p : BitVec 2) (ts : BitVec 5) (ds : BitVec 4)
  /-- FAB_RESET (R468): Sends FRESET to a group so every member takes a fabric reset. -/
  | fabReset (t : Nat) (p : BitVec 2) (ts : BitVec 5) (ds : BitVec 4)
  /-- FAB_HB_TETHER (R470): Sends Tether heartbeats to watched peers and counts misses. -/
  | fabHbTether (t : Nat) (p : BitVec 2) (ts : BitVec 5) (ds : BitVec 4)
  /-- FAB_HB_MGMT (R470): Sends management heartbeats on both ports and counts misses. -/
  | fabHbMgmt (t : Nat) (p : BitVec 2) (ts : BitVec 5) (ds : BitVec 4)
  /-- BLS_READ (R378): Reads logical flash units into plain HBM. -/
  | blsRead (t : Nat) (p : BitVec 2) (ts : BitVec 5) (ds : BitVec 4)
  /-- BLS_WRITE (R381): Programs logical flash units from plain HBM and updates the map. -/
  | blsWrite (t : Nat) (p : BitVec 2) (ts : BitVec 5) (ds : BitVec 4)
  /-- BLS_TRIM (R381): Clears the map entries of logical units. -/
  | blsTrim (t : Nat) (p : BitVec 2) (ts : BitVec 5) (ds : BitVec 4)
  /-- BLS_FLUSH (R381): Forces a journal flush on every channel. -/
  | blsFlush (t : Nat) (p : BitVec 2) (ts : BitVec 5) (ds : BitVec 4)
  /-- BLS_FORMAT (R377): Erases the tier, writes format headers and clears the map. -/
  | blsFormat (t : Nat) (p : BitVec 2) (ts : BitVec 5) (ds : BitVec 4)
  /-- BLS_MAINT_GC (R391): Relocates units until the channel holds enough free erase units. -/
  | blsMaintGc (t : Nat) (p : BitVec 2) (ts : BitVec 5) (ds : BitVec 4)
  /-- BLS_MAINT_WL (R391): Moves data of the least-erased unit when the erase spread is too wide. -/
  | blsMaintWl (t : Nat) (p : BitVec 2) (ts : BitVec 5) (ds : BitVec 4)
  /-- BLS_MAINT_PATROL (R391): Reads slots from a cursor and relocates units marked for relocation. -/
  | blsMaintPatrol (t : Nat) (p : BitVec 2) (ts : BitVec 5) (ds : BitVec 4)
  /-- BLS_MAINT_REBUILD (R391): Relocates every row of a lost die. -/
  | blsMaintRebuild (t : Nat) (p : BitVec 2) (ts : BitVec 5) (ds : BitVec 4)
  /-- KVW_MAP (R137): Maps source pages into a target Basket as shared. -/
  | kvwMap (t : Nat) (p : BitVec 2) (ts : BitVec 5) (ds : BitVec 4)
  /-- KVW_UNMAP (R137): Removes pages from an index to the end of a layer. -/
  | kvwUnmap (t : Nat) (p : BitVec 2) (ts : BitVec 5) (ds : BitVec 4)
  /-- KV_APPEND (R297): Converts and writes new K and V positions into a Basket's pages. -/
  | kvAppend (t : Nat) (p : BitVec 2) (ts : BitVec 5) (ds : BitVec 4)
  /-- BSK_ADMIT (R96): Admits a Basket as origin or receiver, allocating an ID and pinning the adapter. -/
  | bskAdmit (t : Nat) (p : BitVec 2) (ts : BitVec 5) (ds : BitVec 4)
  /-- BSK_RELEASE (R113): Aborts operations, unpins the adapter, frees frames and returns the Basket to FREE. -/
  | bskRelease (t : Nat) (p : BitVec 2) (ts : BitVec 5) (ds : BitVec 4)
  /-- BSK_QUERY (R109): Answers an ownership query locally or on the Kratal at the other end of a QP. -/
  | bskQuery (t : Nat) (p : BitVec 2) (ts : BitVec 5) (ds : BitVec 4)
  /-- BSK_PARK (R93): Suspends decode of a Basket after its accepted decode operations complete. -/
  | bskPark (t : Nat) (p : BitVec 2) (ts : BitVec 5) (ds : BitVec 4)
  /-- BSK_RESUME (R93): Returns a PARKED Basket to ANCHOR. -/
  | bskResume (t : Nat) (p : BitVec 2) (ts : BitVec 5) (ds : BitVec 4)
  /-- BSK_UNHOLD (R108): Clears HELD on an origin Basket in ANCHOR. -/
  | bskUnhold (t : Nat) (p : BitVec 2) (ts : BitVec 5) (ds : BitVec 4)
  /-- BSK_PREFILL (R578): Marks the start of prefill, moving an origin Basket from ADMITTED to PREFILL. -/
  | bskPrefill (t : Nat) (p : BitVec 2) (ts : BitVec 5) (ds : BitVec 4)
  /-- ADP_PUBLISH (R325): Publishes an adapter version record and makes it the newest directory word. -/
  | adpPublish (t : Nat) (p : BitVec 2) (ts : BitVec 5) (ds : BitVec 4)
  /-- ADP_PIN (R327): Takes a thread pin on an adapter version. -/
  | adpPin (t : Nat) (p : BitVec 2) (ts : BitVec 5) (ds : BitVec 4)
  /-- ADP_UNPIN (R327): Drops a thread pin on an adapter version. -/
  | adpUnpin (t : Nat) (p : BitVec 2) (ts : BitVec 5) (ds : BitVec 4)
  /-- ADP_RETIRE (R328): Retires an adapter version, optionally waiting until it is FREE. -/
  | adpRetire (t : Nat) (p : BitVec 2) (ts : BitVec 5) (ds : BitVec 4)
  /-- ADP_FETCH (R331): Copies an adapter library object from a cache node into local memory. -/
  | adpFetch (t : Nat) (p : BitVec 2) (ts : BitVec 5) (ds : BitVec 4)
  /-- ADP_PLACE (R333): Writes a published adapter version's slices into Sail banks. -/
  | adpPlace (t : Nat) (p : BitVec 2) (ts : BitVec 5) (ds : BitVec 4)
  /-- SPEC_COMMIT (R340): Commits accepted tentative positions and frees rejected tail pages. -/
  | specCommit (t : Nat) (p : BitVec 2) (ts : BitVec 5) (ds : BitVec 4)
  /-- BUD_CHARGE (R497): Charges tokens to a budget account under its policy. -/
  | budCharge (t : Nat) (p : BitVec 2) (ts : BitVec 5) (ds : BitVec 4)
  /-- BUD_SET (R499): Writes the program fields of a budget account. -/
  | budSet (t : Nat) (p : BitVec 2) (ts : BitVec 5) (ds : BitVec 4)
  /-- BUD_QUERY (R499): Copies a budget account entry to memory. -/
  | budQuery (t : Nat) (p : BitVec 2) (ts : BitVec 5) (ds : BitVec 4)
  /-- TRF_MSET (R490): Writes a meter entry and refills its buckets. -/
  | trfMset (t : Nat) (p : BitVec 2) (ts : BitVec 5) (ds : BitVec 4)
  /-- TRF_MGET (R490): Copies a meter entry to memory. -/
  | trfMget (t : Nat) (p : BitVec 2) (ts : BitVec 5) (ds : BitVec 4)
  /-- METER_COLOUR (R488): An operation at the head of its engine queue is coloured by its tenant meter. -/
  | meterColour (t op : Nat)
  /-- METER_DEFER_RETRY (R489): A deferred operation is metered again when its peak bucket becomes positive. -/
  | meterDeferRetry (t op : Nat)
  /-- BUDGET_WINDOW_BOUNDARY (R496): At a window boundary a waiting charge's account is refilled and the charge re-evaluated. -/
  | budgetWindowBoundary (part account : Nat)
  /-- REGULATOR_REFILL (R494): Every 1 µs each enabled partition bucket gains its rate up to its burst. -/
  | regulatorRefill
  /-- WINDSOCK_SAMPLE (R500): Once per period each queue's depth and delay are sampled into histograms. -/
  | windsockSample
  /-- HANDOFF_TMO (R106): HANDOFF_TMO expiry sends a RE-OFFER or reverts the origin to ANCHOR with HELD. -/
  | handoffTmo (b : Nat)
  /-- FIRST_TMO (R110): A receiver with no layer within FIRST_TMO becomes ORPHANED. -/
  | firstTmo (b : Nat)
  /-- PUSH_TMO (R110): A receiver whose arrival gap exceeds PUSH_TMO becomes ORPHANED. -/
  | pushTmo (b : Nat)
  /-- LAYER (R230): A receiving Spool checks and lands a LAYER run, mapping its pages and answering LANDED. -/
  | layer (qp : Nat)
  /-- LANDED (R224): The origin takes a LANDED answer, updating pages landed, credit and the push's completion. -/
  | landed (qp : Nat)
  /-- CREDIT_REQUEST (R233): A Spool receives a credit request and grants the shortfall from free units. -/
  | creditRequest (qp : Nat)
  /-- CREDIT_GRANT (R232): A sender receives a credit grant into its per-Spool counter. -/
  | creditGrant (qp : Nat)
  /-- RUN_SEND (R232): A held run is sent once its credit counter holds the run's units. -/
  | runSend (qp : Nat)
  /-- OFFER (R103): The receiver checks the END record and commits, refuses or answers the offer. -/
  | offer (qp : Nat)
  /-- RE_OFFER (R103): The receiver judges a re-sent offer as the END would have been judged. -/
  | reOffer (qp : Nat)
  /-- COMMIT (R104): The origin receives COMMIT and releases its copy. -/
  | commit (qp : Nat)
  /-- REFUSE (R104): The origin receives REFUSE and returns to ANCHOR with HELD cleared. -/
  | refuse (qp : Nat)
  /-- ANCHORED (R104): The origin receives ANCHORED and releases its copy. -/
  | anchored (qp : Nat)
  /-- UNKNOWN (R104): The origin receives UNKNOWN and changes nothing. -/
  | unknown (qp : Nat)
  /-- QUERY (R109): A Kratal answers a remote ownership QUERY from its Basket and ledger. -/
  | query (qp : Nat)
  /-- ANSWER (R226): The querying Kratal completes its remote query from an ANSWER. -/
  | answer (qp : Nat)
  /-- PULL_REQ (R246): A cache node checks GEN, pins frames and serves PULL_DATA runs. -/
  | pullReq (qp : Nat)
  /-- PULL_DATA (R246): The prompt node lands a pulled run with shared frames. -/
  | pullData (qp : Nat)
  /-- PULL_END (R247): The prompt node completes a pull from the served count and status. -/
  | pullEnd (qp : Nat)
  /-- OFFER_Q (R250): A cache node looks up offered hashes and answers a bitmap of absent ones. -/
  | offerQ (qp : Nat)
  /-- OFFER_A (R250): The prompt node sends the pages of each absent entry. -/
  | offerA (qp : Nat)
  /-- PREFIX_DATA (R250): A cache node lands an offered entry's frames, writes its record and inserts it. -/
  | prefixData (qp : Nat)
  /-- PREFIX_DONE (R250): The prompt node completes its offer with entries inserted and present. -/
  | prefixDone (qp : Nat)
  /-- FORWARDED_LOOKUP (R206): A cache node searches its prefix index for a forwarded lookup and answers. -/
  | forwardedLookup (qp : Nat)
  /-- ADAPTER_FETCH_SERVE (R331): A cache node copies an adapter object to the requester's DST. -/
  | adapterFetchServe (qp : Nat)
  /-- UNIT_COMMAND (R263): A Sail unit starts the next command in its queue. -/
  | unitCommand (unit : Nat)
  /-- STROKE_END (R276): A unit's stroke ends at STROKE_MAX, refresh due or command end and a gap begins. -/
  | strokeEnd (unit : Nat)
  /-- REFRESH_DUE (R278): A bank's per-bank refresh falls due and is issued in the next gap. -/
  | refreshDue (unit : Nat)
  /-- SAIL_UNIT_LOST (R285): A unit with accumulator parity or sequencer fault takes itself out of service. -/
  | sailUnitLost (unit : Nat)
  /-- PARTIAL_ROW_ARRIVAL (R309): A Merge stream folds an arriving partial row into its accumulator or stages it. -/
  | partialRowArrival (engine stream : Nat)
  /-- END_MARKER (R302): A Merge stream counts an END marker from a stack controller. -/
  | endMarker (engine stream : Nat)
  /-- PEER_CONTRIBUTION (R314): A stream accepts or refuses peer folded rows by state and MTAG. -/
  | peerContribution (qp : Nat)
  /-- STREAM_FINISH (R308): A stream with all inputs normalises and writes outputs, or sends rows to a peer. -/
  | streamFinish (engine stream : Nat)
  /-- MRG_TMO (R314): A stream without all inputs at MRG_TMO completes with TIMEOUT and writes nothing. -/
  | mrgTmo (engine stream : Nat)
  /-- PEER_RETRY (R314): A sender refused NO_RECV_BUF retries its peer contribution every 1 µs. -/
  | peerRetry (engine stream : Nat)
  /-- RECLAIM_SWEEP (R147): Every RECLAIM_PERIOD walkers start a sweep of the tiles that advances the reclaim epoch. -/
  | reclaimSweep
  /-- TILE_PASS_SWEEP (R147): A tile passes the sweep when its earlier operations have completed or pinned. -/
  | tilePassSweep (tile : Nat)
  /-- PIN_DROP_RETIRE (R146): A frame with REFCNT 0 retires when its last pin drops. -/
  | pinDropRetire (t op : Nat)
  /-- PREFIX_LEASE_END (R207): When a deleted record's lease passes, GEN increments and frame references drop. -/
  | prefixLeaseEnd (record : Nat)
  /-- MAT_PARITY_ERROR (R210): A row parity error clears the entry, removing a prefix or marking a rule bank lost. -/
  | matParityError (bank row : Nat)
  /-- MAT_SCRUB_ROW (R615): A bank checks one row's parity every MAT_SCRUB cycles. -/
  | matScrubRow (bank : Nat)
  /-- JOURNAL_FLUSH (R386): A channel flushes its journal at 4 MiB or 50 ms after the first unflushed entry. -/
  | journalFlush (chan : Nat)
  /-- OPEN_ROW_PAD (R383): A stripe row still open 50 ms after its first program is closed with pad slots. -/
  | openRowPad (chan : Nat) (native : Bool)
  /-- BALLAST_REBUILD (R387): After reset each channel loads its map, replays the journal and scans open rows. -/
  | ballastRebuild
  /-- DIE_LOST (R389): A die that stops responding is marked lost. -/
  | dieLost (chan die : Nat)
  /-- LASER_LOST (R402): A laser input below LASER_MIN for 5 µs is LOST and takes down its links. -/
  | laserLost (port input : Nat) (power : BitVec 8)
  /-- LASER_OK (R402): A laser input at or above the threshold for 1 ms is OK again. -/
  | laserOk (port input : Nat) (power : BitVec 8)
  /-- CALIBRATION_DONE (R405): Link calibration finishes and the link enters ACQUIRE, or retries after RETRY. -/
  | calibrationDone (port link : Nat) (good : Bool)
  /-- LINK_LOCK (R405): Alignment and FEC lock on every lane bring a link UP. -/
  | linkLock (port link : Nat)
  /-- ACQUIRE_TIMEOUT (R405): No lock within 100 ms restarts ACQUIRE after RETRY ms. -/
  | acquireTimeout (port link : Nat)
  /-- LINK_FAULT (R405): Loss of lock, high error rate or remote fault moves an UP link to HOLD. -/
  | linkFault (port link : Nat) (remote : Bool)
  /-- HOLD_DOWN (R405): A fault persisting for HOLD_DOWN moves the link to ACQUIRE and counts LINK_DOWN. -/
  | holdDown (port link : Nat)
  /-- FAULT_CLEAR (R405): A fault clearing before HOLD_DOWN returns the link to UP. -/
  | faultClear (port link : Nat)
  /-- ENGINE_HOT (R405): An optical engine above 95 °C darkens its links, and returns to LASER_WAIT below 85 °C. -/
  | engineHot (port : Nat) (above : Bool)
  /-- FRAME_RECEIVE (R399): A link receives a frame, discarding bad FCS, size, PAUSE and filtered frames. -/
  | frameReceive (port link len : Nat) (fcs codewords pause : Bool) (dst : BitVec 48)
  /-- CONN_REQ_RESEND (R421): A CONNECTING QP sends CONN_REQ every 100 µs. -/
  | connReqResend (qp : Nat)
  /-- CONN_REQ (R421): A Kratal answers a CONN_REQ by the named QP's state. -/
  | connReq (port link : Nat) (crc : Bool) (pkt : Packet)
  /-- CONN_ACC (R418): A CONNECTING QP receives CONN_ACC and becomes READY. -/
  | connAcc (port link : Nat) (crc : Bool) (pkt : Packet)
  /-- CONN_REJ (R418): A CONNECTING QP receives CONN_REJ and returns to INIT. -/
  | connRej (port link : Nat) (crc : Bool) (pkt : Packet)
  /-- CONN_WAIT (R421): A requester receives CONN_WAIT and keeps sending until CONN_TMO. -/
  | connWait (port link : Nat) (crc : Bool) (pkt : Packet)
  /-- CONN_TMO (R418): CONN_TMO expiry returns a CONNECTING QP to INIT with TIMEOUT. -/
  | connTmo (qp : Nat)
  /-- CLOSE (R443): A READY QP receiving CLOSE enters ERROR with DEAD_TARGET. -/
  | close (port link : Nat) (crc : Bool) (pkt : Packet)
  /-- DATA_PACKET (R435): A received data packet is checked, applied in PSN order, held or dropped. -/
  | dataPacket (port link : Nat) (crc auth bad : Bool) (pkt : Packet)
  /-- ACK_TIMER (R436): An ACK is sent 2 µs after the first unacknowledged packet. -/
  | ackTimer (qp : Nat)
  /-- ACK (R437): The sender takes a cumulative and selective ACK and adjusts its rate. -/
  | ack (port link : Nat) (crc : Bool) (pkt : Packet)
  /-- NAK (R443): The sender takes a NAK, refusing the operation or failing the QP. -/
  | nak (port link : Nat) (crc : Bool) (pkt : Packet)
  /-- ATOMIC_RESP (R440): The initiator completes an atomic from its response. -/
  | atomicResp (port link : Nat) (crc : Bool) (pkt : Packet)
  /-- QP_RETX_TIMER (R437): A packet's retransmission timer expires, resending it or failing the QP with TIMEOUT. -/
  | qpRetxTimer (qp psn : Nat)
  /-- PACKET_TRANSMIT (R447): A QP sends its next packet when its pacer and egress arbiter permit. -/
  | packetTransmit (qp : Nat)
  /-- FLOAD_REQ (R457): A target performs a fabric load and sends FLOAD_RESP data. -/
  | floadReq (port link : Nat) (crc auth bad : Bool) (pkt : Packet)
  /-- FLOAD_RESP (R457): The initiator receives load data into LOCAL. -/
  | floadResp (port link : Nat) (crc : Bool) (pkt : Packet)
  /-- HEARTBEAT (R470): A Tether heartbeat from a watched node is recorded. -/
  | heartbeat (port link : Nat) (crc : Bool) (pkt : Packet)
  /-- MGMT_HB (R470): A management heartbeat from a watched node is recorded. -/
  | mgmtHb (node : Nat)
  /-- GOP_UP (R463): A member receives a child's GOP_UP and enters upward when all children have. -/
  | gopUp (port link : Nat) (crc auth bad : Bool) (pkt : Packet)
  /-- GOP_DOWN (R463): A member receives GOP_DOWN, forwards it and completes. -/
  | gopDown (port link : Nat) (crc auth bad : Bool) (pkt : Packet)
  /-- GOP_TMO (R464): GOP_TMO after entry completes the operation with TIMEOUT and breaks the group. -/
  | gopTmo (group : Nat)
  /-- SNAP_HOLD (R466): SNAP_HOLD expiry ends a snapshot hold and raises SNAP_EXPIRED. -/
  | snapHold (part : Nat)
  /-- FRESET (R468): A member receives FRESET, forwards it and takes a fabric reset. -/
  | freset (group parent : Nat)
  /-- FRESET_ACK (R468): A member counts a child's FRESET_ACK. -/
  | fresetAck (group node count : Nat)
  /-- TEARDOWN (R460): A fabric access failing with DEAD_TARGET raises the partition teardown event and aborts its fabric work. -/
  | teardown (part : Nat)
  /-- ELECT (R475): A group member records an ELECT for a dead node. -/
  | elect (node dead : Nat)
  /-- ELECT_WAIT (R475): ELECT_WAIT expiry decides by lowest node and quorum whether to re-point paths. -/
  | electWait (dead : Nat)
  /-- ELECT_DONE (R475): A member receiving ELECT_DONE does not act. -/
  | electDone (dead : Nat)
  /-- OCS_REPLY (R476): An OCS controller reply echoing the tag ends the re-point request. -/
  | ocsReply (tag : Nat)
  /-- OCS_RETRY (R476): An unanswered re-point is resent after 1 ms and raises OCS_FAIL after three. -/
  | ocsRetry (tag : Nat)
  /-- SLOT_DATA_WRITE (R516): An accelerator write to a window aperture is judged and written or discarded. -/
  | slotDataWrite (half off : Nat) (data : List Byte) (ep : Bool)
  /-- PROD (R517): An accelerator PROD write advances an IN window within credit and sets its flag. -/
  | prod (half win : Nat) (value : BitVec 32)
  /-- GRANT (R520): An accelerator grants an OUT slot. -/
  | grant (half win : Nat) (slot : BitVec 32)
  /-- RECLAIM (R520): An accelerator reclaims an OUT slot. -/
  | reclaim (half win : Nat) (slot : BitVec 32)
  /-- GRANT_TMO (R520): An operation waiting longer than GRANT_TMO for a grant completes with TIMEOUT. -/
  | grantTmo (t op : Nat)
  /-- CREDIT_WORD_WRITE (R519): Within 1 µs of RELEASED advancing, the Kratal writes it to CREDIT_ADDR. -/
  | creditWordWrite (win : Nat)
  /-- CFG_REQUEST (R532): Writing GO to BDL_CFGA issues a configuration request below a root half. -/
  | cfgRequest (port : Nat) (value : BitVec 64)
  /-- CFG_COMPLETION (R532): A configuration completion or 50 ms timeout posts CPL and clears BUSY. -/
  | cfgCompletion (port : Nat) (cpl : BitVec 3) (data : BitVec 32)
  /-- PTM_REQUEST (R525): A root half answers a PTM Request with KTIME. -/
  | ptmRequest (half : Nat)
  /-- CXL_MEM_ACCESS (R524): A host CXL.mem line access is served from lent ranges. -/
  | cxlMemAccess (half : Nat) (addr : Nat) (write : Option (BitVec 512))
  /-- BRIDLE_LINK_DOWN (R526): A half leaving L0 or PERST_N invalidates its windows and fails their operations. -/
  | bridleLinkDown (half : Nat)
  /-- MSIX_SEND (R543): A pending MSI-X vector is sent on return to L0 or unmask. -/
  | msixSend (half vec : Nat) (unmask : Bool)
  /-- IN_LO (R539): The H end writes the PTR of the next IN message, dropped while FULL. -/
  | inLo (path : Path) (part chan : Nat) (value : BitVec 64)
  /-- IN_HI (R539): The H end writes LEN and TAG, posting the message and setting FULL. -/
  | inHi (path : Path) (part chan : Nat) (value : BitVec 64)
  /-- OUT_HI (R539): The H end reads LEN and TAG, clearing OUT FULL in the same access. -/
  | outHi (path : Path) (part chan : Nat)
  /-- DB_K_SET (R544): The H end rings DB_K bits of a channel. -/
  | dbKSet (path : Path) (part chan : Nat) (bits : BitVec 32)
  /-- DB_H (R541): The H end clears DB_H bits by W1C. -/
  | dbH (path : Path) (part chan : Nat) (bits : BitVec 32)
  /-- DB_H_EN (R543): The H end writes DB_H_EN, possibly raising the channel's MSI-X vector. -/
  | dbHEn (path : Path) (part chan : Nat) (bits : BitVec 32)
  /-- LAUNCH_PROD (R551): The host writes PROD of a host-fed launch ring within SIZE. -/
  | launchProd (path : Path) (part tile : Nat) (rt : Bool) (value : BitVec 32)
  /-- CCONS (R551): The host writes CCONS after reading completions. -/
  | ccons (path : Path) (part tile : Nat) (rt : Bool) (value : BitVec 32)
  /-- SEC_VIOL (R537): A refused access to a secure channel sets SEC_VIOL and writes a black-box record. -/
  | secViol (half chan : Nat) (write : Bool)
  /-- AUTH_BEGIN (R594): Starts a session with an ephemeral key exchange and signed nonce. -/
  | authBegin (chan seq role slot : Nat) (known : Bool)
  /-- AUTH_FINISH (R594): Verifies the role signature and opens the session. -/
  | authFinish (chan seq : Nat) (sigOk : Bool)
  /-- AUTH_TIMEOUT (R594): An AUTH_FINISH later than 10 s after AUTH_BEGIN is refused. -/
  | authTimeout (chan seq : Nat)
  /-- SESSION_IDLE (R595): A session with no command for SESS_IDLE seconds ends. -/
  | sessionIdle (session : Nat)
  /-- END_SESSION (R595): An END command closes the session. -/
  | endSession (c : SecCmd)
  /-- REG_READ (R589): A session command reads registers the role has rights to. -/
  | regRead (c : SecCmd) (addrs : List Nat)
  /-- REG_WRITE (R596): A session command writes up to 64 triples and commits up to 4 sets as one. -/
  | regWrite (c : SecCmd) (writes : List (Nat × BitVec 64 × BitVec 64)) (commits late : List Nat)
  /-- KEY_INSTALL (R603): Installs a prefix hash key, transport slot key or program key. -/
  | keyInstall (c : SecCmd) (part kind slot key : Nat)
  /-- KEY_ENROL (R604): Enrols public keys or generates or drops a partition Ballast key. -/
  | keyEnrol (c : SecCmd) (e : Enrol)
  /-- PROG_LOAD (R609): Verifies and loads a program image into every tile store. -/
  | progLoad (c : SecCmd) (part dpa : Nat) (sigOk : Bool)
  /-- PROG_UNLOAD (R609): Frees a program with no live thread. -/
  | progUnload (c : SecCmd) (part prog : Nat)
  /-- PART_TEARDOWN (R605): Tears down a partition, optionally wiping its memory. -/
  | partTeardown (c : SecCmd) (part : Nat) (wipe : Bool)
  /-- OPT_WRITE (R662): Writes a new option-byte copy into the copy not in use. -/
  | optWrite (c : SecCmd) (body : List Byte) (readBack : Bool)
  /-- FW_UPDATE (R607): Writes a maker-signed firmware image into the slot not running. -/
  | fwUpdate (c : SecCmd) (good : Bool) (svn version digest : Nat) (boot : List (BitVec 32)) (raise : Bool)
  /-- QUOTE (R610): Returns signed measurement registers over a requester nonce. -/
  | quote (c : SecCmd) (nonce : BitVec 384) (mask : BitVec 20)
  /-- BBX_READ (R631): Returns black-box records from a given index. -/
  | bbxRead (c : SecCmd) (first count : Nat)
  /-- FA_UNLOCK (R608): Destroys keys and enters failure-analysis ownership. -/
  | faUnlock (c : SecCmd)
  /-- OWNER_RESET (R608): Destroys keys, clears installer and operator slots and returns to UNOWNED. -/
  | ownerReset (c : SecCmd)
  /-- COMMIT_GO (R52): Writing GO to a *_COMMIT register captures, transfers and checks the block's staged set. -/
  | commitGo (path : Path) (addr : Nat) (tag : BitVec 8)
  /-- COMMIT_DISCARD (R51): Writing DISCARD returns staged fields to their values in force. -/
  | commitDiscard (path : Path) (addr : Nat)
  /-- COMMIT_APPLY (R52): An accepted set takes effect at the block's next application point and reports. -/
  | commitApply (addr : Nat)
  /-- COMMIT_WITHDRAW (R53): A commit with no application point in 10 ms is withdrawn with TIMEOUT. -/
  | commitWithdraw (addr : Nat)
  /-- REGISTER_WRITE (R47): A write to a register field without a row of its own is posted to its block. -/
  | registerWrite (path : Path) (addr size : Nat) (value : BitVec 64)
  /-- COUNTER_READ (R49): A read of an RC counter returns and clears it, capturing halves as stated. -/
  | counterRead (path : Path) (addr size : Nat)
  /-- UNMAPPED_ACCESS (R12): An access to an unmapped control-space address reads zero and sets the unmapped flag. -/
  | unmappedAccess (path : Path) (addr size : Nat) (write : Bool)
  /-- HOST_VIOL (R589): A Bridle access to a guarded or foreign register is refused and HOST_VIOL set. -/
  | hostViol (half addr size : Nat) (write : Bool)
  /-- WSK_DUMP (R508): Writing GO to WSK_DUMP dumps and clears every histogram between periods. -/
  | wskDump (path : Path) (value : BitVec 64)
  /-- FAB_DECLARE (R480): Writing FAB_DECLARE declares a node dead. -/
  | fabDeclare (path : Path) (node : BitVec 16)
  /-- RAS_INJECT_ARM (R708): Writing ARM in failure analysis flips a chosen bit at the next access. -/
  | rasInjectArm (path : Path) (loc : BitVec 32) (bit : BitVec 16) (addr : BitVec 48)
  /-- WARM (R665): Writing WARM with the key to RST_CTL takes a warm reset. -/
  | warm (path : Path)
  /-- FEED (R656): Writing FEED with the key to RST_CTL feeds the watchdog. -/
  | feed (path : Path)
  /-- RST_BLK (R667): Writing GO to RST_BLK requests a block reset and posts its result. -/
  | rstBlk (path : Path) (loc : BitVec 32)
  /-- WATCHDOG_EXPIRY (R656): PERIOD ms without a feed sets WDT_FIRED and takes a warm reset. -/
  | watchdogExpiry
  /-- POWER_ON (R653): VAUX18 rising through its threshold takes a power-on reset of the whole chip. -/
  | powerOn
  /-- RESET_N (R653): RESET_N held low for 1 µs takes a cold reset. -/
  | resetN
  /-- PERST_N (R653): PERST_N low on an endpoint half resets that half, or warm-resets the chip. -/
  | perstN (half : Nat)
  /-- VIN18_LOSS (R672): VIN18 lost with VAUX18 present writes a POWER record and drops all but the island. -/
  | vin18Loss
  /-- VIN18_GOOD (R672): VIN18 becoming good again runs start-up with cold reach. -/
  | vin18Good
  /-- VAUX18_LOSS (R627): VAUX18 falling below its minimum stops the island after the record in progress. -/
  | vaux18Loss
  /-- STARTUP_STEP (R657): Start-up releases the next domain once the previous step completes and its delay passes. -/
  | startupStep (bad : Nat) (nand : List (List NandDie))
  /-- S1_REQUEST (R674): PWR_CTL REQ S1 requests entry to S1, waiting while S1_HOLD is set. -/
  | s1Request (path : Path)
  /-- S1_ENTRY (R675): S1 entry ends partition 0 threads, drains engines, gates regions and self-refreshes HBM. -/
  | s1Entry
  /-- S1_HOLD_TIMEOUT (R674): An S1 request still held after 100 ms completes with TIMEOUT. -/
  | s1HoldTimeout
  /-- EXIT (R678): PWR_CTL REQ EXIT leaves S1, restoring regions, programs and links. -/
  | exitS1 (path : Path)
  /-- S3_REQUEST (R679): PWR_CTL REQ S3 destroys keys and powers down all but the island. -/
  | s3Request (path : Path)
  /-- S3_WAKE (R680): DB_K bit 0 of channel 0 rung in S3 wakes the chip with cold reach. -/
  | s3Wake
  /-- CAP_EVALUATION (R682): Every 100 µs the controller raises or lowers CAP_LEVEL against CAP_W. -/
  | capEvaluation (watts average : Nat)
  /-- CAP_MISS (R684): CAP_LEVEL 7 with power above the cap for 10 ms sets CAP_MISS. -/
  | capMiss
  /-- THERMAL_EVALUATION (R685): Every 100 µs THERM_LEVEL steps by the sensor temperatures. -/
  | thermalEvaluation (die hbm : List (BitVec 8))
  /-- THERMAL_TRIP (R686): A sensor at T_TRIP for 1 ms fences the chip and enters S3. -/
  | thermalTrip (loc : BitVec 32)
  /-- CLOCK_INPUT_LOSS (R639): A reference input loss is detected and handled per input. -/
  | clockInputLoss (input : Nat)
  /-- PPS_EDGE (R643): A TIM_PPS_IN edge is stamped and gives the servo an offset, or is rejected. -/
  | ppsEdge
  /-- PTP_MESSAGE (R645): A PTP event message is stamped and processed by the firmware servo. -/
  | ptpMessage (port : Option (Nat × Nat)) (offset : Option (Int × Nat))
  /-- TIME_SOURCE_LOSS (R642): A source not OK for 2 s moves the time service to HOLDOVER. -/
  | timeSourceLoss
  /-- PPS_OUT_PULSE (R646): A PPS output rises at each KTIME second plus OFFSET. -/
  | ppsOutPulse (n : Bool)
  /-- SRAM_UNCORRECTABLE (R616): An uncorrectable SRAM word is handled by what it holds. -/
  | sramUncorrectable (loc : BitVec 32) (word : BitVec 48) (syn : BitVec 64) (held : SramWord)
  /-- HBM_UNCORRECTABLE (R617): An uncorrectable HBM word is poisoned and the mark travels with the data. -/
  | hbmUncorrectable (addr chan : Nat) (syn : BitVec 64)
  /-- INTER_REGION_LINK_LOST (R619): A link exhausting its retries closes and traffic is rerouted. -/
  | interRegionLinkLost (a b : Nat)
  /-- CONTAINMENT_TIMEOUT (R620): A block reset or region fence not done in 1 ms escalates one level. -/
  | containmentTimeout (region block : Nat)
  /-- CE_STORM (R622): A cell exceeding CE_LIMIT corrected errors per second writes a storm record. -/
  | ceStorm (loc : BitVec 32) (hbm : Bool) (n : Nat)
  /-- PATROL_SCRUB (R615): A plain stack controller reads and corrects lines in the background. -/
  | patrolScrub (stack : Nat) (fixed bad : Bool) (syn : BitVec 64)
  /-- BLACK_BOX_WRITE (R627): The island writes the next queued black-box record in SEQ order. -/
  | blackBoxWrite
  /-- MGMT_LINK_CHANGE (R472): A management port gains or loses link, updating MGMT_A_UP or MGMT_B_UP and SINGLE_PATH and raising a SINGLE_PATH event. -/
  | mgmtLinkChange (port : Nat) (up : Bool)
  /-- LINK_UP (R533): A Bridle half finishes training and enters L0, setting LINK_UP and the trained generation and width. -/
  | linkUp (half gen width : Nat)
  /-- CLOCK_INPUT_RETURN (R639): A lost reference input becomes present again; PLL_MGT may switch back hitlessly under AUTO and the ports it feeds resume. -/
  | clockInputReturn (input : Nat)
  /-- BLOCK_REJOIN (R40): A block's reset completes and the block rejoins; a reset tile posts the ABORTED end completions of its threads. -/
  | blockRejoin (region block : Nat)
  /-- PROMPT_STARVED (R254): In role P+G, prompt work that has waited 10 ms without a grant sets PROMPT_STARVED. -/
  | promptStarved
  /-- SYNC_INTERVAL (R645): At each configured PTP interval the time service sends Sync, Announce or Delay_Req on its enabled PTP ports. -/
  | syncInterval (kind : Nat) (slave : Option Nat)
deriving DecidableEq, Repr

end Sys2Proof
end

