-- ==== Sys2Proof/Decode.lean ====
section
/-!
DEFINITION. The words of commands. The opcode table gives no row a bit: a command is an event or a request, and a register access is told apart by its path, its address
and its data. So no word spells one.
-/
namespace Sys2Proof

/-- The command that a word spells by the bits of the opcode table: the table gives none. -/
def decodeTableWord (nbits w : Nat) : Option Instr :=
  match nbits, w with
  | _, _ => none

end Sys2Proof
end

