-- ==== Sys2Proof/Config.lean ====
section
/-!
DEFINITION. What an implementation fixes and the values that the spec leaves open. Each is a constant without a body: nothing in Lean can
evaluate it, so a proof holds whatever its value is.
-/
namespace Sys2Proof.Config

/-- Whether the Tether transport or the time service enables a multicast group (R400); the spec names no group. -/
opaque multicastOn : Nat → Bool

/-- The n-th free value, of up to 64 bits, of a run: what the spec leaves undefined or unstated takes the next of them. -/
opaque freeValue : Nat → Nat

/-- Which value within 2 units in the last place the hardware exp2 gives for an FP32 code (R163), modulo 4. -/
opaque exp2 : Nat → Nat

/-- KEYCHK (R373): the low 32 bits of the AES-256 encryption of an LU and a partition under the Ballast key of an identity. -/
opaque keyChk : Nat → Nat → Nat → Nat

/-- SHA-384 (R607), of which the model uses that it is a function. -/
opaque sha384 : List Byte → Nat

/-- The receive lanes of a port that detect light at a tick (R412), which only the fibre decides. -/
opaque light : Nat → Nat → Nat

/-- The device serial (R703), fixed at manufacture. -/
opaque serial : Nat → BitVec 64

end Sys2Proof.Config
end

