-- ==== Sys2Proof/Machine/Bits.lean ====
section
/-!
DEFINITION. Bit fields, bytes and status codes: the field reads and writes that registers, descriptors and records share
(R6: bit 0 is least significant, fields are little-endian), and the code table of R80.
-/
namespace Sys2Proof

/-- Bits [lo+w-1:lo] of a number. -/
def bitsOf (x lo w : Nat) : Nat :=
  x / 2 ^ lo % 2 ^ w

/-- Bits [lo+w-1:lo] of a bit vector, as a number. -/
def fld {n : Nat} (x : BitVec n) (lo w : Nat) : Nat :=
  bitsOf x.toNat lo w

/-- Whether bit `i` is 1. -/
def bitAt {n : Nat} (x : BitVec n) (i : Nat) : Bool :=
  x.getLsbD i

/-- A number whose bits [lo+w-1:lo] are ones. -/
def maskOf (lo w : Nat) : Nat :=
  (2 ^ w - 1) * 2 ^ lo

/-- `x` with bits [lo+w-1:lo] replaced by the low bits of `v`. -/
def setBits {n : Nat} (x : BitVec n) (lo w v : Nat) : BitVec n :=
  (x &&& ~~~ BitVec.ofNat n (maskOf lo w)) ||| BitVec.ofNat n (v % 2 ^ w * 2 ^ lo)

/-- `x` with bit `i` set to `b`. -/
def setBit {n : Nat} (x : BitVec n) (i : Nat) (b : Bool) : BitVec n :=
  setBits x i 1 (if b then 1 else 0)

/-- The union of the masks of a list of fields (lo, w). -/
def fieldMask : List (Nat × Nat) → Nat
  | [] => 0
  | (lo, w) :: r => maskOf lo w ||| fieldMask r

/-- R7: every bit outside the listed fields is zero. -/
def reservedZero {n : Nat} (x : BitVec n) (fields : List (Nat × Nat)) : Bool :=
  (x &&& ~~~ BitVec.ofNat n (fieldMask fields)) == 0#n

/-- A number's `n` low bytes, least significant first. -/
def bytesLE : Nat → Nat → List Byte
  | 0, _ => []
  | n + 1, v => BitVec.ofNat 8 (v % 256) :: bytesLE n (v / 256)

/-- The number whose bytes, least significant first, are the list. -/
def ofBytesLE : List Byte → Nat
  | [] => 0
  | b :: r => b.toNat + 256 * ofBytesLE r

/-- The number whose bytes, most significant first, are the list. -/
def ofBytesBE (l : List Byte) : Nat :=
  ofBytesLE l.reverse

/-- Rounds `x` up to a multiple of `m`. -/
def roundUp (x m : Nat) : Nat :=
  if m = 0 then x else (x + m - 1) / m * m

/-- Division rounded up. -/
def ceilDiv (x m : Nat) : Nat :=
  if m = 0 then 0 else (x + m - 1) / m

/-- Whether the ranges [a, a+n) and [b, b+m) meet. -/
def overlaps (a n b m : Nat) : Bool :=
  decide (0 < n) && decide (0 < m) && decide (a < b + m) && decide (b < a + n)

/-- Whether the range [a, a+n) lies in [b, b+m). -/
def inside (a n b m : Nat) : Bool :=
  decide (b ≤ a) && decide (a + n ≤ b + m)

/-- The numbers 0 to n-1. -/
def upTo (n : Nat) : List Nat :=
  List.range n

/-- The code of a status (R80). -/
def Status.code : Status → Nat
  | .ok => 0x00 | .okEmpty => 0x01 | .part => 0x02
  | .badDesc => 0x10 | .cfgInvalid => 0x11 | .perm => 0x12 | .budget => 0x13
  | .notAnchor => 0x20 | .staleEpoch => 0x21 | .orphaned => 0x22
  | .duplicate => 0x30 | .staleGen => 0x31 | .revoked => 0x32 | .noRecvBuf => 0x33 | .deadTarget => 0x34 | .timeout => 0x35
  | .checkFail => 0x40 | .poison => 0x41 | .uncorrectable => 0x42
  | .noSpace => 0x50 | .readOnly => 0x51
  | .aborted => 0x60 | .domainOff => 0x61

/-- Every status of R80. -/
def Status.all : List Status :=
  [.ok, .okEmpty, .part, .badDesc, .cfgInvalid, .perm, .budget, .notAnchor, .staleEpoch, .orphaned, .duplicate, .staleGen,
   .revoked, .noRecvBuf, .deadTarget, .timeout, .checkFail, .poison, .uncorrectable, .noSpace, .readOnly, .aborted, .domainOff]

/-- The status of a code, where R80 lists it. -/
def Status.ofCode? (n : Nat) : Option Status :=
  Status.all.find? (fun s => s.code == n)

/-- Class 0x0 of R80: success. -/
def Status.good (s : Status) : Bool :=
  s.code < 0x10

/-- The first failed check decides (R81): the status of the first pair whose condition holds, or `dflt`. -/
def firstFail (dflt : Status) : List (Bool × Status) → Status
  | [] => dflt
  | (c, st) :: r => if c then st else firstFail dflt r

end Sys2Proof
end

