-- ==== Sys2Proof/Machine/PartsA.lean ====
section
/-!
DEFINITION. The parts of the state that the Fyley tiles, the mailboxes, the Bridle ports, the traffic block and the register
shells hold (chapters 02, 03, 17 to 20 and 26).
-/
namespace Sys2Proof.Machine

/-- A completion word (R75), field by field. `bsk = none` is NO_BASKET = 1. -/
structure Cpl where
  status : Status
  engine : Nat
  tag    : Nat
  bsk    : Option Nat
  part   : Nat
  count  : Nat
  detail : Nat
deriving DecidableEq, Repr, Inhabited

/-- An operation a thread has issued and whose completion has not been posted (R73, R580). `desc` is the copied descriptor
(R575); `done` is the completion once the engine has finished. `cls` is the class the operation runs in (R484, R489);
`started` says that the engine has started it, after the meter has judged it (R487). -/
structure Op where
  id      : Nat
  eng     : Nat
  op      : Nat
  tag     : Nat
  pre     : Nat
  cls     : Nat
  bsk     : Option Nat
  desc    : Desc
  started : Bool
  done    : Option Cpl
  /-- Its meter has judged it and let it pass (R487). -/
  metered : Bool := false
  /-- The tick at which it was issued. -/
  since   : Nat := 0
deriving DecidableEq, Repr, Inhabited

/-- What a thread that has reached an unmet wait waits for, with the operands that the wait needs when it is met. -/
inductive Wait where
  | tag (t : Nat) (dd : Nat) (wr : Bool) (pd : Nat)
  | any (dd : Nat) (wr : Bool) (pd : Nat)
  | all (dd : Nat) (wr : Bool) (pd : Nat)
  /-- A flag cell (by chip number), the condition code of R583, the operand and the destination scalar. -/
  | flag (cell cond : Nat) (operand : Word) (rd : Nat)
  /-- A flag wait that a write has satisfied: the destination scalar and the value stored (R549). -/
  | flagMet (rd : Nat) (val : Word)
  /-- `mbx.take` with WAIT on a channel. -/
  | mbx (ch : Nat) (rd rb : Nat)
  /-- `db.wait` on a channel under a mask. -/
  | db (ch : Nat) (mask : BitVec 32) (rd rb : Nat)
  /-- `fab.load`, which holds its slot until its completion has been posted (R577). -/
  | block (op : Nat)
  /-- An issue with all 32 entries reserved (R580). -/
  | issue
deriving DecidableEq, Repr, Inhabited

/-- Where a thread is: in a slot of its tile (core within the tile, slot), leaving that slot at a yield point, in its frame and
ready, or in its frame and waiting. -/
inductive Run where
  | inSlot (core slot : Nat)
  | leaving (core slot : Nat)
  | ready
  | waiting
deriving DecidableEq, Repr, Inhabited

/-- A thread (R58 to R78). Its number is 4,096 times its tile plus its context frame (R63). -/
structure Thread where
  part    : Nat
  prog    : Nat
  bsk     : Option Nat
  cls     : Nat
  tag     : Nat
  rt      : Bool
  pc      : Nat
  s       : Tab Word
  d       : Tab Desc
  p1      : Bool
  p2      : Bool
  p3      : Bool
  /-- The live declaration of R572. -/
  dmask   : BitVec 16
  smask   : BitVec 24
  /-- Issue cycles since the thread took its slot (R68). -/
  issued  : Nat
  run     : Run
  wait    : Option Wait
  /-- The tick at which it became ready. -/
  since   : Nat
  ops     : List Op
  /-- Held completions, oldest first (R74). -/
  held    : List Cpl
  nextOp  : Nat
  /-- The access status of R569. -/
  acc     : Option (Status × Nat)
  /-- LOST of R580. -/
  lost    : Option (Status × Nat)
  /-- The KTIME fraction of the last SEL 0 read (R586). -/
  frac    : Nat
  /-- Set once the thread has executed `end` or faulted: the status and DETAIL of its end completion (R77, R78). -/
  ending  : Option (Status × Nat)
  /-- SLICE as its slot had it when the thread took the slot: each slot applies FYL_CFG at its next switch (R83). -/
  slice   : Nat := 64
deriving DecidableEq, Repr, Inhabited

/-- The counts of a launch ring (R550). -/
structure Ring where
  prod  : Nat
  cons  : Nat
  cprod : Nat
  ccons : Nat
deriving DecidableEq, Repr, Inhabited

/-- A mailbox channel (R538, R541). -/
structure Chan where
  inPtr   : Word
  inHi    : Word
  inFull  : Bool
  outPtr  : Word
  outHi   : Word
  outFull : Bool
  ovr     : Bool
  dbH     : BitVec 32
  dbK     : BitVec 32
  dbHEn   : BitVec 32
deriving DecidableEq, Repr, Inhabited

/-- The Fyley tiles: threads, the ready queue in order of arrival, launch rings (by 256 × RT + 16 × partition + tile), end
completions that a tile reset still owes (R79), and the class tags of the slot picks (R485). -/
structure Fyl where
  threads : Tab Thread
  readyQ  : List Nat
  /-- Threads that wait in `mbx.take`, in the order they began to wait (R545). -/
  mbxWait : List Nat
  rings   : Tab Ring
  /-- Threads (thread number) lost with a reset tile, whose end completions post when it rejoins. -/
  owed    : Tab Thread
  /-- F_k of each tile's pick, by 8 × tile + class, and V by 8 × tile. -/
  tags    : Tab Nat
deriving DecidableEq, Repr, Inhabited

/-- The mailboxes and flag cells. `msixPend` and `msixMask` are by 64 × half + vector: pending, and unmasked. -/
structure Mbx where
  chans    : Tab Chan
  flags    : Tab Word
  msixPend : List Nat
  msixOn   : List Nat
deriving DecidableEq, Repr, Inhabited

/-- An output that an operation still has to write to an OUT window (R520), with the completion it then posts. -/
structure OutJob where
  thread : Nat
  opId   : Nat
  part   : Nat
  /-- The destinations still to be written, in order: window, the pieces as (byte offset in the window, bytes), each within one slot and at
  most 4 KiB, and the doorbell. -/
  dests  : List (Nat × List (Nat × List Byte) × Nat)
  status : Status
  count  : Nat
  detail : Nat
  /-- The tick at which the present wait for a grant began, and the ticks waited before it. -/
  since  : Option Nat
  waited : Nat
deriving DecidableEq, Repr, Inhabited

/-- A window's counts and grants (R517 to R520); `prod` and `rel` are the full counts. -/
structure Win where
  prod      : Nat
  rel       : Nat
  /-- Released counts not yet passed by `rel`. -/
  released  : List Nat
  grants    : List Nat
  creditDue : Bool
  /-- The ticks at which the counts from `rel` to `prod` came. -/
  times     : List Nat
deriving DecidableEq, Repr, Inhabited

/-- A Bridle half: in L0, trained generation and width, and whether the host has an HDM decoder committed (R524, R533). -/
structure Half where
  up    : Bool
  gen   : Nat
  width : Nat
  hdm   : Bool
deriving DecidableEq, Repr, Inhabited

/-- A configuration request in progress on a port (R532): its start tick. -/
structure CfgReq where
  half  : Nat
  bdf   : Nat
  reg   : Nat
  write : Bool
  since : Nat
deriving DecidableEq, Repr, Inhabited

/-- The Bridle ports. Halves are by 2 × port + half. -/
structure Bdl where
  halves  : Tab Half
  wins    : Tab Win
  jobs    : List OutJob
  cfgReq  : Tab CfgReq
  cfgCpl  : Tab Nat
  cfgData : Tab Nat
  /-- Lend ranges whose partition has been torn down and which a BDL_CXLMAP still names (R524). -/
  cxlDead : List Nat
deriving DecidableEq, Repr, Inhabited

/-- A charge that waits under DEFER (R497): its account, thread, operation, Basket and cost. -/
structure Charge where
  part   : Nat
  acct   : Nat
  thread : Nat
  opId   : Nat
  bsk    : Nat
  cost   : Nat
deriving DecidableEq, Repr, Inhabited

/-- An operation a meter holds (R489). -/
structure HeldOp where
  thread : Nat
  opId   : Nat
  eng    : Nat
  bytes  : Nat
  entry  : Nat
  since  : Nat
  /-- `trf.mset` has changed its entry: it is to be metered again (R490). -/
  again  : Bool
deriving DecidableEq, Repr, Inhabited

/-- The traffic block and Windsock. Buckets are by 4 × partition + resource; histogram counts by 32 × queue + bin, the depth
bins first (R501). `caps` counts, modulo 8, the grants that each arbiter could have made under a power cap (R683), and from 128 on, modulo 16, under the throttle (R685): slot picks by tile, Tether egress by
16 + 4 × port + link, Sail stacks from 80 on, Spool arbiters from 84 on. -/
structure Trf where
  charges  : List Charge
  meterHeld : List HeldOp
  buckets  : Tab Int
  refillAt : Nat
  hist     : Tab Nat
  periods  : Nat
  sampleAt : Nat
  caps     : Tab Nat := []
deriving DecidableEq, Repr, Inhabited

/-- The staged value of one word and the written marks of its bits (R9, R52). -/
structure Stg where
  val  : Word
  mask : Word
deriving DecidableEq, Repr, Inhabited

/-- A captured set (R52): the path, the tag, the tick of capture, the captured words by key, and the staged words it took. -/
structure Capture where
  path   : Path
  tag    : Nat
  since  : Nat
  words  : Tab Word
  staged : Tab Stg
deriving DecidableEq, Repr, Inhabited

/-- A commit register (R51). -/
structure Commit where
  tag     : Nat
  result  : Status
  doneTag : Nat
  cap     : Option Capture
deriving DecidableEq, Repr, Inhabited

/-- The register shells: words in force by key, staged words by address, commit registers by address, select copies by
16 × path + select, the trap of R705, and the status words mirrored when a domain last went down, by address (R50). -/
structure Shell where
  cfg     : Tab Word
  staged  : Tab Stg
  commits : Tab Commit
  sels    : Tab Nat
  uTrap   : Option (Nat × Bool × Nat)
  dTrap   : Option (Nat × Nat)
  mirror  : Tab Word
deriving DecidableEq, Repr, Inhabited

end Sys2Proof.Machine
end

