-- ==== Sys2Proof/Machine/PartsB.lean ====
section
/-!
DEFINITION. Loaded programs (R71, R609).
-/
namespace Sys2Proof.Machine

/-- A loaded program (R71, R609). -/
structure Prog where
  words     : List (BitVec 32)
  unbounded : Bool
deriving DecidableEq, Repr, Inhabited

end Sys2Proof.Machine
end

