-- ==== Sys2Proof/Machine/PartsC.lean ====
section
/-!
DEFINITION. The parts of the state that the Basket block, the page walkers, the adapter table, the Spool and the Tether transport
hold (chapters 04, 05, 08, 11 and 15).
-/
namespace Sys2Proof.Machine

/-- What waits at a 32-byte word of HBM: in a Sail bank a one-symbol error that the in-die code corrects at each read (R281), or a link CRC that fails three times at the next
write or read of the controller (R282, R614). -/
inductive Flaw where
  | one | write | read
deriving DecidableEq, Repr, Inhabited

/-- The states of a Basket (R91). -/
inductive BState where
  | free | admitted | inPrefix | prefill | pushing | handing | anchor | decoding | speculating | parked | orphaned | releasing
deriving DecidableEq, Repr, Inhabited

/-- The END record of a push (R235). -/
structure EndRec where
  layers : Nat
  seq    : Nat
  pages  : Nat
  check  : Nat
deriving DecidableEq, Repr, Inhabited

/-- A Basket record (R89), with the timer that runs for it. -/
structure Basket where
  state      : BState
  anchor     : Bool
  /-- SIDE = 1. -/
  receiver   : Bool
  held       : Bool
  decoded    : Bool
  part       : Nat
  tenant     : Nat
  model      : Nat
  retries    : Nat
  lastStatus : Nat
  epoch      : BitVec 32
  peerBasket : Nat
  peerNode   : Nat
  qp         : Nat
  nodeKnown  : Bool
  qpKnown    : Bool
  basketKnown : Bool
  adapter    : BitVec 32
  budget     : BitVec 32
  ptRoot     : Nat
  seqLen     : Nat
  tailLen    : Nat
  layersIn   : Nat
  admitTime  : Nat
  stateTime  : Nat
  pages      : Nat
  shared     : Nat
  user       : Word
  /-- RT_AREA, 128 bytes. -/
  rt         : BitVec 1024
  /-- The tick at which FIRST_TMO, PUSH_TMO or HANDOFF_TMO expires. -/
  deadline   : Option Nat
  /-- Parks that wait for accepted decode operations (R112), as (thread, operation). -/
  parks      : List (Nat × Nat)
  /-- A deferred charge parks it when its accepted decode operations complete (R497). -/
  budPark    : Bool
  /-- The record was lost with an uncorrectable error (R618). -/
  lost       : Bool
  /-- The `bsk.release` operations that the release in progress completes, as (thread, operation) (R94). -/
  releases   : List (Nat × Nat) := []
deriving DecidableEq, Repr, Inhabited

/-- An entry of a handoff ledger (R105). -/
structure LedgerEntry where
  recvBasket : Nat
  sendNode   : Nat
  sendBasket : Nat
  epoch      : BitVec 32
  time       : Nat
deriving DecidableEq, Repr, Inhabited

/-- The Basket block: records not FREE at power-on state (by Basket ID), slice turns by partition, ledgers by QP, and the events dropped by each event ring, a count
that no register shows (R115). -/
structure Bsk where
  tab     : Tab Basket
  turn    : Tab Nat
  ledgers : Tab (List LedgerEntry)
  dropped : Tab Nat := []
deriving DecidableEq, Repr, Inhabited

/-- A sweep in progress (R147): the tile it has reached, the operations (thread, operation) that tile had outstanding then, and whether
it has outlasted its period. -/
structure Sweep where
  tile : Nat
  ops  : List (Nat × Nat)
  late : Bool
deriving DecidableEq, Repr, Inhabited

/-- The page walkers: page-table units in use by (partition × 2^32 + unit), the highest page opened plus one of each Reel layer by
256 × Basket + layer, the tentative Reel frames outside their rings by (256 × Basket + layer) × 2^18 + page (R142), read pins as
(thread, operation, frame record address), and the reclaim epoch with its sweep. -/
structure Kvw where
  units    : Tab Nat
  reelTop  : Tab Nat
  reelTent : Tab Nat
  /-- One past the highest position that a push or a landing has written in a layer, by 256 × Basket + layer. -/
  filled   : Tab Nat
  /-- One past the highest slot of a frame that has been written since the frame was last cleared, by the frame's DPA (R157, R160). -/
  written  : Tab Nat
  pins     : List (Nat × Nat × Nat)
  epoch    : Nat
  sweep    : Option Sweep
  owedSweeps : Nat
  /-- The tick at which the next period begins. -/
  nextSweep : Nat
  /-- The keys of the level-3 entries in each walker's look-aside buffer (R135), as (256 × Basket + layer) × 2^18 + page. -/
  lab : Tab (List Nat) := []
deriving DecidableEq, Repr, Inhabited

/-- A `spec.commit` that waits (R340): the operations of the Basket issued before it. -/
structure SpecOp where
  thread : Nat
  opId   : Nat
  bsk    : Nat
  accept : Nat
  before : List (Nat × Nat)
deriving DecidableEq, Repr, Inhabited

/-- The adapter table's own lists: thread pins as (thread, partition, handle), retires that wait as (thread, operation, partition,
handle) (R327, R328). -/
structure Adp where
  pins    : List (Nat × Nat × Nat)
  /-- Speculative commits that wait for earlier operations of their Basket (R340). -/
  commits : List SpecOp
  retires : List (Nat × Nat × Nat × Nat)
  /-- Fetches that await their answer (R331), as (thread, operation, QP, DST). -/
  fetches : List (Nat × Nat × Nat × Nat)
  /-- Each `sail.delta` in progress as (thread, operation, partition), the handles its groups pin (R326) and the Baskets of its list (R340). -/
  deltas  : List ((Nat × Nat × Nat) × List Nat × List Nat) := []
deriving DecidableEq, Repr, Inhabited

/-- One layer of a push context (R216). `refused` is the status of a refused layer push whose later runs are discarded (R230). -/
structure LayerCtx where
  next    : Nat
  fin     : Bool
  refused : Option Status
  /-- Positions that the layer push in progress covers at the receiver: first position and count. -/
  first   : Nat
  ntok    : Nat
  /-- The page that must come next in the layer push at the receiver. -/
  page    : Nat
deriving DecidableEq, Repr, Inhabited

/-- A `push.layer` in progress at the origin. -/
structure PushOp where
  thread : Nat
  opId   : Nat
  layer  : Nat
  first  : Nat
  ntok   : Nat
  /-- Runs not yet answered, sent or not. -/
  open_  : Nat
  /-- Pages landed. -/
  landed : Nat
  /-- First position after the pages landed without a gap. -/
  upTo   : Nat
  fail   : Option Status
  /-- What ended it at the origin before its last page (R222, R224): the runs of the earlier pages go on. -/
  short  : Option Status
deriving DecidableEq, Repr, Inhabited

/-- A push context (R216), of an origin or a receiver Basket. -/
structure PushCtx where
  layers  : Tab LayerCtx
  pages   : Nat
  check   : Nat
  localPush : Bool
  ops     : List PushOp
  /-- The status that has cut the push off (R241). -/
  failed  : Option Status
  endRec  : Option EndRec
  /-- The `push.end` that waits, as (thread, operation). -/
  endOp   : Option (Nat × Nat)
deriving DecidableEq, Repr, Inhabited

/-- Who sends a run: a layer push of a Basket, a pull served to a peer, an offer of a Basket. A run of a layer push that ended before its
answer came is a stray of the push it belongs to; once that push too has ended, its answer concerns nobody. -/
inductive RunOwner where
  | push (bsk layer : Nat)
  | stray (bsk : Nat)
  | gone
  | serve (id : Nat)
  | offer (id : Nat)
deriving DecidableEq, Repr, Inhabited

/-- A run to be sent, or sent and not yet answered (R227, R232). -/
structure RunTx where
  qp       : Nat
  /-- The class it is sent in (R484). -/
  cls      : Nat
  owner    : RunOwner
  type     : Nat
  sendB    : Nat
  recvB    : Nat
  epoch    : Nat
  /-- The Spool at the receiver, whose credit counter the run uses. -/
  spool    : Nat
  layer    : Nat
  first    : Bool
  last     : Bool
  final    : Bool
  coded    : Bool
  table    : Nat
  posFirst : Nat
  ntok     : Nat
  pageFirst : Nat
  /-- DPAs of the pages' frames. -/
  frames   : List Nat
  /-- Raw bytes of one page. -/
  bytes    : Nat
  part     : Nat
  model    : Nat
  /-- A CREDIT request has been sent for it. -/
  asked    : Bool
  /-- Units it took when it was sent. -/
  units    : Nat
deriving DecidableEq, Repr, Inhabited

/-- A `pull.pages` in progress (R246, R247): pages landed are kept as 2^13 × layer + entry. -/
structure PullOp where
  thread : Nat
  opId   : Nat
  bsk    : Nat
  qp     : Nat
  page   : Nat
  layer0 : Nat
  layers : Nat
  count  : Nat
  landed : List Nat
  fail   : Option Status
deriving DecidableEq, Repr, Inhabited

/-- A pull that this cache node serves: the frames pinned by each run still unanswered are held in the run. -/
structure PullServe where
  id     : Nat
  qp     : Nat
  cls    : Nat
  sendB  : Nat
  page   : Nat
  layer  : Nat
  served : Nat
  status : Status
  /-- PULL_END has been sent. -/
  ended  : Bool
deriving DecidableEq, Repr, Inhabited

/-- A `push.prefix` in progress (R249, R250). -/
structure OfferOp where
  id     : Nat
  thread : Nat
  opId   : Nat
  bsk    : Nat
  qp     : Nat
  page   : Nat
  count  : Nat
  hashes : List Nat
  fail   : Option Status
  /-- An earlier offer of the Basket on the QP is in progress: OFFER_Q goes out when that has completed. -/
  waits  : Bool := false
deriving DecidableEq, Repr, Inhabited

/-- An offer that this cache node serves: the hashes offered, the entry being landed with its frames by layer, and the counts. -/
structure OfferServe where
  qp      : Nat
  sendB   : Nat
  part    : Nat
  model   : Nat
  hashes  : List Nat
  left    : List Nat
  frames  : Tab Nat
  done    : Nat
  present : Nat
  status  : Status
deriving DecidableEq, Repr, Inhabited

/-- A layer push one of whose runs was refused while its Basket had no push context (R230): its later runs are answered with the same status, up to the next that begins a
layer push. -/
structure Refused where
  qp     : Nat
  sendB  : Nat
  recvB  : Nat
  epoch  : Nat
  layer  : Nat
  status : Status
deriving DecidableEq, Repr, Inhabited

/-- The Spools (R216 to R254). Credit counters are by 4 × QP + receiving Spool; grants by the same key on the receiving side. -/
structure Spl where
  ctxs    : Tab PushCtx
  sendq   : List RunTx
  flight  : List RunTx
  credit  : Tab Nat
  granted : Tab Nat
  asked   : List Nat
  /-- Shortfalls of QPs that wait for units, as (4 × QP + Spool, units, receiving Basket), in order. -/
  waiting : List (Nat × Nat × Nat)
  pulls   : List PullOp
  serves  : List PullServe
  offers  : List OfferOp
  offerServes : List OfferServe
  /-- Remote queries outstanding, as (thread, operation, QP, Basket, epoch). -/
  queries : List (Nat × Nat × Nat × Nat × Nat)
  nextId  : Nat
  /-- Prefix record slots in use, by partition × 2^32 + slot. -/
  slots   : Tab Nat
  /-- The tick from which prompt work has waited without a grant (R254). -/
  promptSince : Option Nat
  /-- Finish tags of the Spools' block arbiters (R38, R485): class k of a Spool at 8 × Spool + k, V at k = 0. -/
  tags    : Tab Nat := []
  /-- The QP whose run went out last in a class of a Spool, by the same key. -/
  turns   : Tab Nat := []
  refused : List Refused := []
deriving DecidableEq, Repr, Inhabited

/-- The states of a QP (R417). -/
inductive QState where
  | free | init | connecting | ready | error
deriving DecidableEq, Repr, Inhabited

/-- For whom a transport operation is carried. -/
inductive TxOwner where
  | nobody
  /-- An operation of a thread, with the DPA that receives an atomic's old value. -/
  | thr (thread opId dpa : Nat)
  /-- A fabric access of a thread, with the DPA that receives a load or an atomic's old value. -/
  | fab (thread opId dpa : Nat)
  /-- An engine's message whose acknowledgement completes an operation, with COUNT. -/
  | eng (thread opId count : Nat)
  /-- A message of a Spool operation of a thread. -/
  | spool (thread opId : Nat)
  /-- A peer contribution of a Merge stream, by 64 × engine + stream (R308, R314), for its `mrg.open`. -/
  | mrg (stream thread opId : Nat)
deriving DecidableEq, Repr, Inhabited

/-- An operation in a QP's queue (R416). -/
structure TxOp where
  id     : Nat
  opc    : Nat
  consumer : Nat
  cls    : Nat
  src    : Option Nat
  inl    : List Byte
  len    : Nat
  target : Nat
  off    : Nat
  fin    : Bool
  o1     : Nat
  o2     : Nat
  /-- The extension of a message of a global operation. -/
  gop    : Ext
  owner  : TxOwner
  /-- Bytes handed to packets. -/
  sent   : Nat
  firstPsn : Option Nat
  lastPsn  : Option Nat
  fail   : Option Status
  /-- The packets of a fabric load received, by bit. -/
  got    : Nat
  /-- The tick at which it was queued. -/
  at_    : Nat
deriving DecidableEq, Repr, Inhabited

/-- A packet sent and not yet acknowledged (R437). -/
structure SentPkt where
  pkt    : Packet
  opId   : Nat
  k      : Nat
  due    : Nat
  marks  : Nat
  sacked : Bool
  /-- It is to be sent again. -/
  again  : Bool
deriving DecidableEq, Repr, Inhabited

/-- A receive buffer slot (R431). -/
structure RSlot where
  posted : Bool
  gen    : Nat
  dpa    : Nat
  len    : Nat
  order  : Nat
  thread : Nat
  opId   : Nat
  high   : Nat
deriving DecidableEq, Repr, Inhabited

/-- The operation that a QP is receiving (R435): its packets' target, or its refusal. -/
structure RxOp where
  refused : Bool
  /-- A message to an engine or of a global operation, which is gathered in `buf`. -/
  message : Bool
  base    : Nat
  region  : Option Nat
  slot    : Option Nat
  /-- CONSUMER of an engine message, else 0. -/
  consumer : Nat
  buf     : List Byte
  firstPsn : Nat
deriving DecidableEq, Repr, Inhabited

/-- A queue pair. Rates are in Gb/s. -/
structure Qp where
  state    : QState
  status   : Nat
  incarn   : Nat
  part     : Nat
  rqDepth  : Nat
  peerNode : Nat
  peerQp   : Nat
  peerIncarn : Nat
  payload  : Nat
  v4       : Bool
  sec      : Bool
  links    : List (Nat × Nat)
  peerAddr : Nat
  /-- The transport key copied from its slot at connect (R603); 0 without SEC. -/
  key      : Nat
  connOp   : Option (Nat × Nat)
  /-- The ticks at which CONN_TMO expires and the next CONN_REQ is due. -/
  connDue  : Nat
  connAt   : Nat
  /-- The tick from which the pacer permits the next packet (R447). -/
  paceAt   : Nat
  rate     : Nat
  rttAt    : Nat
  txq      : List TxOp
  nextPsn  : Nat
  wraps    : Nat
  unacked  : List SentPkt
  epsn     : Nat
  /-- Packets held in reorder buffers, with the port they arrived on (R435). -/
  held     : List (Nat × Packet)
  slots    : Tab RSlot
  order    : Nat
  rx       : Option RxOp
  /-- Packets applied since the last ACK, the tick by which an ACK is due, and the TX_TIME to echo. -/
  applied  : Nat
  ackDue   : Option Nat
  echo     : Nat
  cache    : List (Nat × Nat × Nat)
  nextId   : Nat
  /-- The class of the engine message taken last (R484). -/
  rxCls    : Nat
deriving DecidableEq, Repr, Inhabited

/-- The states of a registered region (R445). -/
inductive RegState where
  | free | valid | draining
deriving DecidableEq, Repr, Inhabited

/-- A region (R444): `openOps` are the operations accepted and not finished, by QP; `revokes` wait. -/
structure Region where
  state   : RegState
  base    : Nat
  size    : Nat
  access  : Nat
  gen     : Nat
  part    : Nat
  openOps : List Nat
  abandoned : Nat
  revokes : List (Nat × Nat)
deriving DecidableEq, Repr, Inhabited

/-- An ENGINE message applied and waiting for its engine (R426): QP, consumer, first and last PSN, bytes. -/
structure InMsg where
  qp       : Nat
  consumer : Nat
  firstPsn : Nat
  lastPsn  : Nat
  cls      : Nat
  bytes    : List Byte
deriving DecidableEq, Repr, Inhabited

/-- The Tether transport: QPs, regions by index, the engine messages received and the bytes held in each port's reorder buffer. -/
structure Ttx where
  qps     : Tab Qp
  regions : Tab Region
  inbox   : List InMsg
  /-- Finish tags of the egress arbiters of R485: class k of a link at 8 × (4 × port + link) + k, V at k = 0. -/
  tags    : Tab Nat
  /-- The QP that sent last in a class of a link (R492), by the same key. -/
  turns   : Tab Nat
deriving DecidableEq, Repr, Inhabited

/-- The states of a link (R404). -/
inductive LState where
  | off | laserWait | calibrate | acquire | up | hold | test | hot
deriving DecidableEq, Repr, Inhabited

/-- A Tether link (R404, R407, R413): its state and the tick it was entered, the tick bring-up began and the time it took, remote fault,
the ticks at which it left UP within the last second, and the uncorrectable codewords of the current millisecond. -/
structure Link where
  state  : LState
  since  : Nat
  start  : Nat
  bringMs : Nat
  remote : Bool
  leaves : List Nat
  cwAt   : Nat
  cwN    : Nat
  degraded : Bool
  flap   : Bool
deriving DecidableEq, Repr, Inhabited

/-- A port's optical engine (R402, R412): its laser inputs OK by bit, their powers in 0.1 dBm above +10.0 dBm, and HOT. -/
structure OptEng where
  ok     : Nat
  power0 : Nat
  power1 : Nat
  hot    : Bool
deriving DecidableEq, Repr, Inhabited

/-- What leaves the chip. -/
inductive Out where
  /-- A posted write over Bridle. -/
  | busWrite (half addr : Nat) (bytes : List Byte)
  | msix (half vec : Nat)
  /-- The data of a register or aperture read. -/
  | readData (path : Path) (addr : Nat) (val : Word)
  /-- The DOMAIN_OFF error response of the management path, or a Completer Abort (R554). -/
  | refuse (path : Path) (addr : Nat)
  /-- A transport packet on a Tether port's link. -/
  | packet (port link : Nat) (p : Packet)
  /-- A message on the management ports that have link, A as bit 0 and B as bit 1, to a node (R33). -/
  | mgmt (ports kind node : Nat) (bytes : List Byte)
  /-- A configuration request below a root half: BDF, register, and the data of a write (R532). -/
  | config (half bdf reg : Nat) (write : Option Nat)
  /-- PTM Master Time (R525). -/
  | ptm (half time : Nat)
  /-- The answer to a CXL.mem read, poisoned or not (R524). -/
  | cxl (half : Nat) (bytes : List Byte) (bad : Bool)
  /-- The answer to a session command on a secure channel: session, opcode, status, SEQ and body (R592). -/
  | answer (chan session opcode : Nat) (status : Status) (seq : Nat) (bytes : List Byte)
  /-- A PTP message on the links and management ports enabled: 0 Sync, 1 Announce, with the clockClass announced, 2 Delay_Req (R642, R645). -/
  | ptp (kind links mgmt : Nat) (time cls : Nat)
  /-- A pulse on TIM_PPS_OUT `n` at a KTIME instant, of a width in µs (R646). -/
  | pps (n time width : Nat)
deriving DecidableEq, Repr, Inhabited

end Sys2Proof.Machine
end

