-- ==== Sys2Proof/Machine/PartsD.lean ====
section
/-!
DEFINITION. The parts of the state that the Match Array and the fabric hold (chapters 07 and 16).
-/
namespace Sys2Proof.Machine

/-- An entry of a Match Array bank (R185). -/
structure MatEntry where
  key   : BitVec 320
  care  : BitVec 320
  tag   : BitVec 8
  prio  : Nat
  assoc : Nat
deriving DecidableEq, Repr, Inhabited

/-- A prefix delete whose lease has not ended (R207): the record, and the operation that it completes, if any. -/
structure MatDel where
  record : Nat
  owner  : Option (Nat × Nat)
deriving DecidableEq, Repr, Inhabited

/-- A `tie.evict` in progress or waiting for its turn (R356, R357): the records still under lease, the entries deleted, the frames
brought to REFCNT 0, and from the survey to the deletions the cutoff bin with the entries to delete, oldest first, as (bank, slot, entry). -/
structure EvictOp where
  thread  : Nat
  opId    : Nat
  part    : Nat
  running : Bool
  left    : List Nat
  deleted : Nat
  zeroed  : Nat
  bin     : Nat := 0
  todo    : List (Nat × Nat × MatEntry) := []
deriving DecidableEq, Repr, Inhabited

/-- A forwarded lookup that awaits its answer (R206). -/
structure Lookup where
  thread : Nat
  opId   : Nat
  qp     : Nat
  result : Nat
deriving DecidableEq, Repr, Inhabited

/-- The Match Array: entries by bank and slot (row / width), deletes under lease, evictions, forwarded lookups, the scrub's next row by
bank, and the rows (bank × 8,192 + row) whose parity is bad. -/
structure Mat where
  banks   : Tab (Tab MatEntry)
  dels    : List MatDel
  evicts  : List EvictOp
  lookups : List Lookup
  scrub   : Tab Nat
  bad     : List Nat
deriving DecidableEq, Repr, Inhabited

/-- A message of a group's tree, kept until its sequence number comes (R463): from the rank, GOP_UP where `up`. -/
structure GopMsg where
  up     : Bool
  rank   : Nat
  seq    : Nat
  kind   : Nat
  root   : Nat
  len    : Nat
  status : Nat
  data   : List Byte
deriving DecidableEq, Repr, Inhabited

/-- A global operation in progress at this member (R462, R463). -/
structure Gop where
  thread   : Nat
  opId     : Nat
  cls      : Nat
  kind     : Nat
  root     : Nat
  len      : Nat
  buf      : Nat
  deadline : Nat
  /-- It has sent GOP_UP, or at rank 0 is past it. -/
  entered  : Bool
deriving DecidableEq, Repr, Inhabited

/-- A group slot (R461, R481): BROKEN, the sequence number of the present or next operation, and the messages held. -/
structure Group where
  broken : Bool
  seq    : Nat
  op     : Option Gop
  msgs   : List GopMsg
deriving DecidableEq, Repr, Inhabited

/-- An election for a dead node (R475). -/
structure Election where
  node     : Nat
  declared : Nat
  deadline : Nat
deriving DecidableEq, Repr, Inhabited

/-- A re-point request that waits for its reply (R476). -/
structure Repoint where
  node  : Nat
  entry : Nat
  tag   : Nat
  tries : Nat
  due   : Nat
deriving DecidableEq, Repr, Inhabited

/-- A fabric reset of a group at this member (R468): its parent's node, the children still to answer, the members acknowledged. -/
structure FrMember where
  parent   : Nat
  left     : List Nat
  count    : Nat
  deadline : Nat
deriving DecidableEq, Repr, Inhabited

/-- A `fab.reset` in progress (R468). -/
structure FrOp where
  thread   : Nat
  opId     : Nat
  group    : Nat
  deadline : Nat
deriving DecidableEq, Repr, Inhabited

/-- Fabric memory, global operations and failover. Heartbeats are marked as 2 × node + KIND. -/
structure Fab where
  groups   : Tab Group
  /-- Snapshot holds (R466), as (partition, group, tick at which SNAP_HOLD passes). -/
  holds    : List (Nat × Nat × Nat)
  /-- TEARDOWN_MAP, and the partitions with an access that failed with DEAD_TARGET, with the node (R460). -/
  teardown : List Nat
  deadPend : List (Nat × Nat)
  /-- Heartbeats received since the last `fab.hb` of their KIND, and the KINDs that have had one. -/
  seen     : List Nat
  hbDone   : List Nat
  /-- PATH_LOST and MGMT_SILENT raised and still standing. -/
  warned   : List Nat
  elects   : List Election
  /-- ELECTs heard, as (dead node, sender, tick). -/
  heard    : List (Nat × Nat × Nat)
  /-- Dead nodes for which ELECT_DONE has come (R475). -/
  dones    : List Nat
  repoints : List Repoint
  nextTag  : Nat
  mgmtA    : Bool
  mgmtB    : Bool
  resets   : Tab FrMember
  resetOps : List FrOp
deriving DecidableEq, Repr, Inhabited

end Sys2Proof.Machine
end

