-- ==== Sys2Proof/Machine/PartsE.lean ====
section
/-!
DEFINITION. The parts of the state that the Sail units and the Merge engines hold (chapters 09 and 10).
-/
namespace Sys2Proof.Machine

/-- A command of a Sail unit (R262): its issue and selection index, OP, partition, descriptor (R265, R268, R271), operand half, and for
ATTN_PARTIAL the stream row and shard rank of each of its rows (R302). A stage-B command of `sail.delta` waits for the stage-A command `need` and fills
its vectors from `vec`, FP32 (R335). In a command of `sail.delta` `offs` gives the offsets of the vectors and of their exponents where `sail.delta` has placed them; its operand bytes are
not held to the 8 KiB of an operand half. -/
structure SCmd where
  iss  : Nat
  idx  : Nat
  op   : Nat
  part : Nat
  desc : Desc
  opnd : List Byte
  rows : List (Nat × Nat)
  need : Option Nat
  vec  : Option Nat
  offs : Option (Nat × Nat)
deriving DecidableEq, Repr, Inhabited

/-- A Sail unit (R256 to R285): its queue, the command it performs with the CLK_SAL cycles of bank work left, the tick at which the present
stroke began or may begin, the tick at which its bank's next refresh falls due, a refresh that waits for the next gap, the partition of the last command it
accepted and that of the last it started (R275), and whether it is out of service. -/
structure SUnit where
  queue : List SCmd
  cur   : Option SCmd
  left  : Nat
  since : Nat
  due   : Nat
  refresh : Bool
  part  : Option Nat
  ran   : Option Nat
  lost  : Bool
deriving DecidableEq, Repr, Inhabited

/-- An issue to the Sail units (R264): the operation, its commands not finished, those that failed as (index, status, DETAIL[31:12]), the
DETAIL[31:12] of success, the Merge stream its rows go to (64 × engine + stream) with the stacks whose END marker is still owed (R302), and for
`sail.delta` the stage-A commands done, the delta bytes by stage-B bank, and the output. -/
structure SIssue where
  id     : Nat
  thread : Nat
  opId   : Nat
  op     : Nat
  part   : Nat
  left   : Nat
  /-- Selected banks. -/
  n      : Nat
  /-- Failed commands. -/
  res    : List (Nat × Status × Nat)
  detail : Nat
  stream : Option Nat
  owed   : List Nat
  stages : List Nat
  got    : Tab (List Byte)
  /-- The rows of a `sail.delta` (R345). -/
  vecs   : Nat := 0
  /-- OUT window, byte offset, doorbell, and the stage-B banks of a `sail.delta`. -/
  out    : Option (Nat × Nat × Nat × Nat)
deriving DecidableEq, Repr, Inhabited

/-- The Sail stacks: units by global bank, issues, and the stacks above 85 °C (R278). -/
structure Sal where
  units  : Tab SUnit
  issues : List SIssue
  nextId : Nat
  hot    : List Nat
deriving DecidableEq, Repr, Inhabited

/-- What travels to a Merge stream: a partial row of an issue with its row number and shard rank, poisoned or not, or an END marker. -/
inductive WItem where
  | row (iss r rank : Nat) (bytes : List Byte) (bad : Bool)
  | mark (abort : Bool)
deriving DecidableEq, Repr, Inhabited

/-- An open Merge stream (R306 to R308): the fields of `mrg.open`, the END markers that have come, ranks given to earlier sources, the accumulators by row as FP32 codes
(m, l, o), the ranks staged per row as 4,096 × row + rank, poisoned rows, rows with a NaN, the peer contributions by PEER_INDEX in order of arrival, and the tick
at which a refused contribution is sent again. -/
structure MStream where
  thread : Nat
  opId   : Nat
  part   : Nat
  ordered : Bool
  pfmt   : Bool
  dim    : Nat
  ofp32  : Bool
  rows   : Nat
  sources : Nat
  peers  : Nat
  shards : Nat
  area   : Nat
  stride : Nat
  toPeer : Bool
  peerIndex : Nat
  qp     : Nat
  rEngine : Nat
  rStream : Nat
  mtag   : Nat
  dests  : List (Nat × Nat × Nat × Nat)
  deadline : Nat
  marks  : Nat
  aborted : Bool
  base   : Nat
  /-- Query heads of a query position, as the first source gives them (R295). -/
  qh     : Option Nat
  acc    : Tab (Nat × Nat × List Nat)
  staged : List Nat
  bad    : List Nat
  came   : List (Nat × List Byte)
  /-- Outputs are being written, or the rows have been sent to the peer. -/
  ending : Bool
  retryAt : Option Nat
deriving DecidableEq, Repr, Inhabited

/-- The Merge engines: streams by 64 × engine + stream, and what is on its way to each. -/
structure Mrg where
  streams : Tab MStream
  wire    : Tab (List WItem)
deriving DecidableEq, Repr, Inhabited

end Sys2Proof.Machine
end

