-- ==== Sys2Proof/Machine/PartsF.lean ====
section
/-!
DEFINITION. The parts of the state that the Ballast tier holds (chapter 13).
-/
namespace Sys2Proof.Machine

/-- What start-up has found on a Ballast channel (R371, R396): its dies by index, the geometry and times in force, and the mode and rate trained. -/
structure NandFound where
  ids   : List Nat
  bpc   : Nat
  q     : Nat
  p     : Nat
  e     : Nat
  tr    : Nat
  tprog : Nat
  ters  : Nat
  mode  : Nat
  rate  : Nat
deriving DecidableEq, Repr, Inhabited

/-- What a slot's codewords have come to (R388): how many need read retry, how many are decoded soft, and whether one cannot be decoded at all. -/
structure FWear where
  retry : Nat
  soft  : Nat
  dead  : Bool
deriving DecidableEq, Repr, Inhabited

/-- A programmed slot: its tags (R373) and the data of a data slot. KIND: 0 data, 1 parity, 4 pad. -/
structure FSlot where
  lu   : Nat
  part : Nat
  kind : Nat
  seq  : Nat
  fid  : Nat
  keychk : Nat
  data : List Byte
  crc  : Nat := 0
deriving DecidableEq, Repr, Inhabited

/-- An erase unit: its erase count above the channel's, its use (0 erased, 1 single-bit, 2 native, 3 map region, 4 retired), and the stripe it is in. -/
structure FUnit where
  erases : Nat
  use    : Nat
  stripe : Nat
deriving DecidableEq, Repr, Inhabited

/-- An open stripe (R383): its number, its erase units in die position order, whether it is native, the open page row, the data slots programmed in it, and the
tick of the first. -/
structure FStripe where
  id     : Nat
  units  : List Nat
  native : Bool
  row    : Nat
  pos    : Nat
  since  : Option Nat
deriving DecidableEq, Repr, Inhabited

/-- A format header (R377): FORMAT_ID, LOGICAL, STRIPE, OP, and READ_ONLY (R390). -/
structure FHeader where
  fid      : Nat
  logical  : Nat
  stripe   : Nat
  op       : Nat
  readOnly : Bool
deriving DecidableEq, Repr, Inhabited

/-- A Ballast channel: what start-up found (R371, R396); the flash itself, which no reset clears: slots, erase units, header, the map copy with the journals still needed,
oldest first, each with the map entries rewritten since its flush, the place where the copy goes on, the SEQ of the last flush (R386), lost dies, worn slots, and the erase
units that fail their next program or erase (R388, R389); and the translation layer's own state: SEQ, open stripes, the stripes with their units, the journal buffer as
(channel index, slot or trim) with the tick of its first entry, units marked for relocation, and the PATROL cursor (R391). -/
structure FChan where
  found   : NandFound
  lost    : Bool
  slots   : Tab FSlot
  units   : Tab FUnit
  eraseBase : Nat
  header  : Option FHeader
  copy    : Tab Nat
  log     : List (List (Nat × Option Nat) × Nat)
  copyPos : Nat
  diskSeq : Nat
  dead    : List Nat
  seq     : Nat
  single  : Option FStripe
  native  : Option FStripe
  stripes : Tab (List Nat)
  nextStripe : Nat
  journal : List (Nat × Option Nat)
  jSince  : Option Nat
  marked  : List Nat
  cursor  : Nat
  wear    : Tab FWear := []
  fails   : List Nat := []
deriving DecidableEq, Repr, Inhabited

/-- A write whose native page rows are not closed yet (R381): thread, operation, COUNT, the channels with such a row. -/
structure FWait where
  thread : Nat
  opId   : Nat
  count  : Nat
  chans  : List Nat
deriving DecidableEq, Repr, Inhabited

/-- The Ballast tier: channels, waiting writes, REBUILDING, and the next FORMAT_ID. -/
structure Bls where
  chans      : Tab FChan
  waits      : List FWait
  rebuilding : Bool
  nextFid    : Nat
deriving DecidableEq, Repr, Inhabited

end Sys2Proof.Machine
end

