-- ==== Sys2Proof/Machine/PartsG.lean ====
section
/-!
DEFINITION. The parts of the state that the black box, containment, the time service, power and reset hold, with sessions and keys (chapters 21 to 25).
-/
namespace Sys2Proof.Machine

/-- The answer to a session command (R592): channel, session, opcode, status, SEQ and body. -/
structure Answer where
  chan    : Nat
  session : Nat
  opcode  : Nat
  status  : Status
  seq     : Nat
  body    : List Byte
deriving DecidableEq, Repr, Inhabited

/-- A queued black-box record (R624, R627): its fields, whether it is an ERROR of level block or above (R628), and the answer that waits until it
is durable (R598). -/
structure BbRec where
  seq    : Nat
  kind   : Nat
  after  : Bool
  more   : Bool
  time   : Nat
  loc    : Nat
  boot   : Nat
  body   : List Byte
  block  : Bool
  answer : Option Answer
deriving DecidableEq, Repr, Inhabited

/-- The black box (R624 to R636): the records as stored, by index from 0 to 65,535 (the capture slots first), the queue, NEXT_SEQ, a drop since the last
record, the ring position written next, the last capture slot opened, SLOT0_USED, the slots still filling with the records they hold, whether this boot has
opened one, BOOT, and the cells whose first corrected error of this boot has been recorded. -/
structure Bbx where
  recs    : Tab (List Byte)
  queue   : List BbRec
  nextSeq : Nat
  dropped : Bool
  head    : Nat
  slot    : Nat
  slot0   : Bool
  filling : Tab Nat
  opened  : Bool
  boot    : Nat
  seen    : List Nat
deriving DecidableEq, Repr, Inhabited

/-- Corrected errors of a cell (R622): the reports of the last second, each with its tick and its errors, and a storm reported and not yet over. -/
structure CeCount where
  last  : List (Nat × Nat)
  storm : Bool
deriving DecidableEq, Repr, Inhabited

/-- A containment step in progress (R620): a block (64 × region + block), or a region as block 63, with the tick it began and whether RST_BLK asked
for it. -/
structure Contain where
  blk   : Nat
  since : Nat
  asked : Bool
deriving DecidableEq, Repr, Inhabited

/-- Containment: steps in progress, inter-region links closed (by 4 × lower region + higher region), corrected errors by cell locator, the next line and
the start tick of each plain stack's patrol, the armed injection of R708 as (locator, bit, address), and the 16 latest syndromes of each unit by locator, the latest
first (R708). -/
structure Ras where
  steps  : List Contain
  closed : List Nat
  ces    : Tab CeCount
  patrol : Tab (Nat × Nat)
  inject : Option (Nat × Nat × Nat)
  syns   : Tab (List Nat) := []
deriving DecidableEq, Repr, Inhabited

/-- An open session (R593 to R595): its channel, role (1 operator, 2 installer, 3 maker), key slot, the lowest SEQ
that it accepts next, and the tick of its last command. -/
structure Session where
  chan : Nat
  role : Nat
  slot : Nat
  seq  : Nat
  last : Nat
deriving DecidableEq, Repr, Inhabited

/-- An AUTH_BEGIN that awaits its AUTH_FINISH (R594): role, key index, and tick. -/
structure Begun where
  role  : Nat
  slot  : Nat
  since : Nat
deriving DecidableEq, Repr, Inhabited

/-- A firmware slot (R607, R664): whether its maker signature verifies, its SVN and its version, its SHA-384, and its boot program. -/
structure FwImage where
  good    : Bool
  svn     : Nat
  version : Nat
  digest  : Nat
  boot    : List (BitVec 32)
deriving DecidableEq, Repr, Inhabited

/-- The security block: prefix hash keys and program keys by partition, transport keys by 256 × partition + slot (R603), the identities of the Ballast keys by
partition (R604), OWNER (0 UNOWNED, 1 OWNED, 2 FA), the enrolled installer and operator keys by slot, sessions by number, AUTH_BEGINs by channel, the AUTH_FINISH
failures in a row with the tick the lockout ends, the firmware slots (0 A, 1 B), the slot running, RECOVERY, SVN_MIN, the measurement registers (0 to 3 M0 to M3,
16 + p PM[p]), and the command buffers by address. -/
structure Sec where
  blsKeys    : Tab Nat
  prefixKeys : Tab Nat
  qpKeys     : Tab Nat
  progKeys   : Tab Nat
  owner      : Nat
  installers : Tab Nat
  operators  : Tab Nat
  sessions   : Tab Session
  begun      : Tab Begun
  fails      : Nat
  lockUntil  : Nat
  fw         : Tab FwImage
  fwSlot     : Nat
  recovery   : Bool
  svnMin     : Nat
  measures   : Tab Nat
  bufs       : Tab Word
deriving DecidableEq, Repr, Inhabited

/-- The states of the time service (R642). -/
inductive TState where
  | freerun | acquiring | locked | holdover
deriving DecidableEq, Repr, Inhabited

/-- The time service (R637 to R652): state, VALID, TOD committed since KTIME was last valid and the TOD that the next edge takes, INCR above 2 ns and the slew left,
both in 2^−32 ns, the last offset, the updates in a row within LOCK_NS, the tick of the last offset, the tick of the last PPS edge, the reference inputs present as
CLK_STS [9:0] shows them, MGT_ON_10M, the second of the last pulse of each PPS output, the FRAC captured by the last read of NS, the tick of the last step, and
whether the keeper's value is void. -/
structure Tim where
  state  : TState
  valid  : Bool
  todOk  : Bool
  tod    : Option Nat
  adj    : Int
  slew   : Nat
  offset : Int
  streak : Nat
  heard  : Option Nat
  edge   : Option Nat
  inputs : Nat
  on10m  : Bool
  pulse0 : Nat
  pulse1 : Nat
  nowf   : Nat
  stepAt : Nat
  void   : Bool
  pcieAt : Tab Nat := []
deriving DecidableEq, Repr, Inhabited

/-- The power states (R673): P0 and P1 differ in CAP_W only. -/
inductive PState where
  | run | s1 | s3
deriving DecidableEq, Repr, Inhabited

/-- Power and heat (R670 to R692): the state, an S1 request in progress with its tick, the request that waits for its entry (0 none, 2 S3, 3 EXIT; R681), REQ_RESULT, CAP_LEVEL with the ticks since which it has been 7 above
the cap, THERM_LEVEL, the region sensors, the hottest stack and its number, POWER_W, the tick since which a sensor has been at its trip point and the tick of the
last trip, the supplies, the energy below one joule in µJ, and the words of PWR_CFG and PWR_LIM committed in S1, which apply from its exit (R681). -/
structure Pwr where
  state   : PState
  req     : Option Nat
  next    : Nat
  result  : Nat
  capLevel : Nat
  cap7    : Option Nat
  therm   : Nat
  die     : List Nat
  hbmMax  : Nat
  hbmHot  : Nat
  watts   : Nat
  hotSince : Option Nat
  tripped : Option Nat
  vin     : Bool
  vaux    : Bool
  microJ  : Nat
  lim     : Tab Stg := []
deriving DecidableEq, Repr, Inhabited

/-- Reset and start-up (R653 to R669): STAGE (15 is DONE), FAIL, LAST_SOURCE, RST_BLK's target while BUSY and its RESULT, the option-byte copies, A_OK, B_OK, USED,
OTHER_BAD, SAFE, SEQ, PERST_WARM, the watchdog's last value of its cell with the tick of its last feed, READY, the root halves whose BDL_PERSTO_N is high, and the channels'
highest rate NAND_MTS. -/
structure Rst where
  stage   : Nat
  fail    : Bool
  source  : Nat
  blk     : Option Nat
  result  : Nat
  optA    : List Byte
  optB    : List Byte
  aOk     : Bool
  bOk     : Bool
  useB    : Bool
  otherBad : Bool
  safe    : Bool
  seq     : Nat
  perstWarm : Nat
  wdtVal  : Word
  wdtFed  : Option Nat
  ready   : Bool
  persto  : List Nat
  nandMts : Nat
deriving DecidableEq, Repr, Inhabited

end Sys2Proof.Machine
end

