-- ==== Sys2Proof/Machine/State.lean ====
section
/-!
DEFINITION. The state of the block, and the state right after power-on reset.
-/
namespace Sys2Proof.Machine

/-- What the control plane holds: register shells, time, programs, keys, power and reset. Data-plane commands only read it. -/
structure Ctl where
  shell : Shell
  ticks : Nat
  ns    : Nat
  frac  : Nat
  progs : Tab Prog
  sec   : Sec
  tim   : Tim
  pwr   : Pwr
  rst   : Rst
  /-- Blocks fenced or in reset, as 64 × region + block index (63 for the whole region); chip-level blocks as 256 + index (R37, R40). -/
  down  : List Nat
  /-- Cells out of service, as 1024 × (64 × region + block) + cell (R40). -/
  cells : List Nat
deriving DecidableEq, Repr, Inhabited

/-- What the data plane holds. -/
structure Data where
  mem     : List Host.Cell
  poison  : List Nat
  /-- Marked words of Sail banks that no SCRUB has found yet (R283), by 32-byte word. -/
  rawUe   : List Nat
  /-- The model's own field, of which reset lists none (DESIGN CHOICE, log entry 188): the errors of HBM words and links that are still to show, by 32-byte word. -/
  flaws   : List (Nat × Flaw) := []
  fyl     : Fyl
  mbx     : Mbx
  bdl     : Bdl
  trf     : Trf
  bsk     : Bsk
  kvw     : Kvw
  adp     : Adp
  mat     : Mat
  spl     : Spl
  ttx     : Ttx
  fab     : Fab
  sal     : Sal
  mrg     : Mrg
  bls     : Bls
  bbx     : Bbx
  ras     : Ras
  /-- Tether links, by 4 × port + link, and the ports' optical engines. -/
  links   : Tab Link
  engs    : Tab OptEng
  /-- Watermark marks that are set, as 2 × partition + tier (R354). -/
  low     : List Nat
  /-- PROD and CONS of the event rings (R117): 0 to 15 Basket rings by partition, 16 the fabric ring, 17 the RAS ring. -/
  evts    : Tab (Nat × Nat)
  sts     : Tab Word
  cnt     : Tab Word
  halfCap : Tab Word
  out     : List Out
  free    : Nat
  /-- The tick of the present command, as `Ctl.ticks` has it, with which queue entries are stamped. -/
  tick    : Nat
  /-- The sets of the Basket cache slices (R97), by 256 × slice + set: the records held, the most recently used first, each with its dirty mark. -/
  slices  : Tab (List (Nat × Bool)) := []
deriving DecidableEq, Repr, Inhabited

/-- The machine: control plane, data plane and the queue of waiting commands. -/
structure State where
  k       : Ctl
  d       : Data
  pending : List Instr
deriving DecidableEq, Repr

/-- Faults. No command of the table ends in one: the block answers every command, and what the spec refuses is answered by a status, an error response or a
discarded access. -/
inductive Fault where
  /-- Raised by nothing; safe. -/
  | never
deriving DecidableEq, Repr

/-- Refusals. -/
inductive Refusal where
  /-- A command of the table that has no meaning yet, raised by `exec`; safe. -/
  | notModelled (mnemonic : String)
deriving DecidableEq, Repr

/-! ### The state right after power-on reset (R654), at the first step of start-up (R657) -/

/-- The blocks held in reset until start-up releases them (R657): every region, and within it the tiles, the Tether ports and the Bridle port. -/
def heldDown : List Nat := [0, 64, 128, 192].flatMap (fun b => [b + 63, b, b + 1, b + 2, b + 3, b + 12, b + 13, b + 14, b + 15, b + 16])

/-- Shells with no word written, nothing staged, and cleared selects: every word reads its reset value. -/
def Shell.reset : Shell := ⟨[], [], [], [], none, none, []⟩

/-- The security block of a device as manufactured (R591), with a verified firmware in slot A (DESIGN CHOICE, log entry 9). -/
def Sec.reset : Sec :=
  { blsKeys := [], prefixKeys := [], qpKeys := [], progKeys := [], owner := 0, installers := [], operators := [], sessions := [], begun := [], fails := 0,
    lockUntil := 0, fw := [(0, ⟨true, 0, 0, 0, [0#32]⟩)], fwSlot := 0, recovery := false, svnMin := 0, measures := [], bufs := [] }

/-- The time service at power-on: KTIME 0, FREERUN, VALID = 0 (R641), with the reference inputs of R637 present but TIM_10M_IN and TIM_PPS_IN (DESIGN
CHOICE, log entry 10). -/
def Tim.reset : Tim :=
  { state := .freerun, valid := false, todOk := false, tod := none, adj := 0, slew := 0, offset := 0, streak := 0, heard := none, edge := none,
    inputs := 0x27F, on10m := false, pulse0 := 0, pulse1 := 0, nowf := 0, stepAt := 0, void := false }

/-- The power state at power-on: both supplies present, every sensor and the power read as 0 until the first evaluation (DESIGN CHOICE, log entry 10). -/
def Pwr.reset : Pwr :=
  { state := .run, req := none, next := 0, result := 0, capLevel := 0, cap7 := none, therm := 0, die := [0, 0, 0, 0], hbmMax := 0, hbmHot := 0, watts := 0,
    hotSince := none, tripped := none, vin := true, vaux := true, microJ := 0 }

/-- Start-up at step 1 after a power-on reset (R657), with both option-byte copies unwritten (DESIGN CHOICE, log entry 9). -/
def Rst.reset : Rst :=
  { stage := 1, fail := false, source := 1, blk := none, result := 0, optA := [], optB := [], aOk := false, bOk := false, useB := false,
    otherBad := false, safe := false, seq := 0, perstWarm := 0, wdtVal := 0#64, wdtFed := none, ready := false, persto := [], nandMts := 0 }

/-- The control plane at power-on reset. -/
def Ctl.reset : Ctl :=
  { shell := Shell.reset, ticks := 0, ns := 0, frac := 0, progs := [], sec := Sec.reset, tim := Tim.reset, pwr := Pwr.reset, rst := Rst.reset,
    down := heldDown, cells := [] }

/-- The black box of a device whose first boot this is, with the record of the power-on reset not yet queued. -/
def Bbx.reset : Bbx :=
  { recs := [], queue := [], nextSeq := 0, dropped := false, head := 0, slot := 0, slot0 := false, filling := [], opened := false, boot := 0, seen := [] }

/-- The data plane at power-on reset: every Basket FREE, every QP FREE, every link OFF, every queue empty, memory with nothing listed; the power-on scan has
found every record of the unwritten black box invalid (R636). -/
def Data.reset : Data :=
  { mem := [], poison := [], rawUe := []
    fyl := ⟨[], [], [], [], [], []⟩
    mbx := ⟨[], [], [], []⟩
    bdl := ⟨[], [], [], [], [], [], []⟩
    trf := ⟨[], [], [], 0, [], 0, 0, []⟩
    bsk := ⟨[], [], [], []⟩
    kvw := ⟨[], [], [], [], [], [], 0, none, 0, 0, []⟩
    adp := ⟨[], [], [], [], []⟩
    mat := ⟨[], [], [], [], [], []⟩
    spl := { ctxs := [], sendq := [], flight := [], credit := [], granted := [], asked := [], waiting := [], pulls := [], serves := [], offers := [],
             offerServes := [], queries := [], nextId := 0, slots := [], promptSince := none }
    ttx := ⟨[], [], [], [], []⟩
    fab := { groups := [], holds := [], teardown := [], deadPend := [], seen := [], hbDone := [], warned := [], elects := [], heard := [], dones := [],
             repoints := [], nextTag := 0, mgmtA := false, mgmtB := false, resets := [], resetOps := [] }
    sal := ⟨[], [], 0, []⟩
    mrg := ⟨[], []⟩
    bls := ⟨[], [], false, 0⟩
    bbx := Bbx.reset
    ras := ⟨[], [], [], [], none, []⟩
    links := [], engs := [], low := [], evts := [], sts := [], cnt := [(0x0A80010, 65536#64)], halfCap := [], out := [], free := 0, tick := 0 }

/-- The machine right after power-on reset. -/
def State.reset : State := { k := Ctl.reset, d := Data.reset, pending := [] }

end Sys2Proof.Machine
end

