-- ==== Sys2Proof/Machine/Tab.lean ====
section
/-!
DEFINITION. The operations on sparse tables: look up, set, erase. Every table of the state is read and written through these,
so the small laws of Laws/Tab.lean hold of all of them. A table with a default value holds no entry equal to it.
-/
namespace Sys2Proof

/-- The entry of number `k`, if there is one. -/
def Tab.get? {α : Type} (t : Tab α) (k : Nat) : Option α :=
  match t with
  | [] => none
  | (j, v) :: r => if j = k then some v else Tab.get? r k

/-- The entry of number `k`, or the default. -/
def Tab.getD {α : Type} (t : Tab α) (k : Nat) (dflt : α) : α :=
  match Tab.get? t k with
  | some v => v
  | none => dflt

/-- Whether there is an entry of number `k`. -/
def Tab.has {α : Type} (t : Tab α) (k : Nat) : Bool :=
  (Tab.get? t k).isSome

/-- Sets the entry of number `k`, keeping the numbers in rising order. -/
def Tab.set {α : Type} (t : Tab α) (k : Nat) (v : α) : Tab α :=
  match t with
  | [] => [(k, v)]
  | (j, w) :: r =>
    if k < j then (k, v) :: (j, w) :: r
    else if k = j then (k, v) :: r
    else (j, w) :: Tab.set r k v

/-- Drops the entry of number `k`. -/
def Tab.erase {α : Type} (t : Tab α) (k : Nat) : Tab α :=
  match t with
  | [] => []
  | (j, w) :: r => if j = k then Tab.erase r k else (j, w) :: Tab.erase r k

/-- Sets the entry of number `k`; the default value is kept as no entry. -/
def Tab.put {α : Type} [DecidableEq α] (dflt : α) (t : Tab α) (k : Nat) (v : α) : Tab α :=
  if v = dflt then Tab.erase t k else Tab.set t k v

/-- Changes the entry of number `k` where there is one. -/
def Tab.alter {α : Type} (t : Tab α) (k : Nat) (f : α → α) : Tab α :=
  match t with
  | [] => []
  | (j, w) :: r => if j = k then (j, f w) :: r else (j, w) :: Tab.alter r k f

/-- Changes every entry. -/
def Tab.mapVals {α β : Type} (t : Tab α) (f : Nat → α → β) : Tab β :=
  List.map (fun e => (e.1, f e.1 e.2)) t

/-- The entries that a test holds of. -/
def Tab.keep {α : Type} (t : Tab α) (f : Nat → α → Bool) : Tab α :=
  List.filter (fun e => f e.1 e.2) t

/-- The lowest number in [lo, lo + n) with no entry. -/
def Tab.freeIn {α : Type} (t : Tab α) (lo : Nat) (n : Nat) : Option Nat :=
  match n with
  | 0 => none
  | m + 1 => if Tab.has t lo then Tab.freeIn t (lo + 1) m else some lo

end Sys2Proof
end

