-- ==== Sys2Proof/Machine/Operands.lean ====
section
/-!
DEFINITION. The registers of a Fyley thread as operands (R61, R561): scalars, descriptor registers and predicates, with the
hard-wired s0 and p0, and the immediates of R560.
-/
namespace Sys2Proof.Machine

/-- Scalar `n`; s0 reads zero. -/
def Thread.sReg (th : Thread) (n : Nat) : Word :=
  if n = 0 then 0#64 else Tab.getD th.s n 0#64

/-- Writes scalar `n`; a write to s0 is discarded. -/
def Thread.setS (th : Thread) (n : Nat) (v : Word) : Thread :=
  if n = 0 then th else { th with s := Tab.put 0#64 th.s n v }

/-- Descriptor register `n`. -/
def Thread.dReg (th : Thread) (n : Nat) : Desc :=
  Tab.getD th.d n 0#512

/-- Writes descriptor register `n`. -/
def Thread.setD (th : Thread) (n : Nat) (v : Desc) : Thread :=
  { th with d := Tab.put 0#512 th.d n v }

/-- Predicate `n`; p0 reads 1. -/
def Thread.pReg (th : Thread) (n : Nat) : Bool :=
  match n with
  | 0 => true
  | 1 => th.p1
  | 2 => th.p2
  | _ => th.p3

/-- Writes predicate `n`; a write to p0 is discarded. -/
def Thread.setP (th : Thread) (n : Nat) (b : Bool) : Thread :=
  match n with
  | 0 => th
  | 1 => { th with p1 := b }
  | 2 => { th with p2 := b }
  | _ => { th with p3 := b }

/-- The next instruction, `len` bytes on; every instruction takes one issue cycle (R562). -/
def Thread.next (th : Thread) (len : Nat) : Thread :=
  { th with pc := th.pc + len, issued := th.issued + 1 }

/-- A jump to byte offset `target` of the program. -/
def Thread.jump (th : Thread) (target : Nat) : Thread :=
  { th with pc := target, issued := th.issued + 1 }

/-- A register pair through RB: RB even and below 31 (R561). -/
def pairOk (rb : Nat) : Bool := rb % 2 == 0 && decide (rb < 31)

/-- IMM14 of `addi` and `cmpi`, sign-extended. -/
def immS (imm : BitVec 14) : Word := imm.signExtend 64
/-- IMM14 of the logical forms, zero-extended. -/
def immZ (imm : BitVec 14) : Word := imm.setWidth 64

/-- The status written to a destination scalar: STATUS in [7:0], the rest zero (R545, R582). -/
def statusWord (s : Status) : Word := BitVec.ofNat 64 s.code

/-- The DPA that `ld` and `st` address: sA + OFF, modulo 2^64 (R567). -/
def effAddr (a : Word) (off : BitVec 12) : Nat := (a + off.signExtend 64).toNat

/-- Bytes that SIZE selects (R567). -/
def sizeBytes (size : BitVec 2) : Nat := 2 ^ size.toNat

/-- The 128 bits of a completion word (R75). -/
def Cpl.bits (c : Cpl) : BitVec 128 :=
  BitVec.ofNat 128
    (c.status.code + c.engine % 256 * 2 ^ 8 + c.tag % 2 ^ 16 * 2 ^ 16 +
     (match c.bsk with | some b => b % 2 ^ 20 | none => 0xFFFFF) * 2 ^ 32 + c.part % 16 * 2 ^ 52 +
     (match c.bsk with | some _ => 0 | none => 1) * 2 ^ 56 + c.count % 2 ^ 32 * 2 ^ 64 + c.detail % 2 ^ 32 * 2 ^ 96)

/-- Writes a completion word into d(DD)[127:0], keeping the bits above (R579). -/
def Thread.setCpl (th : Thread) (dd : Nat) (c : Cpl) : Thread :=
  th.setD dd (setBits (th.dReg dd) 0 128 c.bits.toNat)

/-- The entries reserved in the completion ring: outstanding operations and held completions (R580). -/
def Thread.reserved (th : Thread) : Nat := th.ops.length + th.held.length

/-- A thread leaving its slot keeps s1 to s7, the predicates, and the registers its declaration names; the others read zero when it
resumes (R65, R572). -/
def Thread.dropDead (th : Thread) : Thread :=
  { th with
    s := Tab.keep th.s (fun n _ => decide (n < 8) || th.smask.getLsbD (n - 8))
    d := Tab.keep th.d (fun n _ => th.dmask.getLsbD n) }

end Sys2Proof.Machine
end

