-- ==== Sys2Proof/Machine/Flags.lean ====
section
/-!
DEFINITION. The conditions of the predicates and of the flag waits (R566, R547, R583). No instruction sets a flag (R564): the
predicates are the only condition state.
-/
namespace Sys2Proof.Machine

/-- sA COND sB (R566). -/
def condHolds (c : Cond) (a b : Word) : Bool :=
  match c with
  | .eq => a == b
  | .ne => a != b
  | .lt => BitVec.slt a b
  | .ltu => BitVec.ult a b
  | .ge => !BitVec.slt a b
  | .geu => !BitVec.ult a b

/-- GE of R547: (cell − operand), as a signed number, is at least 0. -/
def flagGe (cell operand : Word) : Bool := !(cell - operand).msb

/-- The condition of a flag wait by its code: EQ, NE, LT, GE (R583); LT holds exactly when GE does not. -/
def flagCond (cc : Nat) (cell operand : Word) : Bool :=
  match cc with
  | 0 => cell == operand
  | 1 => cell != operand
  | 2 => !flagGe cell operand
  | _ => flagGe cell operand

/-- Leading zero bits of a scalar, 0 to 64. -/
def clz64 (a : Word) : Nat :=
  if a = 0#64 then 64 else 63 - Nat.log2 a.toNat

/-- Trailing zero bits from bit `i` on, at most `n`. -/
def ctzFrom (a : Word) : Nat → Nat → Nat
  | 0, _ => 0
  | n + 1, i => if a.getLsbD i then 0 else 1 + ctzFrom a n (i + 1)

/-- Trailing zero bits of a scalar, 0 to 64. -/
def ctz64 (a : Word) : Nat := ctzFrom a 64 0

/-- One bits among the low `n`. -/
def popFrom (a : Word) : Nat → Nat
  | 0 => 0
  | n + 1 => (if a.getLsbD n then 1 else 0) + popFrom a n

/-- One bits of a scalar. -/
def popc64 (a : Word) : Nat := popFrom a 64

end Sys2Proof.Machine
end

