-- ==== Sys2Proof/Machine/Mem.lean ====
section
/-!
DEFINITION. The byte memory behind the DPA space (R346): a list of cells in one canonical form, addresses strictly rising and no
entry equal to what an unlisted address reads as. Poison marks of R617 lie beside it, one per 32-byte word.
-/
namespace Sys2Proof.Machine

/-- What a byte of memory that nothing has written reads as. DESIGN CHOICE (log entry 1): the spec gives no content at power-on. -/
def unwritten : Byte := 0#8

/-- The canonical form from address `lo` on: addresses rise strictly and no entry reads as an unlisted address does. -/
def memWfFrom (lo : Nat) : List Host.Cell → Bool
  | [] => true
  | (a, b) :: r => decide (lo ≤ a) && decide (b ≠ unwritten) && memWfFrom (a + 1) r

/-- The canonical form of memory. -/
def memWf (m : List Host.Cell) : Bool := memWfFrom 0 m

/-- The byte at an address. -/
def memByte (m : List Host.Cell) (a : Nat) : Byte := Tab.getD m a unwritten

/-- Writes one byte. -/
def memPut (m : List Host.Cell) (a : Nat) (b : Byte) : List Host.Cell := Tab.put unwritten m a b

/-- `n` bytes from an address. -/
def memBytes (m : List Host.Cell) (a : Nat) : Nat → List Byte
  | 0 => []
  | n + 1 => memByte m a :: memBytes m (a + 1) n

/-- Writes bytes from an address on. -/
def memPutBytes (m : List Host.Cell) (a : Nat) : List Byte → List Host.Cell
  | [] => m
  | b :: r => memPutBytes (memPut m a b) (a + 1) r

/-- The little-endian value of `n` bytes (R6). -/
def memVal (m : List Host.Cell) (a n : Nat) : Nat := ofBytesLE (memBytes m a n)

/-- Writes the `n` low bytes of a value, little-endian (R6). -/
def memPutVal (m : List Host.Cell) (a n v : Nat) : List Host.Cell := memPutBytes m a (bytesLE n v)

/-- Zeroes a range. -/
def memClear (m : List Host.Cell) (a n : Nat) : List Host.Cell :=
  List.filter (fun c => !(decide (a ≤ c.1) && decide (c.1 < a + n))) m

/-- Copies `n` bytes. -/
def memCopy (m : List Host.Cell) (src dst n : Nat) : List Host.Cell := memPutBytes m dst (memBytes m src n)

/-- Whether a 32-byte word in the range is marked poisoned (R516, R617). -/
def poisoned (p : List Nat) (a n : Nat) : Bool :=
  p.any (fun w => overlaps (32 * w) 32 a n)

/-- Marks the 32-byte words of a range. -/
def markPoison (p : List Nat) (a n : Nat) : List Nat :=
  if n = 0 then p
  else (List.range ((a + n - 1) / 32 - a / 32 + 1)).foldl (fun q i => if q.contains (a / 32 + i) then q else (a / 32 + i) :: q) p

/-- Clears the marks of the 32-byte words that a range covers whole. -/
def unmarkPoison (p : List Nat) (a n : Nat) : List Nat :=
  p.filter (fun w => !inside (32 * w) 32 a n)

end Sys2Proof.Machine
end

