-- ==== Sys2Proof/Machine/Regs.lean ====
section
/-!
DEFINITION. The register layout of the 64 MiB control space (R693 to R708 and the register tables of every chapter): which
8-byte words exist, and the access type, place and power-on reset value of every field in them (R9, R11). A field whose Reset
column reads OB or HW has reset value 0 here; the loader, or the state that a read mirrors, gives it its value.
-/
namespace Sys2Proof

/-- The access types of R9. -/
inductive Acc where
  | rw | ro | wo | w1c | rc | rws | rwc
deriving DecidableEq, Repr

/-- One register field: its lowest bit and width within its 8-byte word, its access type and its reset value. -/
structure Fld where
  lo  : Nat
  w   : Nat
  acc : Acc
  rst : Nat
deriving DecidableEq, Repr

/-- A run of `n` words of one layout from a slot offset. -/
structure RegRow where
  off : Nat
  n   : Nat
  fs  : List Fld
deriving DecidableEq, Repr

/-- The fields of the word at offset `o` of a list of rows. -/
def rowsAt (o : Nat) : List RegRow → Option (List Fld)
  | [] => none
  | r :: rest => if decide (r.off ≤ o) && decide (o < r.off + 8 * r.n) then some r.fs else rowsAt o rest

/-- The chip registers of window 0x00 (R697). -/
def glbChip : List RegRow :=
  [
   -- GLB_ROLE (R16)
   .mk 0x40 1 [.mk 0 3 .rwc 0, .mk 3 1 .rws 0],
   -- GLB_STS (R704)
   .mk 0x80 1 [.mk 0 1 .w1c 0, .mk 1 1 .w1c 0, .mk 2 1 .w1c 0],
   -- GLB_ID (R702)
   .mk 0xc0 1 [.mk 0 16 .ro 0xDA1B, .mk 16 16 .ro 0x0C12, .mk 32 8 .ro 0x10, .mk 40 8 .ro 0x01],
   -- GLB_SERIAL (R703)
   .mk 0x100 2 [.mk 0 64 .ro 0],
   -- GLB_SUM (R706)
   .mk 0x140 1 [.mk 0 64 .ro 0],
   -- GLB_TRAP (R705)
   .mk 0x180 1 [.mk 0 26 .ro 0, .mk 26 1 .ro 0, .mk 27 4 .ro 0, .mk 31 1 .ro 0, .mk 32 26 .ro 0, .mk 59 4 .ro 0, .mk 63 1 .ro 0],
   -- GLB_SCRATCH (R707)
   .mk 0x1c0 1 [.mk 0 64 .rws 0]]

/-- The chip registers of window 0x01 (R697). -/
def rstChip : List RegRow :=
  [
   -- RST_CTL (R665)
   .mk 0x40 1 [.mk 0 1 .wo 0, .mk 1 1 .wo 0, .mk 8 8 .wo 0],
   -- RST_STS (R666)
   .mk 0x80 1 [.mk 0 4 .ro 0, .mk 4 1 .ro 0, .mk 5 1 .rws 0, .mk 8 8 .ro 0, .mk 16 8 .ro 0],
   -- RST_BLK (R667)
   .mk 0xc0 1 [.mk 0 32 .rw 0, .mk 32 1 .wo 0, .mk 33 1 .ro 0, .mk 40 8 .ro 0],
   -- RST_WDT (R668)
   .mk 0x100 1 [.mk 0 1 .rwc 0, .mk 16 16 .rwc 0, .mk 32 16 .rwc 0]]

/-- The chip registers of window 0x02 (R697). -/
def pwrChip : List RegRow :=
  [
   -- PWR_CFG (R689)
   .mk 0x40 1 [.mk 0 11 .rwc 0],
   -- PWR_LIM (R689)
   .mk 0x80 1 [.mk 0 11 .rwc 0, .mk 16 8 .rwc 0, .mk 24 8 .rwc 0, .mk 32 1 .rwc 0, .mk 33 1 .rwc 0],
   -- PWR_CTL (R690)
   .mk 0xc0 1 [.mk 0 2 .wo 0, .mk 8 8 .wo 0],
   -- PWR_STS (R691)
   .mk 0x100 1 [.mk 0 2 .ro 0, .mk 2 1 .ro 0, .mk 3 1 .w1c 0, .mk 4 1 .ro 0, .mk 5 3 .ro 0, .mk 8 8 .ro 0, .mk 16 4 .ro 0, .mk 32 16 .ro 0],
   -- PWR_TEMP (R691)
   .mk 0x140 1 [.mk 0 32 .ro 0, .mk 32 8 .ro 0, .mk 40 4 .ro 0]]

/-- The chip registers of window 0x03 (R697). -/
def clkChip : List RegRow :=
  [
   -- CLK_STS (R648)
   .mk 0x40 1 [.mk 0 1 .ro 0, .mk 1 2 .ro 0, .mk 3 4 .ro 0, .mk 7 1 .ro 0, .mk 8 1 .ro 0, .mk 9 1 .ro 0, .mk 10 1 .ro 0, .mk 11 1 .w1c 0]]

/-- The chip registers of window 0x04 (R697). -/
def timChip : List RegRow :=
  [
   -- TIM_CFG word 0 (R649)
   .mk 0x40 1 [.mk 0 2 .rwc 0, .mk 2 1 .rwc 0, .mk 3 1 .rwc 1, .mk 4 2 .rwc 2, .mk 8 8 .rwc 0, .mk 16 16 .rwc 0x64, .mk 32 16 .rwc 0x3E8, .mk 48 10 .rwc 0x1F4],
   -- TIM_CFG word 1 (R649)
   .mk 0x48 1 [.mk 0 64 .rwc 0],
   -- TIM_CFG word 2 (R649)
   .mk 0x50 1 [.mk 0 48 .rwc 0],
   -- TIM_PPSO0 (R650)
   .mk 0x80 1 [.mk 0 1 .rwc 0, .mk 1 1 .rwc 1, .mk 2 30 .rwc 0, .mk 32 16 .rwc 0x64],
   -- TIM_PPSO1 (R650)
   .mk 0xc0 1 [.mk 0 1 .rwc 0, .mk 1 1 .rwc 1, .mk 2 30 .rwc 0, .mk 32 16 .rwc 0x64],
   -- TIM_NOW (R651)
   .mk 0x100 1 [.mk 0 64 .ro 0],
   -- TIM_NOWF (R651)
   .mk 0x140 1 [.mk 0 16 .ro 0],
   -- TIM_STS (R651)
   .mk 0x180 1 [.mk 0 2 .ro 0, .mk 2 1 .ro 0, .mk 3 1 .ro 0, .mk 4 1 .w1c 0, .mk 5 1 .w1c 0, .mk 6 1 .w1c 0, .mk 7 1 .ro 0, .mk 32 32 .ro 0]]

/-- The chip registers of window 0x05 (R697). -/
def optChip : List RegRow :=
  [
   -- OPT_STS (R669)
   .mk 0x40 1 [.mk 0 1 .ro 0, .mk 1 1 .ro 0, .mk 2 1 .ro 0, .mk 3 1 .ro 0, .mk 4 1 .ro 0, .mk 32 32 .ro 0]]

/-- The chip registers of window 0x06 (R697). -/
def mbxChip : List RegRow :=
  [
   -- MBX_CHSEL (R556)
   .mk 0x40 1 [.mk 0 6 .rw 0],
   -- MBX_CHCFG (R556)
   .mk 0x80 1 [.mk 0 1 .rwc 0, .mk 1 4 .rwc 0, .mk 5 2 .rwc 0, .mk 7 1 .rwc 0, .mk 8 1 .rwc 0],
   -- MBX_LSEL (R557)
   .mk 0xc0 1 [.mk 0 4 .rw 0, .mk 4 4 .rw 0, .mk 8 1 .rw 0],
   -- MBX_LDEF0 (R557)
   .mk 0x100 1 [.mk 0 1 .rwc 0, .mk 1 1 .rwc 0, .mk 6 42 .rwc 0],
   -- MBX_LDEF1 (R557)
   .mk 0x108 1 [.mk 4 44 .rwc 0, .mk 48 16 .rwc 0xFFFF],
   -- MBX_LDEF2 (R557)
   .mk 0x110 1 [.mk 0 17 .rwc 0, .mk 32 16 .rwc 0, .mk 48 1 .rwc 0],
   -- MBX_STS (R559)
   .mk 0x140 1 [.mk 0 1 .w1c 0, .mk 1 1 .w1c 0, .mk 2 1 .w1c 0, .mk 3 1 .w1c 0, .mk 4 1 .w1c 0]]

/-- The chip registers of window 0x07 (R697). -/
def prtChip : List RegRow :=
  [
   -- PRT_SEL (R599)
   .mk 0x40 1 [.mk 0 4 .rw 0],
   -- PRT_DEF0 (R599)
   .mk 0x80 1 [.mk 0 1 .rwc 0, .mk 1 20 .rwc 0, .mk 21 21 .rwc 0, .mk 42 14 .rwc 0],
   -- PRT_DEF1 (R599)
   .mk 0x88 1 [.mk 0 15 .rwc 0, .mk 16 16 .rwc 0, .mk 32 17 .rwc 0],
   -- PRT_DEF2 (R599)
   .mk 0x90 1 [.mk 0 12 .rwc 0, .mk 12 12 .rwc 0, .mk 24 8 .rwc 0, .mk 32 8 .rwc 0, .mk 40 9 .rwc 0],
   -- PRT_DEF3 (R599)
   .mk 0x98 1 [.mk 0 8 .rwc 0],
   -- PRT_STS (R611)
   .mk 0xc0 1 [.mk 0 1 .ro 0, .mk 1 1 .ro 0, .mk 2 1 .ro 0, .mk 3 1 .ro 0, .mk 4 1 .ro 0, .mk 5 1 .ro 0, .mk 6 1 .w1c 0, .mk 16 16 .ro 0]]

/-- The chip registers of window 0x08 (R697). -/
def secChip : List RegRow :=
  [
   -- SEC_CFG (R612)
   .mk 0x40 1 [.mk 0 16 .rwc 0x3C, .mk 16 1 .rwc 0],
   -- SEC_STS (R612)
   .mk 0x80 1 [.mk 0 2 .ro 0, .mk 2 1 .ro 0, .mk 3 1 .ro 0, .mk 4 1 .ro 0, .mk 8 8 .ro 0, .mk 16 8 .ro 0]]

/-- The chip registers of window 0x09 (R697). -/
def rasChip : List RegRow :=
  [
   -- RAS_CFG (R633)
   .mk 0x40 1 [.mk 0 8 .rwc 0x18, .mk 8 16 .rwc 0xFFFF, .mk 24 16 .rwc 0x3E8],
   -- RAS_STS (R634)
   .mk 0x80 1 [.mk 0 16 .ro 0, .mk 16 4 .ro 0, .mk 20 1 .ro 0, .mk 21 1 .ro 0, .mk 22 1 .w1c 0, .mk 23 1 .w1c 0, .mk 24 1 .w1c 0, .mk 25 1 .w1c 0],
   -- RAS_INJECT word 0 (R708)
   .mk 0xc0 1 [.mk 0 32 .rw 0, .mk 32 16 .rw 0, .mk 48 1 .wo 0, .mk 49 1 .ro 0],
   -- RAS_INJECT word 1 (R708)
   .mk 0xc8 1 [.mk 0 48 .rw 0]]

/-- The chip registers of window 0x0a (R697). -/
def bbxChip : List RegRow :=
  [
   -- BBX_STS (R636)
   .mk 0x40 1 [.mk 0 48 .ro 0, .mk 48 6 .ro 0, .mk 54 1 .ro 0, .mk 55 1 .ro 0]]

/-- The chip registers of window 0x10 (R697). -/
def fylChip : List RegRow :=
  [
   -- FYL_CFG (R83)
   .mk 0x40 1 [.mk 0 16 .rwc 0x40, .mk 16 2 .rwc 0],
   -- FYL_STS (R85)
   .mk 0x80 1 [.mk 0 1 .w1c 0, .mk 1 1 .w1c 0, .mk 2 1 .w1c 0, .mk 3 1 .ro 0, .mk 16 16 .ro 0]]

/-- The chip registers of window 0x11 (R697). -/
def bskChip : List RegRow :=
  [
   -- BSK_CFG (R116)
   .mk 0x40 1 [.mk 0 16 .rwc 0xC8, .mk 16 4 .rwc 0x3, .mk 32 16 .rwc 0x1F4, .mk 48 16 .rwc 0x7D0],
   -- BSK_STS (R118)
   .mk 0x80 1 [.mk 0 1 .w1c 0, .mk 1 1 .w1c 0, .mk 2 1 .w1c 0, .mk 3 1 .ro 0, .mk 16 16 .ro 0],
   -- BSK_ADPCFG (R342)
   .mk 0xc0 1 [.mk 0 6 .rwc 0x20],
   -- BSK_ADPSTS (R344)
   .mk 0x100 1 [.mk 0 1 .w1c 0, .mk 1 1 .w1c 0, .mk 2 1 .w1c 0, .mk 16 16 .ro 0]]

/-- The chip registers of window 0x12 (R697). -/
def kvwChip : List RegRow :=
  [
   -- KVW_CFG (R149)
   .mk 0x40 1 [.mk 0 16 .rwc 0x0A],
   -- KVW_STS (R150)
   .mk 0x80 1 [.mk 0 1 .w1c 0, .mk 1 1 .w1c 0, .mk 2 1 .w1c 0, .mk 3 1 .w1c 0, .mk 4 1 .w1c 0],
   -- KVW_MSEL (R123)
   .mk 0xc0 1 [.mk 0 12 .rw 0],
   -- KVW_MDEF0 (R124)
   .mk 0x100 1 [.mk 0 1 .rwc 0, .mk 1 2 .rwc 0, .mk 3 3 .rwc 0, .mk 6 5 .rwc 0, .mk 11 2 .rwc 0, .mk 13 9 .rwc 0, .mk 22 8 .rwc 0, .mk 30 8 .rwc 0, .mk 38 20 .rwc 0],
   -- KVW_MDEF1 (R125)
   .mk 0x108 1 [.mk 0 1 .rwc 0, .mk 10 38 .rwc 0],
   -- KVW_MDEF2 (R125)
   .mk 0x110 1 [.mk 0 32 .rwc 0, .mk 32 4 .rwc 0],
   -- KVW_MDEF3 (R125)
   .mk 0x118 1 [.mk 6 42 .rwc 0]]

/-- The chip registers of window 0x13 (R697). -/
def splChip : List RegRow :=
  [
   -- SPL_CFG (R252)
   .mk 0x40 1 [.mk 0 14 .rwc 0xC00, .mk 16 5 .rwc 0x10, .mk 24 4 .rwc 4],
   -- SPL_STS (R254)
   .mk 0x80 1 [.mk 0 1 .w1c 0, .mk 1 1 .w1c 0, .mk 2 1 .w1c 0, .mk 3 1 .w1c 0, .mk 4 1 .w1c 0]]

/-- The chip registers of window 0x15 (R697). -/
def mrgChip : List RegRow :=
  [
   -- MRG_CFG (R318)
   .mk 0x40 1 [.mk 0 16 .rwc 0x64],
   -- MRG_STS (R319)
   .mk 0x80 1 [.mk 0 1 .w1c 0, .mk 1 1 .w1c 0, .mk 2 1 .w1c 0, .mk 3 1 .w1c 0, .mk 4 1 .w1c 0, .mk 16 16 .ro 0]]

/-- The chip registers of window 0x16 (R697). -/
def envChip : List RegRow :=
  [
   -- ENV_TSEL (R181)
   .mk 0x40 1 [.mk 0 4 .rw 0, .mk 4 4 .rw 0],
   -- ENV_TCFG (R182)
   .mk 0x80 1 [.mk 0 1 .rwc 0, .mk 1 3 .rwc 0],
   -- ENV_STS (R183)
   .mk 0xc0 1 [.mk 0 1 .w1c 0, .mk 1 1 .w1c 0, .mk 2 1 .w1c 0, .mk 3 1 .w1c 0],
   -- ENV_TLEN0-31: eight 4-bit lengths each (R182)
   .mk 0x100 32 [.mk 0 4 .rwc 0, .mk 4 4 .rwc 0, .mk 8 4 .rwc 0, .mk 12 4 .rwc 0, .mk 16 4 .rwc 0, .mk 20 4 .rwc 0, .mk 24 4 .rwc 0, .mk 28 4 .rwc 0]]

/-- The chip registers of window 0x17 (R697). -/
def matChip : List RegRow :=
  [
   -- MAT_CFG (R212)
   .mk 0x40 1 [.mk 0 16 .rwc 0x64],
   -- MAT_STS (R214)
   .mk 0x80 1 [.mk 0 1 .w1c 0, .mk 1 1 .ro 0, .mk 2 1 .w1c 0],
   -- MAT_LOST (R214)
   .mk 0xc0 1 [.mk 0 32 .w1c 0],
   -- MAT_BANKCFG0-31 (R211)
   .mk 0x100 32 [.mk 0 2 .rwc 0, .mk 2 2 .rwc 0, .mk 4 4 .rwc 6, .mk 8 4 .rwc 0, .mk 12 1 .rwc 0, .mk 13 4 .rwc 0]]

/-- The chip registers of window 0x18 (R697). -/
def tieChip : List RegRow :=
  [
   -- TIE_SYS (R365)
   .mk 0x40 1 [.mk 0 7 .ro 0],
   -- TIE_STS (R368)
   .mk 0x80 1 [.mk 0 1 .ro 0, .mk 1 1 .ro 0, .mk 2 1 .w1c 0, .mk 16 16 .ro 0],
   -- TIE_LSEL (R367)
   .mk 0xc0 1 [.mk 0 6 .rw 0],
   -- TIE_LDEF0 (R367)
   .mk 0x100 1 [.mk 0 1 .rwc 0, .mk 1 2 .rwc 0, .mk 3 4 .rwc 0, .mk 12 36 .rwc 0],
   -- TIE_LDEF1 (R367)
   .mk 0x108 1 [.mk 0 36 .rwc 0]]

/-- The chip registers of window 0x19 (R697). -/
def blsChip : List RegRow :=
  [
   -- BLS_CFG (R392)
   .mk 0x40 1 [.mk 0 8 .rwc 0, .mk 8 12 .rwc 0x100],
   -- BLS_STS (R394)
   .mk 0x80 1 [.mk 0 3 .ro 0, .mk 3 1 .w1c 0, .mk 4 1 .w1c 0, .mk 5 1 .w1c 0, .mk 6 8 .ro 0, .mk 14 1 .ro 0, .mk 16 16 .ro 0],
   -- BLS_GEOM (R396)
   .mk 0xc0 1 [.mk 0 3 .ro 0, .mk 3 3 .ro 0, .mk 6 12 .ro 0, .mk 18 14 .ro 0, .mk 32 16 .ro 0],
   -- BLS_TIME (R396)
   .mk 0x100 1 [.mk 0 16 .ro 0, .mk 16 16 .ro 0, .mk 32 16 .ro 0],
   -- BLS_CHSTS0-7 (R395)
   .mk 0x140 8 [.mk 0 2 .ro 0, .mk 2 12 .ro 0, .mk 14 6 .ro 0, .mk 20 1 .ro 0]]

/-- The chip registers of window 0x1b (R697). -/
def ttxChip : List RegRow :=
  [
   -- TTX_ADDR word 0 (R448)
   .mk 0x40 1 [.mk 0 16 .rwc 0, .mk 16 1 .rwc 0, .mk 17 1 .rwc 0, .mk 18 1 .rwc 0],
   -- TTX_ADDR word 1
   .mk 0x48 1 [.mk 0 32 .rwc 0],
   -- TTX_ADDR words 2, 3: IPV6
   .mk 0x50 2 [.mk 0 64 .rwc 0],
   -- TTX_CFG word 0 (R449)
   .mk 0x80 1 [.mk 0 16 .rwc 0x4B32, .mk 16 8 .rwc 0x32, .mk 24 4 .rwc 7, .mk 32 12 .rwc 0x400, .mk 48 8 .rwc 8, .mk 56 6 .rwc 0],
   -- TTX_CFG word 1 (R449)
   .mk 0x88 1 [.mk 0 16 .rwc 0x50, .mk 16 4 .rwc 8, .mk 20 12 .rwc 0x10, .mk 32 12 .rwc 1, .mk 44 12 .rwc 0x3E8],
   -- TTX_QSEL (R450)
   .mk 0xc0 1 [.mk 0 14 .rw 0],
   -- TTX_QSTS (R450)
   .mk 0x100 1 [.mk 0 3 .ro 0, .mk 3 8 .ro 0, .mk 11 8 .ro 0, .mk 19 4 .ro 0, .mk 32 16 .ro 0, .mk 48 16 .ro 0],
   -- TTX_STS (R451)
   .mk 0x140 1 [.mk 0 1 .w1c 0, .mk 1 1 .w1c 0, .mk 2 1 .w1c 0, .mk 3 1 .w1c 0, .mk 16 16 .ro 0]]

/-- The chip registers of window 0x1c (R697). -/
def fabChip : List RegRow :=
  [
   -- FAB_CFG (R478)
   .mk 0x40 1 [.mk 0 1 .rwc 0, .mk 1 3 .rwc 0, .mk 4 4 .rwc 3, .mk 8 4 .rwc 2, .mk 12 12 .rwc 0x12, .mk 24 8 .rwc 0x0A, .mk 32 8 .rwc 5],
   -- FAB_WTAB word 0 (R479)
   .mk 0x80 1 [.mk 6 42 .rwc 0, .mk 48 7 .rwc 0],
   -- FAB_WTAB word 1: SBASE
   .mk 0x88 1 [.mk 8 40 .rwc 0],
   -- FAB_GSEL (R481)
   .mk 0xc0 1 [.mk 0 4 .rw 0],
   -- FAB_GDEF word 0 (R481)
   .mk 0x100 1 [.mk 0 1 .rwc 0, .mk 1 4 .rwc 0, .mk 5 13 .rwc 0, .mk 18 14 .rwc 0, .mk 32 2 .ro 0],
   -- FAB_GDEF word 1: NTAB
   .mk 0x108 1 [.mk 6 42 .rwc 0],
   -- FAB_DECLARE (R480)
   .mk 0x180 1 [.mk 0 16 .wo 0],
   -- FAB_STS (R482)
   .mk 0x1c0 1 [.mk 0 1 .ro 0, .mk 1 1 .ro 0, .mk 2 1 .ro 0, .mk 3 1 .w1c 0, .mk 4 1 .ro 0, .mk 16 16 .ro 0]]

/-- The chip registers of window 0x1d (R697). -/
def trfChip : List RegRow :=
  [
   -- TRF_CFG (R502)
   .mk 0x40 1 [.mk 0 8 .rwc 0x20, .mk 8 8 .rwc 0x10, .mk 16 8 .rwc 0x10, .mk 24 8 .rwc 8, .mk 32 8 .rwc 8, .mk 40 8 .rwc 4, .mk 48 8 .rwc 1],
   -- TRF_STS (R505)
   .mk 0x80 1 [.mk 0 1 .ro 0, .mk 1 1 .w1c 0, .mk 2 1 .w1c 0, .mk 3 1 .w1c 0, .mk 4 1 .w1c 0, .mk 16 16 .ro 0]]

/-- The chip registers of window 0x1e (R697). -/
def wskChip : List RegRow :=
  [
   -- WSK_CFG (R507)
   .mk 0x40 1 [.mk 0 10 .rwc 0x3E8, .mk 10 2 .rwc 1, .mk 12 1 .rwc 0],
   -- WSK_DUMP (R508)
   .mk 0x80 1 [.mk 6 42 .rw 0, .mk 48 1 .wo 0, .mk 49 1 .ro 0],
   -- WSK_STS (R509)
   .mk 0xc0 1 [.mk 0 1 .w1c 0, .mk 1 1 .w1c 0, .mk 16 16 .ro 0]]

/-- The registers of one instance region of window 0x14 (R697). -/
def salInst : List RegRow :=
  [
   -- SAL_CFG (R289)
   .mk 0x40 1 [.mk 0 11 .rwc 0x76C, .mk 16 9 .rwc 0x40],
   -- SAL_STS (R290)
   .mk 0x80 1 [.mk 0 1 .w1c 0, .mk 1 1 .w1c 0, .mk 2 1 .w1c 0, .mk 3 1 .ro 0, .mk 4 1 .w1c 0, .mk 16 16 .ro 0],
   -- SAL_LOST0-15 (R291)
   .mk 0x100 16 [.mk 0 32 .ro 0]]

/-- The registers of one instance region of window 0x1a (R697). -/
def ttpInst : List RegRow :=
  [
   -- TTP_CFG (R410)
   .mk 0x40 1 [.mk 0 4 .rwc 0, .mk 4 2 .rwc 0, .mk 6 2 .rwc 0, .mk 8 14 .rwc 0x2400, .mk 24 8 .rwc 0x0A, .mk 32 8 .rwc 0x0A, .mk 40 8 .rwc 1, .mk 48 8 .rwc 0x96],
   -- TTP_LCFG0-3 (R411)
   .mk 0x80 4 [.mk 0 48 .rwc 0],
   -- TTP_STS (R412)
   .mk 0xc0 1 [.mk 0 2 .ro 0, .mk 2 1 .w1c 0, .mk 3 1 .ro 0, .mk 4 1 .w1c 0, .mk 8 8 .ro 0, .mk 16 8 .ro 0, .mk 24 8 .ro 0],
   -- TTP_LSTS0-3 (R413)
   .mk 0x100 4 [.mk 0 3 .ro 0, .mk 3 1 .w1c 0, .mk 4 1 .w1c 0, .mk 5 1 .ro 0, .mk 16 16 .ro 0]]

/-- The registers of one instance region of window 0x1f (R697). -/
def bdlInst : List RegRow :=
  [
   -- BDL_PCFG (R527)
   .mk 0x40 1 [.mk 0 1 .ro 0, .mk 1 2 .ro 0, .mk 3 1 .ro 0, .mk 4 2 .ro 0, .mk 6 1 .ro 0, .mk 7 3 .ro 0, .mk 10 1 .ro 0],
   -- BDL_CFG (R528)
   .mk 0x80 1 [.mk 0 16 .rwc 0x64],
   -- BDL_INAP0-1 (R528)
   .mk 0xc0 2 [.mk 36 28 .rwc 0],
   -- BDL_CXLMAP0-1 (R531)
   .mk 0x100 2 [.mk 0 6 .rwc 0, .mk 6 1 .rwc 0, .mk 8 6 .rwc 0, .mk 14 1 .rwc 0, .mk 16 6 .rwc 0, .mk 22 1 .rwc 0, .mk 24 6 .rwc 0, .mk 30 1 .rwc 0, .mk 32 6 .rwc 0, .mk 38 1 .rwc 0, .mk 40 6 .rwc 0, .mk 46 1 .rwc 0, .mk 48 6 .rwc 0, .mk 54 1 .rwc 0, .mk 56 6 .rwc 0, .mk 62 1 .rwc 0],
   -- BDL_CFGA (R532)
   .mk 0x140 1 [.mk 0 12 .rw 0, .mk 12 16 .rw 0, .mk 28 1 .rw 0, .mk 29 1 .rw 0, .mk 30 1 .wo 0, .mk 31 1 .ro 0, .mk 32 3 .ro 0],
   -- BDL_CFGD (R532)
   .mk 0x148 1 [.mk 0 32 .rw 0],
   -- BDL_STS (R533)
   .mk 0x180 1 [.mk 0 2 .ro 0, .mk 2 2 .w1c 0, .mk 4 1 .w1c 0, .mk 5 1 .w1c 0, .mk 6 1 .w1c 0, .mk 7 1 .w1c 0, .mk 8 3 .ro 0, .mk 11 5 .ro 0, .mk 16 3 .ro 0, .mk 19 5 .ro 0]]

/-- The window registers that instance 0 of BDL also holds (R529, R697). -/
def bdlInst0 : List RegRow :=
  [
   -- BDL_WSEL (R529)
   .mk 0x1c0 1 [.mk 0 10 .rw 0],
   -- BDL_WDEF0 (R529)
   .mk 0x200 1 [.mk 0 1 .rwc 0, .mk 1 1 .rwc 0, .mk 2 1 .rwc 0, .mk 3 1 .rwc 0, .mk 4 2 .rwc 0, .mk 6 1 .rwc 0, .mk 7 1 .rwc 0, .mk 8 4 .rwc 0, .mk 12 12 .rwc 0, .mk 24 20 .rwc 0, .mk 44 16 .rwc 0],
   -- BDL_WDEF1
   .mk 0x208 1 [.mk 0 64 .rwc 0],
   -- BDL_WDEF2
   .mk 0x210 1 [.mk 10 26 .rwc 0],
   -- BDL_WDEF3
   .mk 0x218 1 [.mk 0 64 .rwc 0]]

/-- The registers of one partition region of window 0x06 (R697). -/
def mbxPart : List RegRow :=
  [
   -- MBX_FRANGE (R558)
   .mk 0x40 1 [.mk 0 16 .rwc 0, .mk 16 17 .rwc 0],
   -- MBX_PDB (R558)
   .mk 0x80 1 [.mk 0 16 .rwc 0xFFFF, .mk 16 16 .rwc 0xFFFF]]

/-- The registers of one partition region of window 0x09 (R697). -/
def rasPart : List RegRow :=
  [
   -- RAS_EVT word 0 (R634)
   .mk 0x40 1 [.mk 6 42 .rwc 0, .mk 48 16 .rwc 0],
   -- RAS_EVT word 1
   .mk 0x48 1 [.mk 0 32 .ro 0, .mk 32 32 .rw 0],
   -- RAS_DB (R634)
   .mk 0x80 1 [.mk 0 16 .rwc 0xFFFF]]

/-- The registers of one partition region of window 0x11 (R697). -/
def bskPart : List RegRow :=
  [
   -- BSK_EVT word 0 (R117)
   .mk 0x40 1 [.mk 6 42 .rwc 0, .mk 48 16 .rwc 0],
   -- BSK_EVT word 1
   .mk 0x48 1 [.mk 0 32 .ro 0, .mk 32 32 .rw 0],
   -- BSK_ADPTAB word 0 (R343)
   .mk 0x80 1 [.mk 12 36 .rwc 0],
   -- BSK_ADPTAB word 1: REC_BASE
   .mk 0x88 1 [.mk 6 42 .rwc 0],
   -- BSK_ADPTAB word 2: RECORDS, USED
   .mk 0x90 1 [.mk 0 17 .rwc 0, .mk 32 17 .ro 0]]

/-- The registers of one partition region of window 0x12 (R697). -/
def kvwPart : List RegRow :=
  [
   -- KVW_PTPOOL word 0 (R130)
   .mk 0x40 1 [.mk 12 36 .rwc 0],
   -- KVW_PTPOOL word 1: UNITS, USED
   .mk 0x48 1 [.mk 0 32 .rwc 0, .mk 32 32 .ro 0]]

/-- The registers of one partition region of window 0x13 (R697). -/
def splPart : List RegRow :=
  [
   -- SPL_RECPOOL word 0 (R253)
   .mk 0x40 1 [.mk 6 42 .rwc 0],
   -- SPL_RECPOOL word 1: SLOT, COUNT
   .mk 0x48 1 [.mk 0 6 .rwc 0, .mk 32 32 .rwc 0]]

/-- The registers of one partition region of window 0x17 (R697). -/
def matPart : List RegRow :=
  [
   -- MAT_PQUOTA (R213)
   .mk 0x40 1 [.mk 0 19 .rwc 0, .mk 32 19 .ro 0]]

/-- The registers of one partition region of window 0x18 (R697). -/
def tiePart : List RegRow :=
  [
   -- TIE_WM word 0 (R366)
   .mk 0x40 1 [.mk 0 20 .rwc 0, .mk 20 20 .rwc 0],
   -- TIE_WM word 1
   .mk 0x48 1 [.mk 0 20 .rwc 0, .mk 20 20 .rwc 0, .mk 48 16 .rwc 0xFFFF]]

/-- The registers of one partition region of window 0x19 (R697). -/
def blsPart : List RegRow :=
  [
   -- BLS_PRANGE (R393)
   .mk 0x40 1 [.mk 0 14 .rwc 0, .mk 16 15 .rwc 0]]

/-- The registers of one partition region of window 0x1c (R697). -/
def fabPart : List RegRow :=
  [
   -- FAB_RTAB (R480)
   .mk 0x40 1 [.mk 0 1 .rwc 0, .mk 14 34 .rwc 0]]

/-- The registers of one partition region of window 0x1d (R697). -/
def trfPart : List RegRow :=
  [
   -- TRF_MTAB word 0 (R503)
   .mk 0x40 1 [.mk 6 42 .rwc 0],
   -- TRF_MTAB word 1: TENANTS
   .mk 0x48 1 [.mk 0 17 .rwc 0],
   -- TRF_BTAB word 0
   .mk 0x80 1 [.mk 6 42 .rwc 0],
   -- TRF_BTAB word 1: ACCOUNTS
   .mk 0x88 1 [.mk 0 21 .rwc 0],
   -- TRF_REG0-3 (R504)
   .mk 0xc0 4 [.mk 0 20 .rwc 0, .mk 20 12 .rwc 0, .mk 32 1 .rwc 0]]

/-- The registers of one partition region of window 0x1f (R697). -/
def bdlPart : List RegRow :=
  [
   -- BDL_DBTAB (R530)
   .mk 0x40 1 [.mk 4 44 .rwc 0, .mk 48 16 .rwc 0]]

/-- FAB_EVT, in partition region 0 only (R482, R697). -/
def fabPart0 : List RegRow :=
  [
   -- FAB_EVT word 0 (R482)
   .mk 0x80 1 [.mk 6 42 .rwc 0, .mk 48 16 .rwc 0],
   -- FAB_EVT word 1
   .mk 0x88 1 [.mk 0 32 .ro 0, .mk 32 32 .rw 0]]

/-- The chip registers of a window. -/
def chipRows (win : Nat) : List RegRow :=
  match win with
  | 0x00 => glbChip
  | 0x01 => rstChip
  | 0x02 => pwrChip
  | 0x03 => clkChip
  | 0x04 => timChip
  | 0x05 => optChip
  | 0x06 => mbxChip
  | 0x07 => prtChip
  | 0x08 => secChip
  | 0x09 => rasChip
  | 0x0a => bbxChip
  | 0x10 => fylChip
  | 0x11 => bskChip
  | 0x12 => kvwChip
  | 0x13 => splChip
  | 0x15 => mrgChip
  | 0x16 => envChip
  | 0x17 => matChip
  | 0x18 => tieChip
  | 0x19 => blsChip
  | 0x1b => ttxChip
  | 0x1c => fabChip
  | 0x1d => trfChip
  | 0x1e => wskChip
  | _ => []

/-- Whether a window exists (R693; window 0x3F holds the partition pages of R699). -/
def windowExists (win : Nat) : Bool :=
  win ≤ 0x0A || (0x10 ≤ win && win ≤ 0x1F) || win == 0x3F

/-- The instance regions a window has, and the rows of instance `i` (R697). -/
def instRows (win i : Nat) : List RegRow :=
  match win with
  | 0x14 => if i < 4 then salInst else []
  | 0x1A => if i < 16 then ttpInst else []
  | 0x1F => if i = 0 then bdlInst ++ bdlInst0 else if i < 4 then bdlInst else []
  | _ => []

/-- The rows of partition region `p` of a window (R697). -/
def partRows (win p : Nat) : List RegRow :=
  match win with
  | 0x06 => mbxPart
  | 0x09 => if p = 0 then rasPart else []
  | 0x11 => bskPart
  | 0x12 => kvwPart
  | 0x13 => splPart
  | 0x17 => matPart
  | 0x18 => tiePart
  | 0x19 => blsPart
  | 0x1c => if p = 0 then fabPart ++ fabPart0 else fabPart
  | 0x1d => trfPart
  | 0x1f => bdlPart
  | _ => []

/-- The counters of one counter instance, in the order of the *_CNT table: `some true` is type RC, `some false` RO (R696, R697). -/
def cntKinds (win : Nat) : List (Option Bool) :=
  match win with
  | 0x02 => [some true, some true, some true, some true]
  | 0x04 => [some true, some true, some true, some true, some true]
  | 0x06 => [some true, some true, some true, some true, some true]
  | 0x07 => [some true]
  | 0x08 => [some true, some true, some true, some true, some true, some true]
  | 0x09 => [some true, some true, some true, some true, some true, some true, some false, some true]
  | 0x0a => [some true, some true, some false]
  | 0x10 => [some true, some true, some true]
  | 0x11 => [some false, some true, some true, some true, some true, some true, none, none, none, none, none, none, none, none, none, none, some true, some true, some true, some true, some true, some true, some true]
  | 0x12 => [some true, some true, some true, some true, some true, some true, some false]
  | 0x13 => [some true, some true, some true, some true, some true, some true, some true, some false]
  | 0x14 => [some true, some true, some true, some true, some true, some true, some true, some true, some true]
  | 0x15 => [some true, some true, some true, some true, some true, some true, some true]
  | 0x16 => [some true, some true, some true, some true, some true, some true, some true, some true]
  | 0x17 => [some true, some true, some true, some true]
  | 0x18 => [some false, some false, some false, some false, some false, some true, some true]
  | 0x19 => [some true, some true, some true, some true, some true, some true, some false, some false]
  | 0x1a => [some true, some true, some true, some true, some true, some true, some true, some true, some true, some true, some true, some true, some true, some true]
  | 0x1b => [some true, some true, some true, some true, some true, some true, some true, some true, some true, some true, some true, some true]
  | 0x1c => [some true, some true, some true, some true, some true, some true, some true, some true, some true]
  | 0x1d => [some true, some true, some true, some true, some true, some true, some true, some true, some true, some true, some true]
  | 0x1f => [some true, some true, some true, some true, some true, some true, some true, some true]
  | _ => []

/-- How many counter instances a window has (R697). -/
def cntInstances (win : Nat) : Nat :=
  match win with
  | 0x02 => 1
  | 0x04 => 1
  | 0x06 => 1
  | 0x07 => 16
  | 0x08 => 1
  | 0x09 => 1
  | 0x0a => 1
  | 0x10 => 16
  | 0x11 => 16
  | 0x12 => 4
  | 0x13 => 4
  | 0x14 => 4
  | 0x15 => 16
  | 0x16 => 96
  | 0x17 => 32
  | 0x18 => 16
  | 0x19 => 8
  | 0x1a => 64
  | 0x1b => 1
  | 0x1c => 1
  | 0x1d => 16
  | 0x1f => 8
  | _ => 0

/-- The fields of a *_COMMIT register (R51). -/
def commitFields : List Fld :=
  [.mk 0 1 .wo 0, .mk 1 1 .wo 0, .mk 2 1 .ro 0, .mk 8 8 .rw 0, .mk 16 8 .ro 0, .mk 24 8 .ro 0]

/-- Where an offset of a window lies (R696). -/
inductive Place where
  | chip (o : Nat)
  | inst (i o : Nat)
  | part (p o : Nat)
  | cnt (j k : Nat)
  | special (o : Nat)
deriving DecidableEq, Repr

/-- The place of offset `o` within its window. -/
def placeOf (o : Nat) : Place :=
  if o < 0x10000 then .chip o
  else if o < 0x40000 then .inst ((o - 0x10000) / 0x1000) ((o - 0x10000) % 0x1000)
  else if o < 0x50000 then .part ((o - 0x40000) / 0x1000) ((o - 0x40000) % 0x1000)
  else if 0x80000 ≤ o ∧ o < 0xC0000 then .cnt ((o - 0x80000) / 0x400) ((o - 0x80000) % 0x400)
  else .special o

/-- The window of a control-space address (R693). -/
def winOf (a : Nat) : Nat := a / 0x100000
/-- The offset of a control-space address in its window. -/
def offOf (a : Nat) : Nat := a % 0x100000

/-- Whether the word at `a` is a commit register: at offset 0 of a block's window, of an instance region that the block has, or of
a partition region (R696, R697). The window of the partition pages has none. -/
def isCommit (a : Nat) : Bool :=
  windowExists (winOf a) && winOf a != 0x3F &&
  (match placeOf (offOf a) with
   | .chip o => o == 0
   | .inst i o => o == 0 && !(instRows (winOf a) i).isEmpty
   | .part p o => o == 0 && !(partRows (winOf a) p).isEmpty
   | _ => false)

/-- The counter word at `a`: `some true` where it is of type RC, `some false` where RO (R696, R697; TTP_LCNT by R697). -/
def counterAt (a : Nat) : Option Bool :=
  match placeOf (offOf a) with
  | .cnt j k =>
    if j < cntInstances (winOf a) then
      match (cntKinds (winOf a))[k / 8]? with
      | some r => r
      | none => none
    else none
  | .special o => if winOf a = 0x1A ∧ 0xC0000 ≤ o ∧ o < 0xC0000 + 0x10 * 128 then some true else none
  | _ => none

/-- The fields of the 8-byte word at `a`, a multiple of 8, where a register occupies it (R693 to R699). The mailbox pages, the
secure channels' blocks and command buffers, and RAS_DIAG are served by their own operations. -/
def wordFields (a : Nat) : Option (List Fld) :=
  if !windowExists (winOf a) then none
  else if isCommit a then some commitFields
  else
    match counterAt a with
    | some true => some [.mk 0 64 .rc 0]
    | some false => some [.mk 0 64 .ro 0]
    | none =>
      match placeOf (offOf a) with
      | .chip o => rowsAt o (chipRows (winOf a))
      | .inst i o => rowsAt o (instRows (winOf a) i)
      | .part p o => rowsAt o (partRows (winOf a) p)
      | _ => none

/-- The reset value of a word: each field at the value its table gives. -/
def resetOf : List Fld → Nat
  | [] => 0
  | f :: r => (f.rst % 2 ^ f.w) * 2 ^ f.lo + resetOf r

/-- The power-on reset value of the word at `a`. A selected object's word has the reset of the address it is reached at. -/
def resetWord (a : Nat) : Word :=
  BitVec.ofNat 64 (resetOf ((wordFields (a % 2 ^ 26)).getD []))

/-- The union of the masks of the fields whose access type passes a test. -/
def accMask (p : Acc → Bool) : List Fld → Nat
  | [] => 0
  | f :: r => (if p f.acc then maskOf f.lo f.w else 0) ||| accMask p r

/-- The bits of the word at `a` whose fields' access types pass a test; zero where no register occupies it. -/
def maskAt (p : Acc → Bool) (a : Nat) : Word :=
  BitVec.ofNat 64 (accMask p ((wordFields (a % 2 ^ 26)).getD []))

/-- The select registers of R700. -/
inductive Sel where
  | chsel | mbxLsel | msel | envTsel | tieLsel | qsel | gsel | wsel | prtSel
deriving DecidableEq, Repr

/-- A select register's number in the per-path copies. -/
def Sel.num : Sel → Nat
  | .chsel => 0 | .mbxLsel => 1 | .msel => 2 | .envTsel => 3 | .tieLsel => 4 | .qsel => 5 | .gsel => 6 | .wsel => 7 | .prtSel => 8

/-- The select register at an address. -/
def selAt (a : Nat) : Option Sel :=
  match a with
  | 0x0600040 => some .chsel
  | 0x06000C0 => some .mbxLsel
  | 0x12000C0 => some .msel
  | 0x1600040 => some .envTsel
  | 0x18000C0 => some .tieLsel
  | 0x1B000C0 => some .qsel
  | 0x1C000C0 => some .gsel
  | 0x1F101C0 => some .wsel
  | 0x0700040 => some .prtSel
  | _ => none

/-- The select register that names the object of a word, for the words reached through one (R123, R181, R367, R450, R481, R529,
R556, R557, R599, R611). -/
def selectedBy (a : Nat) : Option Sel :=
  if a = 0x0600080 then some .chsel
  else if 0x0600100 ≤ a ∧ a < 0x0600118 then some .mbxLsel
  else if 0x1200100 ≤ a ∧ a < 0x1200120 then some .msel
  else if a = 0x1600080 ∨ (0x1600100 ≤ a ∧ a < 0x1600200) then some .envTsel
  else if a = 0x1800100 ∨ a = 0x1800108 then some .tieLsel
  else if a = 0x1B00100 then some .qsel
  else if a = 0x1C00100 ∨ a = 0x1C00108 then some .gsel
  else if 0x1F10200 ≤ a ∧ a < 0x1F10220 then some .wsel
  else if 0x0700080 ≤ a ∧ a < 0x07000C8 then some .prtSel
  else none

/-- The key under which the word at `a` of object `i` is kept. -/
def objKey (a i : Nat) : Nat := a + i * 2 ^ 26

end Sys2Proof
end

