-- ==== Sys2Proof/Machine/Ops.lean ====
section
/-!
DEFINITION. The named operations that the commands share: register words in force, status bits and counters, memory access and its
ownership checks, doorbells and flag cells, completions, the yielding and waking of threads, and end completions.
-/
namespace Sys2Proof.Machine

/-! ### Lifting an effect to the whole state -/

/-- A command that changes the data plane only. -/
def onData (f : Ctl → Data → Data) (s : State) : Host.Outcome State Fault Refusal :=
  .next { s with d := f s.k s.d }

/-- A command that changes the control plane only. -/
def onCtl (f : Data → Ctl → Ctl) (s : State) : Host.Outcome State Fault Refusal :=
  .next { s with k := f s.d s.k }

/-- A command that changes both. -/
def onBoth (f : Ctl × Data → Ctl × Data) (s : State) : Host.Outcome State Fault Refusal :=
  .next { s with k := (f (s.k, s.d)).1, d := (f (s.k, s.d)).2 }

/-! ### Register words -/

/-- The word in force under a key: an address, or an address of a selected object (R700). -/
def Ctl.word (k : Ctl) (key : Nat) : Word := Tab.getD k.shell.cfg key (resetWord key)

/-- A field of the word in force under a key. -/
def Ctl.fld (k : Ctl) (key lo w : Nat) : Nat := Sys2Proof.fld (k.word key) lo w

/-- Sets the word in force under a key, keeping only bits that the layout defines (R9). -/
def Ctl.setWord (k : Ctl) (key : Nat) (v : Word) : Ctl :=
  { k with shell := { k.shell with cfg := Tab.set k.shell.cfg key (v &&& maskAt (fun _ => true) key) } }

/-- Sets a field of the word in force under a key. -/
def Ctl.setFld (k : Ctl) (key lo w v : Nat) : Ctl := k.setWord key (setBits (k.word key) lo w v)

/-- Sets W1C bit `i` of the status word at `a` (R10). -/
def Data.setSts (d : Data) (a i : Nat) : Data :=
  { d with sts := Tab.put 0#64 d.sts a (setBit (Tab.getD d.sts a 0#64) i true) }

/-- Whether W1C bit `i` of the status word at `a` is set. -/
def Data.stsBit (d : Data) (a i : Nat) : Bool := bitAt (Tab.getD d.sts a 0#64) i

/-- The address of counter `i` of instance `j` of a window (R696). -/
def cntAddr (win j i : Nat) : Nat := win * 0x100000 + 0x80000 + 0x400 * j + 8 * i

/-- Adds to a counter, which stays at all ones once it would pass its maximum (R10). -/
def Data.bump (d : Data) (a n : Nat) : Data :=
  { d with cnt := Tab.put 0#64 d.cnt a (BitVec.ofNat 64 (Nat.min (2 ^ 64 - 1) ((Tab.getD d.cnt a 0#64).toNat + n))) }

/-- A counter of cycles whose number the spec does not fix grows by a free value (DESIGN CHOICE, log entry 29). -/
def Data.bumpFree (d : Data) (a : Nat) : Data := Data.bump { d with free := d.free + 1 } a (Config.freeValue d.free)

/-- The value of a counter. -/
def Data.cntVal (d : Data) (a : Nat) : Nat := (Tab.getD d.cnt a 0#64).toNat

/-- Raises a high-water counter to `n`. -/
def Data.highWater (d : Data) (a n : Nat) : Data :=
  { d with cnt := Tab.put 0#64 d.cnt a (BitVec.ofNat 64 (Nat.max n (d.cntVal a))) }

/-- Appends an output. -/
def Data.emit (d : Data) (o : Out) : Data := { d with out := d.out ++ [o] }

/-- A descriptor's field of `w` bits at bit `bit` of byte `byte`. -/
def df (x : Desc) (byte bit w : Nat) : Nat := fld x (8 * byte + bit) w

/-! ### Partitions and addresses -/

/-- PRT_DEF word `m` of partition `p` (R599). -/
def Ctl.prtDef (_k : Ctl) (p m : Nat) : Nat := objKey (0x0700080 + 8 * m) p
/-- ENABLE of a partition. -/
def Ctl.prtEnabled (k : Ctl) (p : Nat) : Bool := decide (p < 16) && k.fld (k.prtDef p 0) 0 1 == 1
/-- First Basket ID of a partition. -/
def Ctl.bskBase (k : Ctl) (p : Nat) : Nat := k.fld (k.prtDef p 0) 1 20
/-- Basket IDs of a partition. -/
def Ctl.bskCount (k : Ctl) (p : Nat) : Nat := k.fld (k.prtDef p 0) 21 21
/-- First QP of a partition. -/
def Ctl.qpBase (k : Ctl) (p : Nat) : Nat := k.fld (k.prtDef p 0) 42 14
/-- QPs of a partition. -/
def Ctl.qpCount (k : Ctl) (p : Nat) : Nat := k.fld (k.prtDef p 1) 0 15
/-- First tenant of a partition. -/
def Ctl.tenBase (k : Ctl) (p : Nat) : Nat := k.fld (k.prtDef p 1) 16 16
/-- Tenants of a partition. -/
def Ctl.tenCount (k : Ctl) (p : Nat) : Nat := k.fld (k.prtDef p 1) 32 17
/-- Plain range start in bytes: 256 MiB units (R599). -/
def Ctl.plainBase (k : Ctl) (p : Nat) : Nat := k.fld (k.prtDef p 2) 0 12 * 2 ^ 28
/-- Plain range size in bytes. -/
def Ctl.plainSize (k : Ctl) (p : Nat) : Nat := k.fld (k.prtDef p 2) 12 12 * 2 ^ 28
/-- Sail window start within a bank, in bytes. -/
def Ctl.sailBase (k : Ctl) (p : Nat) : Nat := k.fld (k.prtDef p 2) 24 8 * 2 ^ 20
/-- Sail window size within a bank, in bytes. -/
def Ctl.sailSize (k : Ctl) (p : Nat) : Nat := k.fld (k.prtDef p 2) 32 8 * 2 ^ 20
/-- Program store share of a partition in KiB. -/
def Ctl.progKb (k : Ctl) (p : Nat) : Nat := k.fld (k.prtDef p 2) 40 9
/-- Whether an endpoint half may access a partition (R589). -/
def Ctl.halfMay (k : Ctl) (p h : Nat) : Bool := bitAt (k.word (k.prtDef p 3)) h

/-- The partition that owns a Basket ID (R587). -/
def Ctl.bskPart (k : Ctl) (b : Nat) : Option Nat :=
  (List.range 16).find? (fun p => k.prtEnabled p && decide (k.bskBase p ≤ b) && decide (b < k.bskBase p + k.bskCount p))

/-- The partition that owns a QP number. -/
def Ctl.qpPart (k : Ctl) (q : Nat) : Option Nat :=
  (List.range 16).find? (fun p => k.prtEnabled p && decide (k.qpBase p ≤ q) && decide (q < k.qpBase p + k.qpCount p))

/-- The bytes of the plain tier (R346). -/
def plainTop : Nat := 768 * 2 ^ 30
/-- The bytes of one Sail bank (R257). -/
def bankBytes : Nat := 167772160
/-- The bytes of one Sail stack. -/
def stackBytes : Nat := 512 * bankBytes
/-- The DPA of Sail stack 3i + 2 (R346). -/
def stackDpa (i : Nat) : Nat := 0x010000000000 + i * 0x002000000000
/-- The DPA of byte `o` of bank `u` of Sail stack 3i + 2. -/
def bankDpa (i u o : Nat) : Nat := stackDpa i + u * bankBytes + o
/-- The DPA of the result area of unit `u` of Sail stack 3i + 2 (R258). -/
def resultDpa (i u : Nat) : Nat := 0x020000000000 + i * 0x200000 + 4096 * u

/-- MAP_GIB of TIE_SYS (R365), which the option loader sets. -/
def Ctl.mapGib (k : Ctl) : Nat := k.fld 0x1800040 0 7

/-- The DPA of Basket record `b` (R348). -/
def basketDpa (b : Nat) : Nat := 256 * b
/-- The DPA of entry `e` of the handoff ledger of QP `q` (R105, R348). -/
def ledgerDpa (q e : Nat) : Nat := 0x10000000 + 1024 * q + 16 * e
/-- The DPA of push context `c` of Spool `r` (R216, R348). -/
def ctxDpa (r c : Nat) : Nat := 0x11000000 + r * 0x800000 + 2048 * c
/-- The end of the system area, where the Ballast map ends (R348). -/
def Ctl.sysTop (k : Ctl) : Nat := 0x40000000 + k.mapGib * 2 ^ 30

/-- Where a DPA range lies (R346, R348). A range that no one row covers is unmapped. -/
inductive Tier where
  | unmapped | system | plain | sail | aperture
deriving DecidableEq, Repr

/-- The tier of the range [a, a+n). An empty range is judged by its address. -/
def Ctl.tierOf (k : Ctl) (a n : Nat) : Tier :=
  if inside a (Nat.max n 1) 0 plainTop then (if a < k.sysTop then .system else .plain)
  else if (List.range 4).any (fun i => inside a (Nat.max n 1) (stackDpa i) stackBytes) then .sail
  else if (List.range 4).any (fun i => inside a (Nat.max n 1) (0x020000000000 + i * 0x200000) 0x200000) then .aperture
  else .unmapped

/-- The byte offset of a Sail DPA within its bank (R588). -/
def sailOff (a : Nat) : Nat := (a - 0x010000000000) % 0x002000000000 % bankBytes

/-- Whether a plain range lies in a partition's plain range. -/
def Ctl.inPlain (k : Ctl) (p a n : Nat) : Bool := inside a n (k.plainBase p) (k.plainSize p)

/-- Whether a Sail range lies in a partition's Sail window: within one bank, inside the window (R588). -/
def Ctl.inSail (k : Ctl) (p a n : Nat) : Bool := inside (sailOff a) n (k.sailBase p) (k.sailSize p)

/-- TRF_MTAB of a partition: base and tenants (R503). -/
def Ctl.mtab (k : Ctl) (p : Nat) : Nat × Nat :=
  (k.fld (0x1D40040 + 0x1000 * p) 6 42 * 64, k.fld (0x1D40048 + 0x1000 * p) 0 17)

/-- TRF_BTAB of a partition: base and accounts (R503). -/
def Ctl.btab (k : Ctl) (p : Nat) : Nat × Nat :=
  (k.fld (0x1D40080 + 0x1000 * p) 6 42 * 64, k.fld (0x1D40088 + 0x1000 * p) 0 21)

/-- Whether a range meets a committed meter or budget table (R490). -/
def Ctl.inTables (k : Ctl) (a n : Nat) : Bool :=
  (List.range 16).any (fun p =>
    overlaps a n (k.mtab p).1 ((k.mtab p).2 * 512) || overlaps a n (k.btab p).1 ((k.btab p).2 * 64))

/-- Whether a range of plain HBM meets plain stack `i`: 4 KiB chunks lie on the eight stacks in turn (R347). -/
def plainTouch (a n i : Nat) : Bool := decide ((i + 8 - a / 4096 % 8) % 8 ≤ (a + n - 1) / 4096 - a / 4096)

/-- Whether a range of plain HBM meets a plain stack whose controller is fenced or in reset (R40). A region fence leaves the plain stacks in service. -/
def Ctl.plainDown (k : Ctl) (a n : Nat) : Bool :=
  (List.range 8).any (fun i => k.down.contains (64 * (i / 2) + 8 + i % 2) && plainTouch a n i)

/-- The check of a descriptor's DPA range for a partition (R258, R346, R349, R350, R490): unmapped or in a tier the object may not
occupy BAD_DESC; system area, a unit aperture, outside the partition's ranges or inside a meter or budget table PERM; a plain stack in reset DOMAIN_OFF (R40). -/
def Ctl.dpaCheck (k : Ctl) (p a n : Nat) (sailOk : Bool) : Option Status :=
  match k.tierOf a n with
  | .unmapped => some .badDesc
  | .aperture => some .perm
  | .system => some .perm
  | .plain => if !k.inPlain p a n || k.inTables a n then some .perm else if k.plainDown a n then some .domainOff else none
  | .sail => if !sailOk then some .badDesc else if !k.inSail p a n then some .perm else none

/-- Whether every unit whose result area a range of the unit apertures meets records a partition (R258, R275). -/
def apertureMine (d : Data) (p a n : Nat) : Bool :=
  let o := (a - 0x020000000000) / 4096
  (List.range ((a - 0x020000000000 + n - 1) / 4096 + 1 - o)).all (fun i =>
    let x := o + i
    match Tab.get? d.sal.units (x % 512 * 4 + x / 512) with
    | some u => u.part == some p
    | none => false)

/-- The check of a range that an engine only reads, which may lie in the unit apertures (R258, R275). -/
def readCheck (k : Ctl) (d : Data) (p a n : Nat) (sailOk : Bool) : Option Status :=
  match k.tierOf a n with
  | .aperture => if apertureMine d p a n then none else some .perm
  | _ => k.dpaCheck p a n sailOk

/-- A refused read of a result area sets PERM_READ of its stack (R275, R290). -/
def permRead (k : Ctl) (d : Data) (p a n : Nat) : Data :=
  match k.tierOf a n with
  | .aperture => if apertureMine d p a n then d else d.setSts (0x1410080 + 0x1000 * ((a - 0x020000000000) / 0x200000)) 4
  | _ => d

/-- The checks of R81 in order: the first that fails. -/
def firstOf : List (Option Status) → Option Status
  | [] => none
  | some s :: _ => some s
  | none :: r => firstOf r

/-- A check that fails with a status when the condition holds. -/
def failIf (c : Bool) (s : Status) : Option Status := if c then some s else none

/-! ### Memory through the state -/

/-- The little-endian value of `n` bytes of memory. -/
def Data.rd (d : Data) (a n : Nat) : Nat := memVal d.mem a n

/-- A write encodes the words that it reaches anew: a one-symbol error stored there is gone (R281). -/
def recoded (f : List (Nat × Flaw)) (a n : Nat) : List (Nat × Flaw) := f.filter (fun x => !(x.2 == .one && overlaps (32 * x.1) 32 a n))

/-- Writes bytes; a 32-byte word written whole loses its poison mark (R617). -/
def Data.wrBytes (d : Data) (a : Nat) (l : List Byte) : Data :=
  { d with
    mem := memPutBytes d.mem a l
    flaws := recoded d.flaws a l.length
    poison := unmarkPoison d.poison a l.length
    rawUe := unmarkPoison d.rawUe a l.length }

/-- Writes the `n` low bytes of a value. -/
def Data.wr (d : Data) (a n v : Nat) : Data := d.wrBytes a (bytesLE n v)

/-- Whether a range holds poisoned data. -/
def Data.bad (d : Data) (a n : Nat) : Bool := poisoned d.poison a n

/-- Zeroes a range and clears its poison. -/
def Data.clear (d : Data) (a n : Nat) : Data :=
  { d with
    mem := memClear d.mem a n
    flaws := recoded d.flaws a n
    poison := unmarkPoison d.poison a n
    rawUe := unmarkPoison d.rawUe a n }

/-- The 64-byte line of plain HBM or the 32-byte word of a Sail stack that a word lies in (R617). -/
def markUnit (w : Nat) : Nat := if 32 * w < 0x010000000000 then w / 2 * 2 else w

/-- The poison marks grow to a list: each line or word newly marked is counted (R617, R635). -/
def Data.setPoison (d : Data) (p : List Nat) : Data :=
  Data.bump { d with poison := p } (cntAddr 0x09 0 3) (((p.filter (fun w => !d.poison.contains w)).map markUnit).eraseDups.length)

/-- Copies a range; a poisoned source word marks the words its bytes reach (R617). -/
def Data.copy (d : Data) (src dst n : Nat) : Data :=
  let d' := d.wrBytes dst (memBytes d.mem src n)
  if d.bad src n then d'.setPoison ((List.range n).foldl (fun q i => if poisoned d.poison (src + i) 1 then markPoison q (dst + i) 1 else q) d'.poison)
  else d'

/-! ### Partition regulators (R493, R494) -/

/-- Whether resource `r` (0 HBM, 1 Tether, 2 Bridle, 3 Ballast) of a partition is regulated; partition 0 never is. -/
def Ctl.regOn (k : Ctl) (p r : Nat) : Bool :=
  decide (1 ≤ p) && k.fld (0x1D400C0 + 0x1000 * p + 8 * r) 32 1 == 1

/-- The tokens of a bucket. -/
def Data.bucket (d : Data) (p r : Nat) : Int := Tab.getD d.trf.buckets (4 * p + r) 0

/-- Whether a grant may be made now: the resource is not regulated, or its bucket is positive (R494). -/
def Data.mayGrant (k : Ctl) (d : Data) (p r : Nat) : Bool := !k.regOn p r || decide (0 < d.bucket p r)

/-- A grant takes its bytes (R494). -/
def Data.charge (k : Ctl) (d : Data) (p r n : Nat) : Data :=
  if k.regOn p r then
    { d with trf := { d.trf with buckets := Tab.put 0 d.trf.buckets (4 * p + r) (d.bucket p r - (n : Int)) } }
  else d

/-! ### Threads -/

/-- The thread of a number. -/
def Data.thr (d : Data) (t : Nat) : Option Thread := Tab.get? d.fyl.threads t

/-- Replaces a thread. -/
def Data.setThr (d : Data) (t : Nat) (th : Thread) : Data :=
  { d with fyl := { d.fyl with threads := Tab.set d.fyl.threads t th } }

/-- Changes a thread where it exists. -/
def Data.onThr (d : Data) (t : Nat) (f : Thread → Thread) : Data :=
  match d.thr t with
  | some th => d.setThr t (f th)
  | none => d

/-- The tile of a thread (R63). -/
def tileOf (t : Nat) : Nat := t / 4096

/-- Whether a thread holds a slot, waits for nothing and is not ending: it may issue an instruction. -/
def Thread.running (th : Thread) : Bool :=
  (match th.run with | .inSlot _ _ => true | _ => false) && th.wait.isNone && th.ending.isNone

/-- A thread leaves its slot at an explicit yield point, under its declaration (R65, R572); a real-time thread keeps its slot (R69). -/
def Data.yieldThr (d : Data) (t : Nat) (w : Option Wait) : Data :=
  d.onThr t (fun th =>
    match th.run with
    | .inSlot c sl => if th.rt then { th with wait := w } else { th.dropDead with run := .leaving c sl, wait := w }
    | _ => th)

/-- A thread in its frame whose wait is over goes to the back of the ready queue. -/
def Data.wake (d : Data) (t now : Nat) : Data :=
  match d.thr t with
  | some th =>
    match th.run with
    | .waiting => { (d.setThr t { th with run := .ready, wait := none, since := now }) with
                    fyl := { d.fyl with threads := Tab.set d.fyl.threads t { th with run := .ready, wait := none, since := now },
                                        readyQ := d.fyl.readyQ ++ [t] } }
    | _ => d.setThr t { th with wait := none }
  | none => d

/-! ### Doorbells and mailboxes -/

/-- MBX_CHCFG of a channel (R556). -/
def chCfg (c : Nat) : Nat := objKey 0x0600080 c
/-- ENABLE of a channel. -/
def Ctl.chOn (k : Ctl) (c : Nat) : Bool := k.fld (chCfg c) 0 1 == 1
/-- Owner partition of a channel; channel 0 belongs to partition 0 (R536). -/
def Ctl.chPart (k : Ctl) (c : Nat) : Nat := if c = 0 then 0 else k.fld (chCfg c) 1 4
/-- The half to which a channel's MSI-X vectors go (R543), as 2 × port + half. -/
def Ctl.chHalf (k : Ctl) (c : Nat) : Nat := 2 * k.fld (chCfg c) 5 2 + k.fld (chCfg c) 7 1
/-- MSG_IE of a channel. -/
def Ctl.chMsgIe (k : Ctl) (c : Nat) : Bool := k.fld (chCfg c) 8 1 == 1

/-- An empty channel. -/
def chanReset : Chan := ⟨0#64, 0#64, false, 0#64, 0#64, false, false, 0#32, 0#32, 0#32⟩

/-- A channel's state. -/
def Data.chan (d : Data) (c : Nat) : Chan := Tab.getD d.mbx.chans c chanReset
/-- Sets a channel's state. -/
def Data.setChan (d : Data) (c : Nat) (v : Chan) : Data :=
  { d with mbx := { d.mbx with chans := Tab.put chanReset d.mbx.chans c v } }

/-- A half's link state. -/
def halfReset : Half := ⟨false, 0, 0, false⟩
/-- The state of half 2r + h. -/
def Data.half (d : Data) (h : Nat) : Half := Tab.getD d.bdl.halves h halfReset
/-- Sets the state of half 2r + h. -/
def Data.setHalf (d : Data) (h : Nat) (v : Half) : Data :=
  { d with bdl := { d.bdl with halves := Tab.put halfReset d.bdl.halves h v } }

/-- Raises MSI-X vector `v` on a half: sent at once in L0 and unmasked, else held pending (R543, R559 MSIX_SENT). -/
def Data.raiseMsix (d : Data) (h v : Nat) : Data :=
  if (d.half h).up && d.mbx.msixOn.contains (64 * h + v) then (d.emit (.msix h v)).bump (cntAddr 0x06 0 4) 1
  else if d.mbx.msixPend.contains (64 * h + v) then d
  else { d with mbx := { d.mbx with msixPend := d.mbx.msixPend ++ [64 * h + v] } }

/-- Sets the DB_H and DB_H_EN bits of a channel; vector c is raised when their AND changes from zero to non-zero (R543). -/
def Data.setDbH (k : Ctl) (d : Data) (c : Nat) (dbH dbHEn : BitVec 32) : Data :=
  let ch := d.chan c
  let d' := d.setChan c { ch with dbH := dbH, dbHEn := dbHEn }
  if (ch.dbH &&& ch.dbHEn) == 0#32 && (dbH &&& dbHEn) != 0#32 && decide (c < 32) then d'.raiseMsix (k.chHalf c) c else d'

/-- BDL_DBTAB of a partition: base and entries (R530). -/
def Ctl.dbtab (k : Ctl) (p : Nat) : Nat × Nat :=
  (k.fld (0x1F40040 + 0x1000 * p) 4 44 * 16, k.fld (0x1F40040 + 0x1000 * p) 48 16)

/-- Rings a doorbell of a partition (R522, R523, R542): the ring's failure status, if any. Value 0xFFFF rings nothing. -/
def ringDoor (k : Ctl) (d : Data) (p db : Nat) : Data × Option Status :=
  if db = 0xFFFF then (d, none)
  else if 0x8000 ≤ db then
    let c := bitsOf db 5 5
    let bit := bitsOf db 0 5
    if bitsOf db 10 5 ≠ 0 then (d.setSts 0x0600140 3, some .cfgInvalid)
    else if k.chPart c ≠ p then (d, some .perm)
    else if !k.chOn c then (d.setSts 0x0600140 3, some .cfgInvalid)
    else (Data.setDbH k d c (setBit (d.chan c).dbH bit true) (d.chan c).dbHEn, none)
  else
    let a := (k.dbtab p).1 + 16 * db
    let lo := d.rd a 8
    let hi := d.rd (a + 8) 8
    let h := 2 * bitsOf hi 32 2 + bitsOf hi 34 1
    if (k.dbtab p).2 ≤ db ∨ bitsOf hi 63 1 = 0 ∨ !(d.half h).up then
      (d.setSts (0x1F10180 + 0x1000 * (h / 2)) 7, some .cfgInvalid)
    else
      ((d.emit (.busWrite h lo (bytesLE 4 (bitsOf hi 0 32)))).bump (cntAddr 0x1F h 1) 4, none)

/-- MBX_FRANGE of a partition: first cell and cells (R558). -/
def Ctl.frange (k : Ctl) (p : Nat) : Nat × Nat :=
  (k.fld (0x0640040 + 0x1000 * p) 0 16, k.fld (0x0640040 + 0x1000 * p) 16 17)

/-- Writes a flag cell; each waiting thread whose condition the new value makes true keeps that value (R549). -/
def Data.setFlag (d : Data) (cell : Nat) (v : Word) : Data :=
  { d with
    mbx := { d.mbx with flags := Tab.put 0#64 d.mbx.flags cell v }
    fyl := { d.fyl with threads := Tab.mapVals d.fyl.threads (fun _ th =>
      match th.wait with
      | some (.flag c cc x rd) => if c = cell && flagCond cc v x then { th with wait := some (.flagMet rd v) } else th
      | _ => th) } }

/-! ### Completions -/

/-- An operation's completion word (R75). -/
def Op.cpl (o : Op) (part : Nat) (st : Status) (count detail : Nat) : Cpl :=
  ⟨st, o.eng, o.tag, o.bsk, part, count, detail⟩

/-- The engine has finished an operation: its completion is ready to be posted (R74). An operation already finished, or of a
thread that is gone, is left as it is. -/
def Data.finish (d : Data) (t opId : Nat) (st : Status) (count detail : Nat) : Data :=
  d.onThr t (fun th => { th with ops := th.ops.map (fun o =>
    if o.id = opId ∧ o.done.isNone then { o with started := true, done := some (o.cpl th.part st count detail) } else o) })

/-- An operation of an aborted scope completes with ABORTED, whatever its engine had found, unless its completion word is in the ring (R79). -/
def Data.abort (d : Data) (t opId count : Nat) : Data :=
  d.onThr t (fun th => { th with ops := th.ops.map (fun o =>
    if o.id = opId then { o with started := true, done := some (o.cpl th.part .aborted count 0) } else o) })

/-- Changes an operation of a thread. -/
def Data.onOp (d : Data) (t id : Nat) (f : Op → Op) : Data :=
  d.onThr t (fun th => { th with ops := th.ops.map (fun o => if o.id = id then f o else o) })

/-- The engine has started an operation that will finish later. -/
def Data.start (d : Data) (t opId : Nat) : Data :=
  d.onThr t (fun th => { th with ops := th.ops.map (fun o => if o.id = opId then { o with started := true } else o) })

/-! ### Roles, blocks and time -/

/-- The role in force (R16, R17): 0 NONE, 1 P, 2 G, 3 C, 4 P+G. -/
def Ctl.role (k : Ctl) : Nat := k.fld 0x0000040 0 3
/-- Roles P and P+G (R19). -/
def Ctl.promptRole (k : Ctl) : Bool := k.role == 1 || k.role == 4
/-- Roles G and P+G (R19). -/
def Ctl.genRole (k : Ctl) : Bool := k.role == 2 || k.role == 4
/-- Role C (R19). -/
def Ctl.cacheRole (k : Ctl) : Bool := k.role == 3

/-- Whether the regions have power (R672, R673): all of them but in S1 and S3, where in S1 the Bridle ports keep it; none without VIN18 (STAGE 0 here). -/
def Ctl.powered (k : Ctl) (b : Nat) : Bool :=
  k.rst.stage != 0 && (match k.pwr.state with | .run => true | .s1 => b == 16 | .s3 => false)

/-- Whether block `b` of region `r` is in service (R40): powered, and neither it nor its region fenced or in reset. -/
def Ctl.up (k : Ctl) (r b : Nat) : Bool := k.powered b && !k.down.contains (64 * r + b) && !k.down.contains (64 * r + 63)

/-- Ticks of CLK_MGT, of 2 ns, in a number of microseconds. -/
def usTicks (n : Nat) : Nat := 500 * n

/-! ### The adapter table (R321 to R328) -/

/-- BSK_ADPTAB of a partition: directory base, record base and records (R343). -/
def Ctl.adpDir (k : Ctl) (p : Nat) : Nat := k.fld (0x1140080 + 0x1000 * p) 12 36 * 4096
/-- The base of the record pool. -/
def Ctl.adpRecs (k : Ctl) (p : Nat) : Nat := k.fld (0x1140088 + 0x1000 * p) 6 42 * 64
/-- Records of the pool; 0 until the table has been committed. -/
def Ctl.adpCount (k : Ctl) (p : Nat) : Nat := k.fld (0x1140090 + 0x1000 * p) 0 17

/-- The DPA of the record that word `w` of an ID's directory entry names, where it is VALID (R321). -/
def adpWord (k : Ctl) (d : Data) (p id w : Nat) : Option Nat :=
  let v := d.rd (k.adpDir p + 16 * id + 4 * w) 4
  if bitsOf v 31 1 = 1 then some (k.adpRecs p + 64 * bitsOf v 0 17) else none

/-- The record of a handle (ID in [15:0], version in [31:16]) that is not FREE, and its directory word. -/
def adpFind (k : Ctl) (d : Data) (p handle : Nat) : Option (Nat × Nat) :=
  if k.adpCount p = 0 ∨ bitsOf handle 0 16 = 0xFFFF then none
  else
    (List.range 4).findSome? (fun w =>
      match adpWord k d p (bitsOf handle 0 16) w with
      | some a => if bitsOf (d.rd a 8) 16 16 = bitsOf handle 16 16 ∧ bitsOf (d.rd a 8) 32 2 ≠ 0 then some (a, w) else none
      | none => none)

/-- A version becomes FREE: its directory word and record are cleared, and waiting retires complete (R323, R328). -/
def adpFree (k : Ctl) (d : Data) (p handle a w : Nat) : Data :=
  let d1 := (((d.wr (k.adpDir p + 16 * bitsOf handle 0 16 + 4 * w) 4 0).clear a 64).bump (cntAddr 0x11 p 18) 1)
  let mine := d1.adp.retires.filter (fun x => x.2.2.1 == p && x.2.2.2 == handle)
  let d2 := { d1 with adp := { d1.adp with retires := d1.adp.retires.filter (fun x => !(x.2.2.1 == p && x.2.2.2 == handle)) } }
  mine.foldl (fun e x => e.finish x.1 x.2.1 .ok 0 0) d2

/-- Takes a pin on a version (R326). -/
def adpPin (k : Ctl) (d : Data) (p handle : Nat) : Data :=
  match adpFind k d p handle with
  | some (a, _) => d.wr (a + 8) 4 (d.rd (a + 8) 4 + 1)
  | none => d

/-- Drops a pin; the last pin of a RETIRING version frees it (R323, R326). -/
def adpUnpin (k : Ctl) (d : Data) (p handle : Nat) : Data :=
  match adpFind k d p handle with
  | some (a, w) =>
    let n := d.rd (a + 8) 4 - 1
    let d1 := d.wr (a + 8) 4 n
    if n = 0 ∧ bitsOf (d.rd a 8) 32 2 = 2 then adpFree k d1 p handle a w else d1
  | none => d

/-- A `sail.delta` has completed, and drops the pins of its groups (R326). -/
def deltaDone (k : Ctl) (d : Data) (t id : Nat) : Data :=
  let mine := d.adp.deltas.filter (fun x => x.1.1 == t && x.1.2.1 == id)
  mine.foldl (fun e x => x.2.1.foldl (fun f h => adpUnpin k f x.1.2.2 h) e)
    { d with adp := { d.adp with deltas := d.adp.deltas.filter (fun x => !(x.1.1 == t && x.1.2.1 == id)) } }

/-- The pins a thread still holds are dropped when it ends (R327). -/
def dropThreadPins (k : Ctl) (d : Data) (t : Nat) : Data :=
  let mine := d.adp.pins.filter (fun x => x.1 == t)
  mine.foldl (fun e x => adpUnpin k e x.2.1 x.2.2) { d with adp := { d.adp with pins := d.adp.pins.filter (fun x => x.1 != t) } }

/-! ### Launch rings and end completions -/

/-- The number of a launch ring, which is MBX_LSEL's value: TILE in [3:0], PARTITION in [7:4], RT in [8] (R557). -/
def ringNo (rt : Bool) (p tile : Nat) : Nat := (if rt then 256 else 0) + 16 * p + tile

/-- The key of LDEF word `m` of a ring (R557). -/
def ldef (r m : Nat) : Nat := objKey (0x0600100 + 8 * m) r

/-- The counts of a ring. -/
def ringReset : Ring := ⟨0, 0, 0, 0⟩
/-- The counts of ring `r`. -/
def Data.ring (d : Data) (r : Nat) : Ring := Tab.getD d.fyl.rings r ringReset
/-- Sets the counts of ring `r`. -/
def Data.setRing (d : Data) (r : Nat) (v : Ring) : Data :=
  { d with fyl := { d.fyl with rings := Tab.put ringReset d.fyl.rings r v } }

/-- VALID of a ring. -/
def Ctl.ringOn (k : Ctl) (r : Nat) : Bool := k.fld (ldef r 0) 0 1 == 1
/-- PRODUCER of a ring: threads feed it. -/
def Ctl.ringThreads (k : Ctl) (r : Nat) : Bool := k.fld (ldef r 0) 1 1 == 1
/-- BASE of a ring. -/
def Ctl.ringBase (k : Ctl) (r : Nat) : Nat := k.fld (ldef r 0) 6 42 * 64
/-- CBASE of a ring. -/
def Ctl.ringCbase (k : Ctl) (r : Nat) : Nat := k.fld (ldef r 1) 4 44 * 16
/-- CDB of a ring. -/
def Ctl.ringCdb (k : Ctl) (r : Nat) : Nat := k.fld (ldef r 1) 48 16
/-- SIZE of a ring. -/
def Ctl.ringSize (k : Ctl) (r : Nat) : Nat := k.fld (ldef r 2) 0 17

/-- Posts an end completion to a ring (R552): it is written at CPROD, CPROD advances, CFLAG is set, CDB rings. On a ring fed by
threads CCONS follows CPROD (R551). A ring that is not VALID, as that of the boot program may be (R664), has nowhere to post to. -/
def postEnd (k : Ctl) (d : Data) (r p : Nat) (c : Cpl) : Data :=
  if !k.ringOn r then d else
  let g := d.ring r
  let n := (g.cprod + 1) % 2 ^ 32
  let d1 := d.wr (k.ringCbase r + 16 * (g.cprod % Nat.max 1 (k.ringSize r))) 16 c.bits.toNat
  let d2 := d1.setRing r { g with cprod := n, ccons := if k.ringThreads r then n else g.ccons }
  let d3 := if k.fld (ldef r 2) 48 1 = 1 then d2.setFlag ((k.frange p).1 + k.fld (ldef r 2) 32 16) (BitVec.ofNat 64 n) else d2
  (ringDoor k d3 p (k.ringCdb r)).1

/-- The end completion of a thread (R77, R78). -/
def Thread.endCpl (th : Thread) (st : Status) (detail : Nat) : Cpl :=
  ⟨st, 0, th.tag, th.bsk, th.part, 0, detail⟩

/-- A thread's end: its adapter pins are dropped (R327), its frame is freed, with every completion it still held, and its end
completion is posted (R77), unless the thread was lost with its tile and owes it to the tile's rejoining (R79). -/
def finishThread (k : Ctl) (d : Data) (t : Nat) (th : Thread) (st : Status) (detail : Nat) : Data :=
  let d0 := dropThreadPins k d t
  let d1 := { d0 with fyl := { d0.fyl with
    threads := Tab.erase d0.fyl.threads t
    readyQ := d0.fyl.readyQ.filter (fun x => x ≠ t)
    mbxWait := d0.fyl.mbxWait.filter (fun x => x ≠ t) } }
  if Tab.has d1.fyl.owed t then d1 else postEnd k d1 (ringNo th.rt th.part (tileOf t)) th.part (th.endCpl st detail)

/-- The thread stops: with operations outstanding it waits for them, a real-time thread in its slot (R69), else it ends at once (R77, R78). Held completions
are discarded (R574). -/
def endThread (k : Ctl) (d : Data) (t : Nat) (th : Thread) (st : Status) (detail : Nat) : Data :=
  if th.ops.isEmpty then finishThread k d t th st detail
  else
    d.setThr t { th with
      held := []
      wait := none
      ending := some (st, detail)
      run := match th.run with | .inSlot c sl => if th.rt then .inSlot c sl else .leaving c sl | r => r }

/-- A thread faults at its current instruction: BAD_DESC, DETAIL the byte offset of the instruction (R78, R85). -/
def faultThread (k : Ctl) (d : Data) (t : Nat) (th : Thread) : Data :=
  endThread k ((d.setSts 0x1000080 0).bump (cntAddr 0x10 (tileOf t) 2) 1) t th .badDesc th.pc

/-! ### Waits and completions -/

/-- The oldest held completion that a test holds of, and the others. -/
def takeHeld (f : Cpl → Bool) : List Cpl → Option (Cpl × List Cpl)
  | [] => none
  | c :: r => if f c then some (c, r) else
    match takeHeld f r with
    | some (x, r') => some (x, c :: r')
    | none => none

/-- The word that a wait with nothing to wait for returns (R579). -/
def emptyCpl (th : Thread) (st : Status) (tag count : Nat) : Cpl := ⟨st, 0, tag, th.bsk, th.part, count, 0⟩

/-- Takes a completion into d(DD) and pD (R579). -/
def Thread.deliver (th : Thread) (c : Cpl) (held : List Cpl) (dd : Nat) (wr : Bool) (pd : Nat) : Thread :=
  let th1 := { th with held := held }
  let th2 := if wr then th1.setCpl dd c else th1
  th2.setP pd (!c.status.good)

/-- `wait.tag` and `wait.any` where they can be met now: the thread after the instruction, or none while it must wait (R579). -/
def Thread.tryTake (th : Thread) (f : Nat → Bool) (tag dd : Nat) (wr : Bool) (pd : Nat) : Option Thread :=
  match takeHeld (fun c => f c.tag) th.held with
  | some (c, r) => some ((th.deliver c r dd wr pd).next 4)
  | none =>
    if th.ops.any (fun o => f o.tag) then none
    else
      let th1 := if wr then th.setCpl dd (emptyCpl th .badDesc tag 0) else th
      some ((th1.setP pd true).next 4)

/-- `wait.all` where it can be met now (R579). -/
def Thread.tryAll (th : Thread) (dd : Nat) (wr : Bool) (pd : Nat) : Option Thread :=
  if !th.ops.isEmpty then none
  else
    let bad := th.held.find? (fun c => !c.status.good)
    let c := match bad with
      | some c => c
      | none => emptyCpl th .ok 0 th.held.length
    let th1 := { th with held := [] }
    let th2 := if wr then th1.setCpl dd c else th1
    some ((th2.setP pd bad.isSome).next 4)

/-- What a waiting thread's wait becomes after a completion has been posted: the thread with its wait met, or none. -/
def Thread.met (th : Thread) : Option Thread :=
  match th.wait with
  | some (.tag x dd wr pd) => th.tryTake (fun y => y == x) x dd wr pd
  | some (.any dd wr pd) => th.tryTake (fun _ => true) 0 dd wr pd
  | some (.all dd wr pd) => th.tryAll dd wr pd
  | some .issue => some th
  | some (.block id) => if th.ops.any (fun o => o.id == id) then none else some th
  | _ => none

/-- Posts the completion word of a finished operation into its thread's ring (R74): a thread that waits on it becomes ready, and a
thread that is ending ends when its last operation has posted (R77). The result of a wait is written after the registers that are not live have been zeroed, so it is
there when the thread resumes (R65; DESIGN CHOICE, log entry 185). -/
def postOp (k : Ctl) (d : Data) (t opId : Nat) : Data :=
  match d.thr t with
  | none => d
  | some th =>
    match th.ops.find? (fun o => o.id == opId) with
    | none => d
    | some o =>
      match o.done with
      | none => d
      | some c =>
        let th1 := { th with ops := th.ops.filter (fun x => x.id != opId), held := th.held ++ [c] }
        match th.ending with
        | some (st, det) =>
          if th1.ops.isEmpty then finishThread k d t th1 st det else d.setThr t { th1 with held := [] }
        | none =>
          match th1.met with
          | some th2 => (d.setThr t th2).wake t k.ticks
          | none => d.setThr t th1

/-! ### The frame of an instruction -/

/-- One Fyley instruction of `len` bytes in thread `t` under predicate `p`. A thread that holds no slot, waits or is ending issues
nothing. An encoding that is undefined (`enc` false) or a long form at an address that is no multiple of 8 faults (R62, R78,
R560), whatever the predicate. A predicate that reads 0 costs the issue cycle and has no effect (R61, R562). Else `f` is the
effect. -/
def fylInstrE (t : Nat) (p : BitVec 2) (len : Nat) (enc : Bool) (f : Ctl → Data → Thread → Data) (k : Ctl) (d : Data) : Data :=
  match d.thr t with
  | none => d
  | some th =>
    if !th.running then d
    else if !enc || (len == 8 && th.pc % 8 != 0) then faultThread k d t th
    else if !th.pReg p.toNat then d.setThr t (th.next len)
    else f k d th

/-- A Fyley instruction all of whose operand values are defined encodings. -/
def fylInstr (t : Nat) (p : BitVec 2) (len : Nat) (f : Ctl → Data → Thread → Data) : Ctl → Data → Data :=
  fylInstrE t p len true f

/-- A Fyley instruction of `len` bytes that changes its own thread's registers only. -/
def fylRegs (t : Nat) (p : BitVec 2) (len : Nat) (f : Thread → Thread) : Ctl → Data → Data :=
  fylInstr t p len (fun _ d th => d.setThr t ((f th).next len))

end Sys2Proof.Machine
end

