-- ==== Sys2Proof/Machine/Arb.lean ====
section
/-!
DEFINITION. Self-clocked fair queueing over the classes (R485), which the core slot pick and Tether egress share. Tags are kept exactly, in
units of 1 / `wScale`.
-/
namespace Sys2Proof.Machine

/-- A common multiple of every weight, 1 to 255. -/
def wScale : Nat := (List.range 255).foldl (fun a i => Nat.lcm a (i + 1)) 1

/-- W_k of TRF_CFG, for classes 1 to 7 (R502). -/
def Ctl.weight (k : Ctl) (c : Nat) : Nat := Nat.max 1 (k.fld 0x1D00040 (8 * (c - 1)) 8)

/-- The backlogged class that an arbiter serves: class 0 first, else the smallest finish tag, the lower class on a tie. F_k of arbiter `a`
is at 8a + k, V at 8a. -/
def pickClass (tags : Tab Nat) (a : Nat) (backlog : Nat → Bool) : Option Nat :=
  if backlog 0 then some 0
  else (List.range 7).foldl (fun best i =>
    if !backlog (i + 1) then best
    else match best with
      | none => some (i + 1)
      | some b => if Tab.getD tags (8 * a + i + 1) 0 < Tab.getD tags (8 * a + b) 0 then some (i + 1) else best) none

/-- The tags after class `c` has been served for a cost (R485). -/
def serveClass (k : Ctl) (tags : Tab Nat) (a c cost : Nat) : Tab Nat :=
  if c = 0 then tags
  else
    let f := Nat.max (Tab.getD tags (8 * a) 0) (Tab.getD tags (8 * a + c) 0) + cost * (wScale / k.weight c)
    Tab.set (Tab.set tags (8 * a) f) (8 * a + c) f

/-- A pick by rank with generation work before prompt work within each rank (R64, R20): class 0, then classes 1 to 7 by their tags; whether the work is prompt. -/
def pickRank (tags : Tab Nat) (a : Nat) (gen prompt : Nat → Bool) : Option (Nat × Bool) :=
  if gen 0 then some (0, false)
  else if prompt 0 then some (0, true)
  else match pickClass tags a gen with
    | some c => some (c, false)
    | none => (pickClass tags a prompt).map (fun c => (c, true))

/-- A grant of a counter of `of` grants, of which the first `n` are withheld. -/
def withhold (d : Data) (key n of : Nat) : Data × Bool :=
  if n = 0 then (d, true)
  else
    let i := Tab.getD d.trf.caps key 0
    ({ d with trf := { d.trf with caps := Tab.put 0 d.trf.caps key ((i + 1) % of) } }, decide (n ≤ i))

/-- Whether an arbiter may make a grant under the power cap and the throttle. At CAP_LEVEL n the first n of every 8 grants to work of classes 1 to 7 are withheld, but for the
real-time class and partition 0 (R683); at THERM_LEVEL m the first m of every 16 to work of any class (R685). DESIGN CHOICE which of the 8 and of the 16, log entry 179. -/
def capGrant (k : Ctl) (d : Data) (a cls part : Nat) (rt : Bool) : Data × Bool :=
  let t := withhold d (128 + a) k.pwr.therm 16
  if cls = 0 ∨ part = 0 ∨ rt ∨ !t.2 then t else withhold t.1 a k.pwr.capLevel 8

end Sys2Proof.Machine
end

