-- ==== Sys2Proof/Machine/BlackBox.lean ====
section
/-!
DEFINITION. Unit locators (R36) and the queueing of black-box records of each kind (R624 to R629).
-/
namespace Sys2Proof.Machine

/-- The locator of a cell (R36). -/
def locCell (r b c : Nat) : Nat := 4 * r + 16 * b + 1024 * c
/-- The locator of a block. -/
def locBlock (r b : Nat) : Nat := 1 + 4 * r + 16 * b
/-- The locator of a region. -/
def locRegion (r : Nat) : Nat := 2 + 4 * r
/-- The locator of a chip-level block. -/
def locChip (b : Nat) : Nat := 1 + 16 * b + 2 ^ 20
/-- The locator of the chip. -/
def locAll : Nat := 3

/-- Queues a record (R627, R629): a full queue of 16 drops it, unless it is a CHANGE record; a record queued takes the next SEQ. -/
def record (k : Ctl) (d : Data) (kind loc : Nat) (body : List Byte) (block more : Bool) (ans : Option Answer) : Data :=
  let b := d.bbx
  if 16 ≤ b.queue.length ∧ kind ≠ 2 then Data.bump { d with bbx := { b with dropped := true } } (cntAddr 0x0A 0 1) 1
  else
    let x : BbRec := ⟨b.nextSeq, kind, b.dropped, more, k.ns, loc, b.boot, body, block, ans⟩
    { d with bbx := { b with queue := b.queue ++ [x], nextSeq := (b.nextSeq + 1) % 2 ^ 48, dropped := false } }

/-- What an ERROR record says (R626). An event that names no address, or no syndrome, leaves that field open. -/
structure ErrRec where
  source : Nat
  action : Nat
  status : Status
  part   : Nat
  addr   : Option Nat
  syn    : Option Nat
  bsk    : Option Nat
  count  : Nat

/-- An ERROR record; a field left open is a free value. The syndrome is the latest of its unit (R708). -/
def errorRec (k : Ctl) (d : Data) (loc : Nat) (x : ErrRec) : Data :=
  let addr := x.addr.getD (Config.freeValue d.free % 2 ^ 48)
  let syn := x.syn.getD (Config.freeValue (d.free + 1) % 2 ^ 64)
  let d1 := { d with
    free := d.free + 2
    ras := { d.ras with syns := Tab.set d.ras.syns loc ((syn :: Tab.getD d.ras.syns loc []).take 16) } }
  record k d1 1 loc
    (bytesLE 1 x.source ++ bytesLE 1 x.action ++ bytesLE 1 x.status.code ++ bytesLE 1 x.part ++ bytesLE 6 addr ++ bytesLE 8 syn ++
      bytesLE 4 (match x.bsk with | some b => b % 2 ^ 20 | none => 0xFFFFF + 2 ^ 31) ++ bytesLE 4 x.count ++ bytesLE 12 0)
    (loc % 4 != 0) false none

/-- Uncorrectable errors of any source: UE of RAS_STS and its counter (R634, R635). -/
def Data.rasUe (d : Data) (n : Nat) : Data := (d.setSts 0x0900080 22).bump (cntAddr 0x09 0 2) n

/-- An armed injection at a locator has been made (R708): the error that it causes has shown. -/
def Data.flipped (d : Data) (loc : Nat) : Data :=
  match d.ras.inject with
  | some j => if j.1 = loc then { d with ras := { d.ras with inject := none } } else d
  | none => d

/-- An uncorrectable error is reported, with its record. -/
def reportUe (k : Ctl) (d : Data) (loc : Nat) (x : ErrRec) : Data :=
  errorRec k ((d.flipped loc).rasUe 1) loc x

/-- CE_LIMIT (R633). -/
def Ctl.ceLimit (k : Ctl) : Nat := k.fld 0x0900040 24 16

/-- A cell's count with `n` more errors, and whether a storm begins (R622): more than the limit within one second begin one, and a full second below the limit ends it. -/
def CeCount.add (c : CeCount) (now limit n : Nat) : CeCount × Bool :=
  let last := c.last.filter (fun e => decide (now < e.1 + 500000000))
  let m := last.foldl (fun s e => s + e.2) 0
  let above := c.storm && decide (limit ≤ m)
  (⟨last ++ [(now, n)], above || decide (limit < m + n)⟩, !above && decide (limit < m + n))

/-- Corrected errors of a cell: counted, the first of a boot recorded (R625), and a storm reported once (R622). -/
def ceAdd (k : Ctl) (d : Data) (loc : Nat) (hbm : Bool) (n : Nat) : Data :=
  let d1 := (d.flipped loc).bump (cntAddr 0x09 0 (if hbm then 1 else 0)) n
  let source := if !hbm then 0x01 else if bitsOf loc 4 6 = 10 then 0x03 else 0x02
  let part := Config.freeValue d1.free % 16
  let d2 := if d1.bbx.seen.contains loc then d1
    else errorRec k { d1 with free := d1.free + 1, bbx := { d1.bbx with seen := d1.bbx.seen ++ [loc] } } loc ⟨source, 0, .ok, part, none, none, none, 0⟩
  let c := CeCount.add (Tab.getD d2.ras.ces loc ⟨[], false⟩) k.ticks k.ceLimit n
  let d3 := { d2 with ras := { d2.ras with ces := Tab.set d2.ras.ces loc c.1 } }
  if c.2 then errorRec k (d3.setSts 0x0900080 23) loc ⟨source, 8, .ok, 0xF, none, none, none, 0⟩ else d3

/-- The stack and the channel controller cell of a Sail address: 32 channels of 16 banks, in the order of the banks (DESIGN CHOICE, log entry 188). -/
def sailChan (a : Nat) : Nat × Nat :=
  let o := a - 0x010000000000
  (o / 0x002000000000, 512 + o % 0x002000000000 / bankBytes / 16 % 32)

/-- The locator of the channel controller of an HBM address; on a plain stack channel 0 stands for all (DESIGN CHOICE, log entry 188). -/
def hbmChan (a : Nat) : Nat :=
  if a < plainTop then locCell (a / 4096 % 8 / 2) (8 + a / 4096 % 2) 0 else locCell (sailChan a).1 10 (sailChan a).2

/-- SAL_STS of a stack (R290). -/
def salSts (i : Nat) : Nat := 0x1410080 + 0x1000 * i

/-- A counter of SAL_CNT of a stack (R292): 0 CMDS, 1 STROKES, 2 REFRESH, 3 CTRL_WAIT, 4 CE, 5 UE, 6 FENCES, 7 SAT, 8 NONFINITE. -/
def salCnt (i c : Nat) : Nat := cntAddr 0x14 i c

/-- Words of a range that wait with a flaw of a kind. -/
def flawed (d : Data) (w : Flaw) (a n : Nat) : List Nat := (d.flaws.filter (fun x => x.2 == w && overlaps (32 * x.1) 32 a n)).map (fun x => x.1)

/-- A Sail range is read through the in-die code: each word corrected sets CE and is counted (R281, R290, R292, R614). -/
def sailRead (k : Ctl) (d : Data) (a n : Nat) : Data :=
  (flawed d .one a n).foldl (fun e w =>
    let c := sailChan (32 * w)
    ceAdd k ((e.setSts (salSts c.1) 1).bump (salCnt c.1 4) 1) (locCell c.1 10 c.2) true 1) d

/-- The controller writes or reads a range over the HBM4 link: whether an access there fails for the third time, which its channel controller reports; its three retries are
counted (R282, R614, R635). -/
def hbmLink (k : Ctl) (d : Data) (w : Flaw) (a n : Nat) : Data × Bool :=
  let ws := flawed d w a n
  (ws.foldl (fun e x =>
    reportUe k (Data.bump { e with flaws := e.flaws.filter (fun y => !(y.1 == x && y.2 == w)) } (cntAddr 0x09 0 4) 3) (hbmChan (32 * x))
      ⟨0x04, 0, .uncorrectable,
        ((List.range 16).find? (fun p => k.prtEnabled p && (if 32 * x < plainTop then k.inPlain p (32 * x) 1 else k.inSail p (32 * x) 1))).getD 0xF, some (32 * x), none, none, 1⟩) d,
   !ws.isEmpty)

/-- A CHANGE record (R598, R626), with the answer that waits for it. -/
def changeRec (k : Ctl) (d : Data) (role slot session opc : Nat) (st : Status) (object value mask : Nat) (ans : Option Answer) : Data :=
  record k d 2 0
    (bytesLE 1 role ++ bytesLE 1 slot ++ bytesLE 4 session ++ bytesLE 2 opc ++ bytesLE 1 st.code ++ bytesLE 1 0 ++ bytesLE 8 object ++
      bytesLE 8 value ++ bytesLE 8 mask ++ bytesLE 4 0) false false ans

/-- A RESET record (R653, R626): SOURCE, level of the unit and the threads ended. -/
def resetRec (k : Ctl) (d : Data) (loc source threads : Nat) : Data :=
  record k d 3 loc (bytesLE 1 source ++ bytesLE 1 (loc % 4) ++ bytesLE 4 threads ++ bytesLE 32 0) false false none

/-- Baskets in ascending order, none twice. -/
def insertBasket (b : Nat) : List Nat → List Nat
  | [] => [b]
  | x :: r => if b < x then b :: x :: r else if b = x then x :: r else x :: insertBasket b r

/-- BASKETS records of one event (R626): nine IDs each, at most 32, with bit 31 of the last ID where more remain. -/
def basketRecs (k : Ctl) (loc : Nat) : Nat → List Nat → Data → Data
  | 0, _, d => d
  | n + 1, l, d =>
    if l.isEmpty then d
    else
      let now := l.take 9
      let cut := n == 0 && decide (9 < l.length)
      let ids := (List.range now.length).map (fun i => now.getD i 0 + (if cut && i == 8 then 2 ^ 31 else 0))
      basketRecs k loc n (l.drop 9) (record k d 4 loc (bytesLE 1 now.length ++ bytesLE 1 0 ++ ids.flatMap (bytesLE 4) ++ bytesLE (36 - 4 * now.length) 0)
        false (decide (9 < l.length) && n != 0) none)

/-- The BASKETS records of a set of Baskets. -/
def basketsRec (k : Ctl) (d : Data) (loc : Nat) (l : List Nat) : Data := basketRecs k loc 32 (l.foldl (fun a b => insertBasket b a) []) d

/-- 38 bytes that the spec gives no content for: free values of the run. -/
def freeBody (d : Data) : List Byte × Data :=
  ((List.range 38).map (fun i => BitVec.ofNat 8 (Config.freeValue (d.free + i))), { d with free := d.free + 38 })

/-- A record whose body the spec lays out nowhere: POWER (0x05), THERMAL (0x06) and SECURITY (0x07). -/
def plainRec (k : Ctl) (d : Data) (kind loc : Nat) : Data :=
  record k (freeBody d).2 kind loc (freeBody d).1 false false none

/-- The state codes of the time service (R642). -/
def TState.code : TState → Nat
  | .freerun => 0 | .acquiring => 1 | .locked => 2 | .holdover => 3

/-- A TIME record (R642, R626). -/
def timeRec (k : Ctl) (d : Data) (old new : TState) (offset : Int) (src : Nat) : Data :=
  record k d 9 (locChip 4)
    (bytesLE 1 old.code ++ bytesLE 1 new.code ++ bytesLE 8 (BitVec.ofInt 64 offset).toNat ++ bytesLE 1 src ++ bytesLE 27 0) false false none

end Sys2Proof.Machine
end

