-- ==== Sys2Proof/Machine/Num.lean ====
section
/-!
DEFINITION. Numbers exactly: the floating formats of R153 and FP32 as sign, significand and exponent, rounding to nearest with ties
to even, and the FP32 arithmetic of the Sail units and Merge engines (R163).
-/
namespace Sys2Proof.Machine

/-- A value of a floating format: ±m × 2^e, an infinity or a NaN. A zero keeps its sign. -/
inductive Val where
  | fin (neg : Bool) (m : Nat) (e : Int)
  | inf (neg : Bool)
  | nan (neg : Bool)
deriving DecidableEq, Repr, Inhabited

/-- A floating format (R153): mantissa bits, bias, bits in all, code of the largest finite magnitude, whether it has infinities, and the
code of the canonical NaN of R154. -/
structure FloatFmt where
  man : Nat
  bias : Nat
  width : Nat
  maxCode : Nat
  hasInf : Bool
  nanCode : Nat
deriving DecidableEq, Repr, Inhabited

/-- BF16. -/
def bf16 : FloatFmt := ⟨7, 127, 16, 0x7F7F, true, 0x7FC0⟩
/-- FP16, IEEE 754 binary16. -/
def fp16 : FloatFmt := ⟨10, 15, 16, 0x7BFF, true, 0x7E00⟩
/-- FP8 E4M3, which has no infinity. -/
def e4m3 : FloatFmt := ⟨3, 7, 8, 0x7E, false, 0x7F⟩
/-- FP8 E5M2. -/
def e5m2 : FloatFmt := ⟨2, 15, 8, 0x7B, true, 0x7F⟩
/-- FP32, IEEE 754 binary32. -/
def fp32 : FloatFmt := ⟨23, 127, 32, 0x7F7FFFFF, true, 0x7FC00000⟩

/-- m / 2^s rounded to the nearest integer, ties to even. -/
def rneShift (m s : Nat) : Nat :=
  let q := m / 2 ^ s
  let r := m % 2 ^ s
  if 2 ^ s < 2 * r ∨ (2 ^ s = 2 * r ∧ q % 2 = 1) then q + 1 else q

/-- RNE(m × 2^e / 2^q). -/
def rneScale (m : Nat) (e q : Int) : Nat :=
  if q ≤ e then m * 2 ^ (e - q).toNat else rneShift m (q - e).toNat

/-- The value of a code. -/
def FloatFmt.decode (f : FloatFmt) (x : Nat) : Val :=
  let neg := x / 2 ^ (f.width - 1) % 2 == 1
  let c := x % 2 ^ (f.width - 1)
  if f.maxCode < c then (if f.hasInf && c == f.maxCode + 1 then .inf neg else .nan neg)
  else if c / 2 ^ f.man = 0 then .fin neg (c % 2 ^ f.man) (1 - f.bias - f.man)
  else .fin neg (c % 2 ^ f.man + 2 ^ f.man) ((c / 2 ^ f.man : Nat) - f.bias - f.man)

/-- The magnitude code of m × 2^e rounded to nearest, ties to even, before any limit; a carry runs into the exponent field. -/
def FloatFmt.roundCode (f : FloatFmt) (m : Nat) (e : Int) : Nat :=
  if m = 0 then 0
  else
    let emin : Int := 1 - f.bias
    let top : Int := e + Nat.log2 m
    let ex := if top < emin then emin else top
    (ex - emin).toNat * 2 ^ f.man + rneScale m e (ex - f.man)

/-- A code with its sign bit. -/
def FloatFmt.signed (f : FloatFmt) (neg : Bool) (c : Nat) : Nat := c + (if neg then 2 ^ (f.width - 1) else 0)

/-- What a conversion reports: a finite input that saturated, a non-finite input (R154). -/
structure ConvFlags where
  sat : Nat
  nonfinite : Nat
deriving DecidableEq, Repr, Inhabited

/-- The code that a storage conversion writes (R154): nearest-even, finite overflow to the largest finite value, any non-finite input to
the canonical NaN with the input's sign. -/
def FloatFmt.store (f : FloatFmt) (v : Val) : Nat × ConvFlags :=
  match v with
  | .fin neg m e =>
    let c := f.roundCode m e
    if f.maxCode < c then (f.signed neg f.maxCode, ⟨1, 0⟩) else (f.signed neg c, ⟨0, 0⟩)
  | .inf neg => (f.signed neg f.nanCode, ⟨0, 1⟩)
  | .nan neg => (f.signed neg f.nanCode, ⟨0, 1⟩)

/-- The code of an arithmetic result: nearest-even, overflow to infinity. -/
def FloatFmt.result (f : FloatFmt) (v : Val) : Nat :=
  match v with
  | .fin neg m e => let c := f.roundCode m e; f.signed neg (if f.maxCode < c then f.maxCode + 1 else c)
  | .inf neg => f.signed neg (f.maxCode + 1)
  | .nan _ => f.nanCode

/-- Negation. -/
def Val.neg : Val → Val
  | .fin n m e => .fin (!n) m e
  | .inf n => .inf (!n)
  | .nan n => .nan (!n)

/-- Whether a value is finite. -/
def Val.isFinite : Val → Bool
  | .fin _ _ _ => true
  | _ => false

/-- A signed significand. -/
def sgn (neg : Bool) (m : Nat) : Int := if neg then -(m : Int) else (m : Int)

/-- The value x × 2^e of an integer significand. -/
def Val.ofInt (x : Int) (e : Int) : Val := .fin (decide (x < 0)) x.natAbs e

/-- Exact sum. The sum of two zeros of unlike sign is +0. -/
def Val.add (a b : Val) : Val :=
  match a, b with
  | .nan n, _ => .nan n
  | _, .nan n => .nan n
  | .inf n, .inf n' => if n = n' then .inf n else .nan false
  | .inf n, _ => .inf n
  | _, .inf n => .inf n
  | .fin na ma ea, .fin nb mb eb =>
    if ma = 0 ∧ mb = 0 then .fin (na && nb) 0 0
    else
      let e := if ea < eb then ea else eb
      Val.ofInt (sgn na ma * 2 ^ (ea - e).toNat + sgn nb mb * 2 ^ (eb - e).toNat) e

/-- Exact product. -/
def Val.mul (a b : Val) : Val :=
  match a, b with
  | .nan n, _ => .nan n
  | _, .nan n => .nan n
  | .inf n, .inf n' => .inf (n != n')
  | .inf n, .fin n' m _ => if m = 0 then .nan false else .inf (n != n')
  | .fin n m _, .inf n' => if m = 0 then .nan false else .inf (n != n')
  | .fin na ma ea, .fin nb mb eb => .fin (na != nb) (ma * mb) (ea + eb)

/-- A value times 2^j. -/
def Val.scale (a : Val) (j : Int) : Val :=
  match a with
  | .fin n m e => .fin n m (e + j)
  | v => v

/-- a < b on finite and infinite values; false where either is a NaN. -/
def Val.lt (a b : Val) : Bool :=
  match a, b with
  | .nan _, _ => false
  | _, .nan _ => false
  | .inf n, .inf n' => n && !n'
  | .inf n, _ => n
  | _, .inf n => !n
  | .fin na ma ea, .fin nb mb eb =>
    let e := if ea < eb then ea else eb
    decide (sgn na ma * 2 ^ (ea - e).toNat < sgn nb mb * 2 ^ (eb - e).toNat)

/-- Rounds to FP32. -/
def r32 (v : Val) : Val := fp32.decode (fp32.result v)
/-- An FP32 sum. -/
def add32 (a b : Val) : Val := r32 (a.add b)
/-- An FP32 product. -/
def mul32 (a b : Val) : Val := r32 (a.mul b)
/-- Positive zero. -/
def val0 : Val := .fin false 0 0
/-- One. -/
def val1 : Val := .fin false 1 0
/-- Negative infinity. -/
def negInf : Val := .inf true

/-- Quotient of finite values correctly rounded to FP32 from 40 guard bits with a sticky bit; by zero an infinity, 0/0 a NaN. -/
def div32 (a b : Val) : Val :=
  match a, b with
  | .nan n, _ => .nan n
  | _, .nan n => .nan n
  | .inf _, .inf _ => .nan false
  | .inf n, .fin n' _ _ => .inf (n != n')
  | .fin n _ _, .inf n' => .fin (n != n') 0 0
  | .fin na ma ea, .fin nb mb eb =>
    if mb = 0 then (if ma = 0 then .nan false else .inf (na != nb))
    else
      let x := ma * 2 ^ (64 + Nat.log2 mb)
      r32 (.fin (na != nb) (2 * (x / mb) + (if x % mb = 0 then 0 else 1)) (ea - eb - 65 - Nat.log2 mb))

end Sys2Proof.Machine
end

