-- ==== Sys2Proof/Machine/Frame.lean ====
section
/-!
DEFINITION. Model instance records (R123 to R125), frame sizes (R121), the layout of a frame (R161), and the reading and writing of K and
V values in the storage formats (R154 to R160).
-/
namespace Sys2Proof.Machine

/-- The key of KVW_MDEF word `w` of a model instance. -/
def mdefKey (m w : Nat) : Nat := objKey (0x1200100 + 8 * w) m
/-- VALID of a model instance. -/
def Ctl.mdlOn (k : Ctl) (m : Nat) : Bool := decide (m < 4096) && k.fld (mdefKey m 0) 0 1 == 1
/-- T: tokens per page. -/
def Ctl.mdlT (k : Ctl) (m : Nat) : Nat := 16 * 2 ^ k.fld (mdefKey m 0) 1 2
/-- FORMAT (R152). -/
def Ctl.mdlFmt (k : Ctl) (m : Nat) : Nat := k.fld (mdefKey m 0) 3 3
/-- KV_HEADS. -/
def Ctl.mdlKh (k : Ctl) (m : Nat) : Nat := k.fld (mdefKey m 0) 6 5
/-- HEAD_DIM. -/
def Ctl.mdlD (k : Ctl) (m : Nat) : Nat := 64 * 2 ^ k.fld (mdefKey m 0) 11 2
/-- LAYERS. -/
def Ctl.mdlLayers (k : Ctl) (m : Nat) : Nat := k.fld (mdefKey m 0) 13 9
/-- Whether layer `l` is a Reel layer. -/
def Ctl.isReel (k : Ctl) (m l : Nat) : Bool :=
  k.fld (mdefKey m 0) 22 8 != 0 && l % k.fld (mdefKey m 0) 22 8 == k.fld (mdefKey m 0) 30 8
/-- L: the ring length of a Reel layer (R138). -/
def Ctl.reelLen (k : Ctl) (m : Nat) : Nat := ceilDiv (k.fld (mdefKey m 0) 38 20) (k.mdlT m) + 1
/-- TIER: 1 for plain HBM. -/
def Ctl.mdlTier (k : Ctl) (m : Nat) : Nat := k.fld (mdefKey m 1) 0 1
/-- POOL_BASE in bytes. -/
def Ctl.mdlPool (k : Ctl) (m : Nat) : Nat := k.fld (mdefKey m 1) 10 38 * 1024
/-- POOL_FRAMES. -/
def Ctl.mdlFrames (k : Ctl) (m : Nat) : Nat := k.fld (mdefKey m 2) 0 32
/-- Owner partition. -/
def Ctl.mdlPart (k : Ctl) (m : Nat) : Nat := k.fld (mdefKey m 2) 32 4
/-- FREC_BASE. -/
def Ctl.mdlFrec (k : Ctl) (m : Nat) : Nat := k.fld (mdefKey m 3) 6 42 * 64

/-- Quarter bits per stored value (R121): 64, 64, 32, 32, 33, 17. -/
def fmtQuarterBits (f : Nat) : Nat :=
  match f with
  | 0 => 64 | 1 => 64 | 2 => 32 | 3 => 32 | 4 => 33 | _ => 17

/-- T × BPT: the bytes of a page (R121). -/
def Ctl.pageBytes (k : Ctl) (m : Nat) : Nat := k.mdlT m * k.mdlKh m * k.mdlD m * 2 * fmtQuarterBits (k.mdlFmt m) / 32
/-- FB: the bytes of a frame (R121). -/
def Ctl.frameBytes (k : Ctl) (m : Nat) : Nat := roundUp (k.pageBytes m) 1024

/-- The floating format of a code, where it is one. -/
def fmtFloat (f : Nat) : FloatFmt :=
  match f with
  | 0 => bf16 | 1 => fp16 | 2 => e4m3 | _ => e5m2

/-- Whether a FORMAT is Spar. -/
def isSpar (f : Nat) : Bool := decide (4 ≤ f)
/-- Qmax (R155). -/
def sparMax (f : Nat) : Nat := if f = 4 then 127 else 7

/-- The shape of a page: format, T, KV_HEADS, HEAD_DIM. -/
structure Shape where
  fmt : Nat
  t   : Nat
  kh  : Nat
  dim : Nat
deriving DecidableEq, Repr, Inhabited

/-- The shape of a model instance's pages. -/
def Ctl.shape (k : Ctl) (m : Nat) : Shape := ⟨k.mdlFmt m, k.mdlT m, k.mdlKh m, k.mdlD m⟩

/-- Bits per element in the value areas. -/
def Shape.elemBits (s : Shape) : Nat := if s.fmt < 2 then 16 else if s.fmt < 5 then 8 else 4
/-- Bytes of one value area. -/
def Shape.area (s : Shape) : Nat := s.t * s.kh * s.dim * s.elemBits / 8
/-- K element index of head `h`, channel `c`, slot `t` (R161). -/
def Shape.kIx (s : Shape) (h c t : Nat) : Nat := (h * s.dim + c) * s.t + t
/-- V element index. -/
def Shape.vIx (s : Shape) (h c t : Nat) : Nat := (t * s.kh + h) * s.dim + c
/-- Offset of the exponent byte of the key group of head `h`, channel `c`, slot `t`. -/
def Shape.kExp (s : Shape) (h c t : Nat) : Nat := 2 * s.area + (h * s.dim + c) * (s.t / 32) + t / 32
/-- Offset of the exponent byte of the value group. -/
def Shape.vExp (s : Shape) (h c t : Nat) : Nat :=
  2 * s.area + s.kh * s.dim * (s.t / 32) + (t * s.kh + h) * (s.dim / 32) + c / 32

/-- Element `i` of the area at `a`. -/
def elemGet (d : Data) (s : Shape) (a i : Nat) : Nat :=
  if s.elemBits = 16 then d.rd (a + 2 * i) 2
  else if s.elemBits = 8 then d.rd (a + i) 1
  else bitsOf (d.rd (a + i / 2) 1) (4 * (i % 2)) 4

/-- Writes element `i` of the area at `a`. -/
def elemPut (d : Data) (s : Shape) (a i v : Nat) : Data :=
  if s.elemBits = 16 then d.wr (a + 2 * i) 2 v
  else if s.elemBits = 8 then d.wr (a + i) 1 v
  else
    let o := d.rd (a + i / 2) 1
    d.wr (a + i / 2) 1 (if i % 2 = 0 then o / 16 * 16 + v % 16 else o % 16 + v % 16 * 16)

/-- The value of a Spar element with exponent byte `e` (R155). -/
def sparVal (f e q : Nat) : Val :=
  if e = 255 then .nan false
  else
    let m := if f = 4 then q % 128 else q % 8
    let neg := if f = 4 then q / 128 % 2 == 1 else q / 8 % 2 == 1
    if m = 0 then val0 else .fin neg m ((e : Int) - 127)

/-- The K value at head `h`, channel `c`, slot `t` of the frame at `a`. -/
def readK (d : Data) (s : Shape) (a h c t : Nat) : Val :=
  if isSpar s.fmt then sparVal s.fmt (d.rd (a + s.kExp h c t) 1) (elemGet d s a (s.kIx h c t))
  else (fmtFloat s.fmt).decode (elemGet d s a (s.kIx h c t))

/-- The V value. -/
def readV (d : Data) (s : Shape) (a h c t : Nat) : Val :=
  if isSpar s.fmt then sparVal s.fmt (d.rd (a + s.vExp h c t) 1) (elemGet d s (a + s.area) (s.vIx h c t))
  else (fmtFloat s.fmt).decode (elemGet d s (a + s.area) (s.vIx h c t))

/-- RNE(|v| / 2^k) of a finite value. -/
def sparMag (v : Val) (k : Int) : Nat :=
  match v with
  | .fin _ m e => rneScale m e k
  | _ => 0

/-- The smallest k from −127 on, in at most `fuel` steps, for which every magnitude of the list is at most `qmax` (R157). -/
def sparExp (vs : List Val) (qmax : Nat) : Nat → Int → Int
  | 0, k => k
  | n + 1, k => if vs.all (fun v => decide (sparMag v k ≤ qmax)) then k else sparExp vs qmax n (k + 1)

/-- The code of q with a sign; a q of magnitude 0 is written as +0 (R155). -/
def sparCode (f : Nat) (neg : Bool) (q : Nat) : Nat :=
  if q = 0 then 0 else q + (if neg then (if f = 4 then 128 else 8) else 0)

/-- The sign of a value. -/
def Val.isNeg : Val → Bool
  | .fin n _ _ => n
  | .inf n => n
  | .nan n => n

/-- A group of 32 written whole: its exponent byte and codes, and the non-finite inputs (R157). -/
def sparWhole (f : Nat) (vs : List Val) : Nat × List Nat × Nat :=
  let bad := (vs.filter (fun v => !v.isFinite)).length
  if 0 < bad then (255, vs.map (fun _ => 0), bad)
  else if vs.all (fun v => match v with | .fin _ m _ => m == 0 | _ => false) then (0, vs.map (fun _ => 0), 0)
  else
    let e := sparExp vs (sparMax f) 254 (-127)
    ((e + 127).toNat, vs.map (fun v => sparCode f v.isNeg (sparMag v e)), 0)

/-- An open key group's exponent byte and codes after value `x` is written at index `i` (R159). -/
def sparOpen (f e : Nat) (qs : List Nat) (i : Nat) (x : Val) : Nat × List Nat × Nat :=
  if e = 255 then (255, qs, if x.isFinite then 0 else 1)
  else if !x.isFinite then (255, qs.map (fun _ => 0), 1)
  else
    let fresh := e == 0 && qs.all (fun q => q == 0)
    let isZero := match x with | .fin _ m _ => m == 0 | _ => false
    if fresh && isZero then (0, qs.set i 0, 0)
    else
      let k0 : Int := if fresh then -127 else (e : Int) - 127
      let k1 := sparExp [x] (sparMax f) 254 k0
      let re := fun q =>
        let m := if f = 4 then q % 128 else q % 8
        sparCode f (decide (m ≠ q)) (rneScale m k0 k1)
      let qs' := if k1 = k0 then qs else qs.map re
      ((k1 + 127).toNat, qs'.set i (sparCode f x.isNeg (sparMag x k1)), 0)

/-- Writes a group's codes. -/
def putCodes (d : Data) (s : Shape) (a : Nat) : List (Nat × Nat) → Data
  | [] => d
  | (i, v) :: r => putCodes (elemPut d s a i v) s a r

/-- What the writing of values counts. -/
def ConvFlags.plus (x y : ConvFlags) : ConvFlags := ⟨x.sat + y.sat, x.nonfinite + y.nonfinite⟩

/-- A value on its way into storage: what it is, its code in the source format, and whether that format is the storage format. -/
structure Staged where
  v   : Val
  raw : Nat
  own : Bool

/-- Storing a value in a floating format (R154): a conversion to its own format keeps the code of a finite value. -/
def Staged.store (x : Staged) (f : Nat) : Nat × ConvFlags :=
  if x.own && x.v.isFinite then (x.raw, ⟨0, 0⟩) else (fmtFloat f).store x.v

/-- One past the highest slot of the frame at `a` that has been written. -/
def Data.written (d : Data) (a : Nat) : Nat := Tab.getD d.kvw.written a 0
/-- Sets it. -/
def Data.setWritten (d : Data) (a n : Nat) : Data := { d with kvw := { d.kvw with written := Tab.put 0 d.kvw.written a n } }

/-- Writes K of head `h`, channel `c` for `n` slots from `t0` on, where slots below `hw` have been written before; `src i` is the value of the
i-th of them. The slots lie in one page. In Spar, a key group that holds no written position and gets all its 32 slots is written whole, any
other one position at a time (R157, R159). -/
def writeKchan (d : Data) (s : Shape) (a hw h c t0 : Nat) (src : Nat → Staged) : Nat → Nat → Data × ConvFlags
  | 0, _ => (d, ⟨0, 0⟩)
  | fuel + 1, n =>
    if n = 0 then (d, ⟨0, 0⟩)
    else if !isSpar s.fmt then
      let r := (src 0).store s.fmt
      let w := writeKchan (elemPut d s a (s.kIx h c t0) r.1) s a hw h c (t0 + 1) (fun i => src (i + 1)) fuel (n - 1)
      (w.1, r.2.plus w.2)
    else if t0 % 32 = 0 ∧ 32 ≤ n ∧ hw ≤ t0 then
      let r := sparWhole s.fmt ((List.range 32).map (fun i => (src i).v))
      let d1 := putCodes (d.wr (a + s.kExp h c t0) 1 r.1) s a ((List.range 32).zip r.2.1 |>.map (fun x => (s.kIx h c (t0 + x.1), x.2)))
      let w := writeKchan d1 s a hw h c (t0 + 32) (fun i => src (i + 32)) fuel (n - 32)
      (w.1, ConvFlags.plus ⟨0, r.2.2⟩ w.2)
    else
      let g := t0 / 32 * 32
      let r := sparOpen s.fmt (d.rd (a + s.kExp h c t0) 1) ((List.range 32).map (fun i => elemGet d s a (s.kIx h c (g + i)))) (t0 - g) (src 0).v
      let d1 := putCodes (d.wr (a + s.kExp h c t0) 1 r.1) s a ((List.range 32).zip r.2.1 |>.map (fun x => (s.kIx h c (g + x.1), x.2)))
      let w := writeKchan d1 s a hw h c (t0 + 1) (fun i => src (i + 1)) fuel (n - 1)
      (w.1, ConvFlags.plus ⟨0, r.2.2⟩ w.2)

/-- Writes V of head `h` at slot `t`; `src c` is the value of channel c. -/
def writeVrow (d : Data) (s : Shape) (a h t : Nat) (src : Nat → Staged) : Data × ConvFlags :=
  if isSpar s.fmt then
    (List.range (s.dim / 32)).foldl (fun acc g =>
      let r := sparWhole s.fmt ((List.range 32).map (fun i => (src (32 * g + i)).v))
      let d1 := putCodes (acc.1.wr (a + s.vExp h (32 * g) t) 1 r.1) s (a + s.area)
        ((List.range 32).zip r.2.1 |>.map (fun x => (s.vIx h (32 * g + x.1) t, x.2)))
      (d1, acc.2.plus ⟨0, r.2.2⟩)) (d, ⟨0, 0⟩)
  else
    (List.range s.dim).foldl (fun acc c =>
      let r := (src c).store s.fmt
      (elemPut acc.1 s (a + s.area) (s.vIx h c t) r.1, acc.2.plus r.2)) (d, ⟨0, 0⟩)

/-- Writes K and V of `n` positions from slot `t0` of the frame at `a`; `kv v i h c` is the K (v false) or V value of the i-th position.
-/
def writeFrame (d : Data) (s : Shape) (a t0 n : Nat) (kv : Bool → Nat → Nat → Nat → Staged) : Data × ConvFlags :=
  let dk := (List.range (s.kh * s.dim)).foldl (fun acc x =>
    let r := writeKchan acc.1 s a (d.written a) (x / s.dim) (x % s.dim) t0 (fun i => kv false i (x / s.dim) (x % s.dim)) n n
    (r.1, acc.2.plus r.2)) (d, (⟨0, 0⟩ : ConvFlags))
  let r := (List.range (n * s.kh)).foldl (fun acc x =>
    let r := writeVrow acc.1 s a (x % s.kh) (t0 + x / s.kh) (fun c => kv true (x / s.kh) (x % s.kh) c)
    (r.1, acc.2.plus r.2)) dk
  (r.1.setWritten a (Nat.max (d.written a) (t0 + n)), r.2)

/-- The lane counters and status bits of a conversion in region `r` (R154, R183, R184). Which lane of the region counts is not
stated; the model counts on the first. -/
def Data.countConv (d : Data) (r : Nat) (f : ConvFlags) : Data :=
  let d1 := if 0 < f.nonfinite then (d.setSts 0x16000C0 1).bump (cntAddr 0x16 (12 * r) 6) f.nonfinite else d
  if 0 < f.sat then (d1.setSts 0x16000C0 2).bump (cntAddr 0x16 (12 * r) 7) f.sat else d1

/-- A staged element, BF16 or FP16 (R217), on its way into format `f`. -/
def stagedVal (fp : Bool) (f x : Nat) : Staged :=
  ⟨if fp then fp16.decode x else bf16.decode x, x, if fp then f == 1 else f == 0⟩

/-- An element of format `f` with value `v` and code `x`, on its way into a staging window (R248). -/
def unstagedVal (fp : Bool) (f : Nat) (v : Val) (x : Nat) : Nat × ConvFlags :=
  Staged.store ⟨v, x, if fp then f == 1 else f == 0⟩ (if fp then 1 else 0)

end Sys2Proof.Machine
end

