-- ==== Sys2Proof/Machine/Walker.lean ====
section
/-!
DEFINITION. The page walkers: page tables (R127, R128), frames and their records (R131 to R133, R143), mapping, copy-on-write (R145), Reel
rings (R138, R139, R142), pins (R144), retirement and watermarks (R146, R354).
-/
namespace Sys2Proof.Machine

/-! ### Basket records -/

/-- A FREE Basket whose last release was at `t` (R90). -/
def Basket.freed (t : Nat) : Basket :=
  { state := .free, anchor := false, receiver := false, held := false, decoded := false, part := 0, tenant := 0, model := 0, retries := 0,
    lastStatus := 0, epoch := 0#32, peerBasket := 0, peerNode := 0, qp := 0, nodeKnown := false, qpKnown := false, basketKnown := false,
    adapter := 0#32, budget := 0#32, ptRoot := 0, seqLen := 0, tailLen := 0, layersIn := 0, admitTime := 0, stateTime := t, pages := 0,
    shared := 0, user := 0#64, rt := 0#1024, deadline := none, parks := [], budPark := false, lost := false }

/-- The record of a Basket. -/
def Data.basket (d : Data) (b : Nat) : Basket := Tab.getD d.bsk.tab b (Basket.freed 0)

/-- The set of a Basket cache slice that a record belongs to (R97). -/
def sliceSet (b : Nat) : Nat := 256 * (b % 4) + b / 4 % 256

/-- Whether an operation in progress holds a Basket's record. -/
def Data.recHeld (d : Data) (b : Nat) : Bool := d.fyl.threads.any (fun e => e.2.ops.any (fun o => o.bsk == some b))

/-- A set of 16 ways after an access to a record: the record comes first, and in a full set takes the place of the least recently used one that no operation holds, or
of the least recently used (R97). -/
def touchSet (held : Nat → Bool) (l : List (Nat × Bool)) (b : Nat) (dirty : Bool) : List (Nat × Bool) :=
  let was := match l.find? (fun e => e.1 == b) with | some e => e.2 | none => false
  let rest := l.filter (fun e => e.1 != b)
  let kept := if rest.length < 16 then rest
    else match rest.reverse.find? (fun e => !held e.1) with
      | some v => rest.filter (fun e => e.1 != v.1)
      | none => rest.dropLast
  (b, dirty || was) :: kept

/-- An access to a Basket's record, which its slice then holds, dirty where it has been written (R97). A replaced dirty record is written back to the table, which holds
no more than the records do. -/
def Data.touchRec (d : Data) (b : Nat) (dirty : Bool) : Data :=
  { d with slices := Tab.set d.slices (sliceSet b) (touchSet d.recHeld (Tab.getD d.slices (sliceSet b) []) b dirty) }

/-- A record is written back to the table (R97): its slice holds it clean. -/
def Data.cleanRec (d : Data) (b : Nat) : Data :=
  { d with slices := Tab.set d.slices (sliceSet b) ((Tab.getD d.slices (sliceSet b) []).map (fun e => if e.1 = b then (b, false) else e)) }

/-- Whether a slice holds a record dirty. -/
def Data.recDirty (d : Data) (b : Nat) : Bool := (Tab.getD d.slices (sliceSet b) []).any (fun e => e.1 == b && e.2)

/-- Replaces a record, in its cache slice. -/
def Data.setBasket (d : Data) (b : Nat) (x : Basket) : Data :=
  { d.touchRec b true with bsk := { d.bsk with tab := Tab.set d.bsk.tab b x } }

/-- Changes a record. -/
def Data.onBasket (d : Data) (b : Nat) (f : Basket → Basket) : Data := d.setBasket b (f (d.basket b))

/-! ### Page tables -/

/-- The page-table pool of a partition: base and units (R130). -/
def Ctl.ptPool (k : Ctl) (p : Nat) : Nat × Nat := (k.fld (0x1240040 + 0x1000 * p) 12 36 * 4096, k.fld (0x1240048 + 0x1000 * p) 0 32)

/-- Takes the lowest free unit of the Basket's partition pool, zeroed. Which unit is taken is not stated; the model takes the lowest.
With none, PT_FULL is set. -/
def ptAlloc (k : Ctl) (d : Data) (b : Nat) : Data × Option Nat :=
  let p := (d.basket b).part
  match Tab.freeIn d.kvw.units (p * 2 ^ 32) (k.ptPool p).2 with
  | none => (d.setSts 0x1200080 1, none)
  | some u =>
    let a := (k.ptPool p).1 + 4096 * (u - p * 2 ^ 32)
    (Data.clear { d with kvw := { d.kvw with units := Tab.set d.kvw.units u b } } a 4096, some a)

/-- The table that the entry at `a` points to, allocating one where it is not VALID. -/
def ptNext (k : Ctl) (d : Data) (b a : Nat) : Data × Option Nat :=
  let e := d.rd a 8
  if e % 2 = 1 then (d, some (bitsOf e 12 36 * 4096))
  else
    match ptAlloc k d b with
    | (d1, some x) => (d1.wr a 8 (1 + x), some x)
    | (d1, none) => (d1, none)

/-- The root of a Basket, allocated at its first map (R127). -/
def ptRootOf (k : Ctl) (d : Data) (b : Nat) : Data × Option Nat :=
  if (d.basket b).ptRoot ≠ 0 then (d, some (d.basket b).ptRoot)
  else
    match ptAlloc k d b with
    | (d1, some x) => (d1.onBasket b (fun r => { r with ptRoot := x }), some x)
    | (d1, none) => (d1, none)

/-- The address of the level-3 entry of index `i` of layer `l`, with the tables it needs; where a unit is missing, none is taken and
PT_FULL is set (R129). -/
def l3Make (k : Ctl) (d : Data) (b l i : Nat) : Data × Option Nat :=
  match ptRootOf k d b with
  | (_, none) => (d.setSts 0x1200080 1, none)
  | (d1, some r) =>
    match ptNext k d1 b (r + 8 * l) with
    | (_, none) => (d.setSts 0x1200080 1, none)
    | (d2, some t2) =>
      match ptNext k d2 b (t2 + 8 * (i / 512)) with
      | (_, none) => (d.setSts 0x1200080 1, none)
      | (d3, some t3) => (d3, some (t3 + 8 * (i % 512)))

/-- The address of a level-3 entry where its tables exist. -/
def l3At (d : Data) (b l i : Nat) : Option Nat :=
  let r := (d.basket b).ptRoot
  if r = 0 then none
  else
    let e1 := d.rd (r + 8 * l) 8
    if e1 % 2 = 0 then none
    else
      let e2 := d.rd (bitsOf e1 12 36 * 4096 + 8 * (i / 512)) 8
      if e2 % 2 = 0 then none else some (bitsOf e2 12 36 * 4096 + 8 * (i % 512))

/-- The level-3 entry that index of page `p` of a layer: its slot in a Reel layer (R138). -/
def Ctl.l3Ix (k : Ctl) (m l p : Nat) : Nat := if k.isReel m l then p % k.reelLen m else p

/-- A level-3 entry (R128). -/
def pte (shared tent : Bool) (tier frame : Nat) : Nat :=
  1 + (if shared then 2 else 0) + (if tent then 4 else 0) + 8 * (tier % 2) + frame / 1024 * 1024

/-- VALID. -/
def pteValid (e : Nat) : Bool := e % 2 == 1
/-- SHARED. -/
def pteShared (e : Nat) : Bool := e / 2 % 2 == 1
/-- TENTATIVE. -/
def pteTent (e : Nat) : Bool := e / 4 % 2 == 1
/-- The DPA of the frame. -/
def pteFrame (e : Nat) : Nat := bitsOf e 10 38 * 1024

/-- The key of a layer of a Basket. -/
def layerKey (b l : Nat) : Nat := 256 * b + l

/-- The entry of page `p` of layer `l` of a Basket, 0 where it is unmapped: a Reel page is mapped only inside the ring's current span, or
outside the ring while it is tentative (R138, R142). -/
def pageEntry (k : Ctl) (d : Data) (b l p : Nat) : Nat :=
  let m := (d.basket b).model
  if k.isReel m l then
    match Tab.get? d.kvw.reelTent (layerKey b l * 2 ^ 18 + p) with
    | some f => pte false true (k.mdlTier m) f
    | none =>
      let top := Tab.getD d.kvw.reelTop (layerKey b l) 0
      if p < top ∧ top ≤ p + k.reelLen m then
        match l3At d b l (p % k.reelLen m) with
        | some a => if pteValid (d.rd a 8) then d.rd a 8 else 0
        | none => 0
      else 0
  else
    match l3At d b l p with
    | some a => if pteValid (d.rd a 8) then d.rd a 8 else 0
    | none => 0

/-- Whether page `p` is mapped. -/
def mapped (k : Ctl) (d : Data) (b l p : Nat) : Bool := pteValid (pageEntry k d b l p)

/-- The DPA of the frame of a mapped page. -/
def pageFrame (k : Ctl) (d : Data) (b l p : Nat) : Nat := pteFrame (pageEntry k d b l p)

/-! ### The look-aside buffer -/

/-- The keys in walker `r`'s look-aside buffer (R135). -/
def Data.lab (d : Data) (r : Nat) : List Nat := Tab.getD d.kvw.lab r []

/-- A translate of page `p` of layer `l` of a Basket by its walker: a hit where the buffer holds the entry, else a walk, after which the buffer holds it; which of 4,096
entries makes room is not stated, and is free (R135, R151). -/
def translate (d : Data) (b l p : Nat) : Data :=
  let buf := d.lab (b % 4)
  if buf.contains (layerKey b l * 2 ^ 18 + p) then d.bump (cntAddr 0x12 (b % 4) 0) 1
  else
    let d1 := if buf.length < 4096 then d else { d with free := d.free + 1 }
    let kept := if buf.length < 4096 then buf else buf.eraseIdx (Config.freeValue d.free % 4096)
    Data.bump { d1 with kvw := { d1.kvw with lab := Tab.set d1.kvw.lab (b % 4) ((layerKey b l * 2 ^ 18 + p) :: kept) } } (cntAddr 0x12 (b % 4) 1) 1

/-- The translates of a list of pages, as (layer, page). -/
def translates (d : Data) (b : Nat) (ps : List (Nat × Nat)) : Data := ps.foldl (fun e q => translate e b q.1 q.2) d

/-- A Basket's walker invalidates the entries of its buffer that `f` selects by key (R135). -/
def labDrop (d : Data) (b : Nat) (f : Nat → Bool) : Data :=
  { d with kvw := { d.kvw with lab := Tab.set d.kvw.lab (b % 4) ((d.lab (b % 4)).filter (fun x => !f x)) } }

/-- Whether a key is of the level-3 entry that holds page `p` of a layer: in a Reel layer, of any page of the same slot. -/
def Ctl.sameEntry (k : Ctl) (m b l p key : Nat) : Bool := key / 2 ^ 18 == layerKey b l && k.l3Ix m l (key % 2 ^ 18) == k.l3Ix m l p

/-! ### Frames -/

/-- The DPA of frame `f` of bank `g` of a pool; a TIER 1 pool has one bank (R131, R133). -/
def Ctl.frameDpa (k : Ctl) (m g f : Nat) : Nat :=
  if k.mdlTier m = 0 then bankDpa (g % 4) (g / 4) (k.mdlPool m + f * k.frameBytes m) else k.mdlPool m + f * k.frameBytes m

/-- The address of the frame record of frame `f` of bank `g` (R143). -/
def Ctl.frecAt (k : Ctl) (m g f : Nat) : Nat :=
  k.mdlFrec m + 8 * (if k.mdlTier m = 0 then g * k.mdlFrames m + f else f)

/-- The bank of a frame DPA of a TIER 0 pool (R131). -/
def dpaBank (a : Nat) : Nat :=
  let i := (a - 0x010000000000) / 0x002000000000
  (a - 0x010000000000) % 0x002000000000 / bankBytes * 4 + i

/-- The address of the frame record of the frame at a DPA of a model's pool. -/
def Ctl.frecOf (k : Ctl) (m a : Nat) : Nat :=
  if k.mdlTier m = 0 then k.frecAt m (dpaBank a) ((sailOff a - k.mdlPool m) / Nat.max 1 (k.frameBytes m))
  else k.frecAt m 0 ((a - k.mdlPool m) / Nat.max 1 (k.frameBytes m))

/-- REFCNT of the frame record at an address. -/
def refcnt (d : Data) (r : Nat) : Nat := d.rd r 2
/-- PINS. -/
def pinCnt (d : Data) (r : Nat) : Nat := d.rd (r + 2) 2
/-- STATE: 0 FREE, 1 IN_USE, 2 RETIRED. -/
def frecState (d : Data) (r : Nat) : Nat := bitsOf (d.rd r 8) 48 2

/-- The lowest FREE frame among `n` records from `base` on. -/
def lowestFree (d : Data) (base n : Nat) : Option Nat := (List.range n).find? (fun f => frecState d (base + 8 * f) == 0)

/-- The first bank for page `p` of layer `l` (R132): after the highest mapped page below it of the same pool, else by Basket and layer. No page below a ring's span is
mapped. -/
def firstBank (k : Ctl) (d : Data) (b l p : Nat) : Nat :=
  let lo := if k.isReel (d.basket b).model l then Nat.min p (Tab.getD d.kvw.reelTop (layerKey b l) 0) - k.reelLen (d.basket b).model else 0
  match (List.range (p - lo)).find? (fun i => mapped k d b l (p - 1 - i)) with
  | some i => (dpaBank (pageFrame k d b l (p - 1 - i)) + (i + 1)) % 2048
  | none => ((8 * b + 37 * l) % 2048 + p) % 2048

/-- A bank whose unit is out of service counts as full (R285). -/
def bankLost (d : Data) (g : Nat) : Bool := match Tab.get? d.sal.units g with | some u => u.lost | none => false

/-- The first bank, from `g` on, with a FREE frame, among `n` banks; the banks skipped are counted. -/
def bankSearch (k : Ctl) (d : Data) (m g : Nat) : Nat → Nat → Option (Nat × Nat × Nat)
  | 0, _ => none
  | n + 1, i =>
    match (if bankLost d ((g + i) % 2048) then none else lowestFree d (k.frecAt m ((g + i) % 2048) 0) (k.mdlFrames m)) with
    | some f => some ((g + i) % 2048, f, i)
    | none => bankSearch k d m g n (i + 1)

/-- FREE of a partition and tier: the bytes of its pools' frames in state FREE (R353). -/
def tierFree (k : Ctl) (d : Data) (p tier : Nat) : Nat :=
  ((List.range 4096).map (fun m =>
    if k.mdlOn m && k.mdlPart m == p && k.mdlTier m == tier then
      (((List.range (k.mdlFrames m * (if tier = 0 then 2048 else 1))).filter (fun f =>
        frecState d (k.mdlFrec m + 8 * f) == 0 && !(tier == 0 && bankLost d (f / Nat.max 1 (k.mdlFrames m))))).length) *
        k.frameBytes m
    else 0)).foldl (· + ·) 0

/-- TIE_WM of a partition and tier: LOW and HIGH in MiB (R366). -/
def Ctl.wm (k : Ctl) (p tier : Nat) : Nat × Nat :=
  (k.fld (0x1840040 + 0x1000 * p + 8 * tier) 0 20, k.fld (0x1840040 + 0x1000 * p + 8 * tier) 20 20)

/-- The watermark of one tier of a partition (R354): its mark is set, with the doorbell once, when FREE falls below LOW, and cleared when
FREE reaches HIGH. -/
def wmTier (k : Ctl) (d : Data) (p tier : Nat) : Data :=
  let w := k.wm p tier
  if w.1 = 0 then { d with low := d.low.filter (fun x => x != 2 * p + tier) }
  else
    let f := tierFree k d p tier
    if d.low.contains (2 * p + tier) then
      (if w.2 * 2 ^ 20 ≤ f then { d with low := d.low.filter (fun x => x != 2 * p + tier) } else d)
    else if f < w.1 * 2 ^ 20 then
      (ringDoor k { d with low := (2 * p + tier) :: d.low } p (k.fld (0x1840048 + 0x1000 * p) 48 16)).1
    else d

/-- Both watermarks of a partition. -/
def wmCheck (k : Ctl) (d : Data) (p : Nat) : Data := wmTier k (wmTier k d p 0) p 1
/-- The watermarks of every partition, where banks leave or rejoin the pools (R285, R354). -/
def wmAll (k : Ctl) (d : Data) : Data := (List.range 16).foldl (wmCheck k) d

/-- Takes a frame of a model's pool for page `p` of layer `l` of Basket `b` (R132, R133), IN_USE with REFCNT 1, its page bytes zero
(R121). With none, POOL_EMPTY is set, and no bank counts as skipped (DESIGN CHOICE, log entry 180). -/
def frameAlloc (k : Ctl) (d : Data) (b l p : Nat) : Data × Option Nat :=
  let m := (d.basket b).model
  let r := if k.mdlTier m = 0 then bankSearch k d m (firstBank k d b l p) 2048 0
    else (lowestFree d (k.mdlFrec m) (k.mdlFrames m)).map (fun f => (0, f, 0))
  match r with
  | none => (d.setSts 0x1200080 0, none)
  | some (g, f, skip) =>
    let a := k.frameDpa m g f
    let d1 := if skip = 0 then d else d.bump (cntAddr 0x12 (b % 4) 3) skip
    (wmCheck k (((d1.wr (k.frecAt m g f) 8 (1 + 2 ^ 48)).clear a (k.pageBytes m)).setWritten a 0) (k.mdlPart m), some a)

/-- A frame retires (R146): STATE RETIRED with the current epoch; walker `r` counts it. -/
def retire (d : Data) (r a : Nat) : Data :=
  (d.wr a 8 (2 * 2 ^ 48 + d.kvw.epoch % 65536 * 2 ^ 32 + pinCnt d a * 65536)).bump (cntAddr 0x12 r 4) 1

/-- Drops a reference (R146): at REFCNT 0 with PINS 0 the frame retires. -/
def deref (d : Data) (r a : Nat) : Data :=
  let n := refcnt d a - 1
  let d1 := d.wr a 2 n
  if n = 0 ∧ pinCnt d1 a = 0 then retire d1 r a else d1

/-- Takes a reference. -/
def addRef (d : Data) (a : Nat) : Data := d.wr a 2 (refcnt d a + 1)

/-- Takes a read pin on a frame for an operation, which takes one however often it reads the frame (R144). -/
def takePin (d : Data) (t op a : Nat) : Data :=
  if d.kvw.pins.contains (t, op, a) then d
  else
    let d1 := d.wr (a + 2) 2 (pinCnt d a + 1)
    { d1 with kvw := { d1.kvw with pins := d1.kvw.pins ++ [(t, op, a)] } }

/-- Whether a pin is wanted on a frame of a model whose PINS is at 65,535: the request waits (R144). -/
def pinFull (k : Ctl) (d : Data) (m : Nat) (fs : List Nat) : Bool := fs.any (fun f => pinCnt d (k.frecOf m f) == 65535)

/-- Drops one pin on a frame; a frame whose REFCNT is 0 retires with its last pin (R146). Which walker counts it is not stated: the one that the frame record's address
divided by 8 gives modulo 4 (DESIGN CHOICE, log entry 181). -/
def unpin (d : Data) (a : Nat) : Data :=
  let d1 := d.wr (a + 2) 2 (pinCnt d a - 1)
  if refcnt d1 a = 0 ∧ pinCnt d1 a = 0 ∧ frecState d1 a = 1 then retire d1 (a / 8 % 4) a else d1

/-- Drops every pin that an operation holds (R144). -/
def dropPins (d : Data) (t op : Nat) : Data :=
  let mine := d.kvw.pins.filter (fun x => x.1 == t && x.2.1 == op)
  mine.foldl (fun e x => unpin e x.2.2) { d with kvw := { d.kvw with pins := d.kvw.pins.filter (fun x => !(x.1 == t && x.2.1 == op)) } }

/-! ### Mapping -/

/-- Writes the entry of page `p`, with the tables it needs. -/
def setEntry (k : Ctl) (d : Data) (b l p e : Nat) : Data × Bool :=
  match l3Make k d b l (k.l3Ix (d.basket b).model l p) with
  | (d1, none) => (d1, false)
  | (d1, some a) =>
    let d2 := labDrop (d1.wr a 8 e) b (k.sameEntry (d.basket b).model b l p)
    if k.isReel (d.basket b).model l then
      let top := Nat.max (p + 1) (Tab.getD d2.kvw.reelTop (layerKey b l) 0)
      ({ d2 with kvw := { d2.kvw with reelTop := Tab.set d2.kvw.reelTop (layerKey b l) top } }, true)
    else (d2, true)

/-- Counts a mapped page. -/
def Basket.mapOne (x : Basket) (sh : Bool) : Basket := { x with pages := x.pages + 1, shared := x.shared + (if sh then 1 else 0) }
/-- Counts an unmapped page. -/
def Basket.unmapOne (x : Basket) (sh : Bool) : Basket := { x with pages := x.pages - 1, shared := x.shared - (if sh then 1 else 0) }

/-- Unmaps a page, dropping its frame's reference (R137, R146). -/
def dropPage (k : Ctl) (d : Data) (b l p : Nat) : Data :=
  let m := (d.basket b).model
  let e := pageEntry k d b l p
  if !pteValid e then d
  else
    let key := layerKey b l * 2 ^ 18 + p
    let d1 :=
      if k.isReel m l && Tab.has d.kvw.reelTent key then { d with kvw := { d.kvw with reelTent := Tab.erase d.kvw.reelTent key } }
      else match l3At d b l (k.l3Ix m l p) with
        | some a => d.wr a 8 0
        | none => d
    wmCheck k (deref ((labDrop d1 b (fun x => x == key)).onBasket b (fun x => x.unmapOne (pteShared e))) (b % 4) (k.frecOf m (pteFrame e))) (k.mdlPart m)

/-- Opens a new page for writing: none where no frame or page-table unit is free, with nothing mapped (R129, R137). In a Reel layer the
frame of the slot's old page is reused, or replaced where it is shared (R139); a tentative page takes a frame outside the ring (R142). -/
def openPage (k : Ctl) (d : Data) (b l p : Nat) (tent : Bool) : Data × Option Nat :=
  let m := (d.basket b).model
  let old := match l3At d b l (k.l3Ix m l p) with
    | some a => if pteValid (d.rd a 8) then d.rd a 8 else 0
    | none => 0
  if k.isReel m l && pteValid old then
    if tent then
      match frameAlloc k d b l p with
      | (d1, some f) =>
        (({ d1 with kvw := { d1.kvw with reelTent := Tab.set d1.kvw.reelTent (layerKey b l * 2 ^ 18 + p) f } }).onBasket b
          (fun x => x.mapOne false), some f)
      | (d1, none) => (d1, none)
    else if pteShared old then
      match frameAlloc k d b l p with
      | (d1, some f) =>
        let d2 := (setEntry k d1 b l p (pte false false (k.mdlTier m) f)).1
        ((deref (d2.onBasket b (fun x => { x with shared := x.shared - 1 })) (b % 4) (k.frecOf m (pteFrame old))).bump
          (cntAddr 0x12 (b % 4) 2) 1, some f)
      | (d1, none) => (d1, none)
    else ((setEntry k ((d.clear (pteFrame old) (k.pageBytes m)).setWritten (pteFrame old) 0) b l p (pte false false (k.mdlTier m) (pteFrame old))).1, some (pteFrame old))
  else
    match frameAlloc k d b l p with
    | (d1, none) => (d1, none)
    | (d1, some f) =>
      match setEntry k d1 b l p (pte false tent (k.mdlTier m) f) with
      | (d2, true) => (d2.onBasket b (fun x => x.mapOne false), some f)
      | (d2, false) => (wmCheck k (d2.wr (k.frecOf m f) 8 0) (k.mdlPart m), none)

/-- The frame of a page whose write is made by copy-on-write (R145): none where the page is unmapped or may be written in place. -/
def cowFrame (k : Ctl) (d : Data) (b l p : Nat) : Option Nat :=
  let e := pageEntry k d b l p
  if pteValid e && pteShared e && decide (1 < refcnt d (k.frecOf (d.basket b).model (pteFrame e))) then some (pteFrame e) else none

/-- The frame in which a mapped page may be written: a shared frame with other holders is copied first, under a pin that lasts as long as the copy (R145). -/
def writable (k : Ctl) (d : Data) (b l p : Nat) : Data × Option Nat :=
  let m := (d.basket b).model
  let e := pageEntry k d b l p
  if !pteShared e then (d, some (pteFrame e))
  else if refcnt d (k.frecOf m (pteFrame e)) ≤ 1 then
    ((setEntry k (d.onBasket b (fun x => { x with shared := x.shared - 1 })) b l p (pte false (pteTent e) (k.mdlTier m) (pteFrame e))).1,
      some (pteFrame e))
  else
    match frameAlloc k d b l p with
    | (d1, none) => (d1, none)
    | (d1, some f) =>
      let d2 := (setEntry k ((d1.copy (pteFrame e) f (k.pageBytes m)).setWritten f (d1.written (pteFrame e))) b l p (pte false (pteTent e) (k.mdlTier m) f)).1
      ((deref (d2.onBasket b (fun x => { x with shared := x.shared - 1 })) (b % 4) (k.frecOf m (pteFrame e))).bump
        (cntAddr 0x12 (b % 4) 2) 1, some f)

/-- Maps a frame into a page as shared, taking a reference (R137); in a Reel layer the slot's old page leaves the ring (R138). -/
def mapShared (k : Ctl) (d : Data) (b l p f : Nat) : Data × Bool :=
  let m := (d.basket b).model
  let d0 := match l3At d b l (k.l3Ix m l p) with
    | some a =>
      let e := d.rd a 8
      if k.isReel m l && pteValid e then
        deref ((d.wr a 8 0).onBasket b (fun x => x.unmapOne (pteShared e))) (b % 4) (k.frecOf m (pteFrame e))
      else d
    | none => d
  match setEntry k d0 b l p (pte true false (k.mdlTier m) f) with
  | (d1, true) => (addRef (d1.onBasket b (fun x => x.mapOne true)) (k.frecOf m f), true)
  | (d1, false) => (d1, false)

/-- The entry of a private page whose frame a second entry now maps reads SHARED, and the Basket's SHARED count takes it in (R89, R128, R143; DEDUCED,
log entry 176). -/
def shareEntry (k : Ctl) (d : Data) (b l p : Nat) : Data :=
  let e := pageEntry k d b l p
  if !pteValid e || pteShared e then d
  else (setEntry k (d.onBasket b (fun x => { x with shared := x.shared + 1 })) b l p (pte true (pteTent e) (k.mdlTier (d.basket b).model) (pteFrame e))).1

/-- Frees every frame a Basket maps and its tables; the frames freed or dereferenced are counted (R113). -/
def freeAllPages (k : Ctl) (d : Data) (b : Nat) : Data × Nat :=
  let m := (d.basket b).model
  let root := (d.basket b).ptRoot
  let dropAt := fun (acc : Data × Nat) (a : Nat) =>
    let e := acc.1.rd a 8
    if pteValid e then (deref (acc.1.wr a 8 0) (b % 4) (k.frecOf m (pteFrame e)), acc.2 + 1) else acc
  let r := if root = 0 then (d, 0) else
    (List.range 256).foldl (fun acc l =>
      let e1 := acc.1.rd (root + 8 * l) 8
      if e1 % 2 = 0 then acc else
        (List.range 512).foldl (fun acc2 i =>
          let e2 := acc2.1.rd (bitsOf e1 12 36 * 4096 + 8 * i) 8
          if e2 % 2 = 0 then acc2 else
            (List.range 512).foldl (fun acc3 j => dropAt acc3 (bitsOf e2 12 36 * 4096 + 8 * j)) acc2) acc) (d, 0)
  let tent := r.1.kvw.reelTent.filter (fun x => x.1 / 2 ^ 26 == b)
  let r2 := tent.foldl (fun acc x => (deref acc.1 (b % 4) (k.frecOf m x.2), acc.2 + 1)) r
  let d3 := r2.1
  (wmCheck k (Data.onBasket { d3 with kvw := { d3.kvw with
      units := Tab.keep d3.kvw.units (fun _ o => o != b)
      reelTop := Tab.keep d3.kvw.reelTop (fun key _ => key / 256 != b)
      reelTent := Tab.keep d3.kvw.reelTent (fun key _ => key / 2 ^ 26 != b)
      filled := Tab.keep d3.kvw.filled (fun key _ => key / 256 != b)
      lab := Tab.set d3.kvw.lab (b % 4) ((d3.lab (b % 4)).filter (fun x => x / 2 ^ 26 != b)) } } b
    (fun x => { x with ptRoot := 0, pages := 0, shared := 0 })) (k.mdlPart m), r2.2)

/-- The frames of a layer's pages are read or written over the HBM4 link: words that the in-die code corrects are counted (R281), and an access that fails for the third
time is reported, with the first page that it concerns (R282). -/
def touchFrames (k : Ctl) (w : Flaw) (b l : Nat) : List Nat → Data → Data × Option Nat
  | [], d => (d, none)
  | p :: r, d =>
    let f := pageFrame k d b l p
    let n := k.pageBytes (d.basket b).model
    if !mapped k d b l p then touchFrames k w b l r d
    else
      let x := hbmLink k (if w = .read then sailRead k d f n else d) w f n
      let y := touchFrames k w b l r x.1
      (y.1, if x.2 then some p else y.2)

/-- The first of a layer's pages, in order, that the Spool cannot read for transmission, and why (R222, R224, R282). -/
def framesStop (k : Ctl) (d : Data) (b l : Nat) (ps : List Nat) : Option (Nat × Status) :=
  let m := (d.basket b).model
  ps.findSome? (fun p =>
    let f := pageFrame k d b l p
    if !mapped k d b l p then none
    else if !(flawed d .read f (k.pageBytes m)).isEmpty then some (p, .uncorrectable)
    else if d.bad f (k.pageBytes m) then some (p, .poison) else none)

end Sys2Proof.Machine
end

