-- ==== Sys2Proof/Machine/Qp.lean ====
section
/-!
DEFINITION. Queue pairs: their records, the link a QP sends on (R442), packets out, acknowledgements (R436), and the messages of the
engines in both directions (R426).
-/
namespace Sys2Proof.Machine

/-- A link that no mode has brought up. -/
def linkReset : Link := ⟨.off, 0, 0, 0, false, [], 0, 0, false, false⟩
/-- The state of link `l` of port `p`. -/
def Data.link (d : Data) (p l : Nat) : Link := Tab.getD d.links (4 * p + l) linkReset
/-- Sets the state of a link. -/
def Data.setLink (d : Data) (p l : Nat) (x : Link) : Data := { d with links := Tab.put linkReset d.links (4 * p + l) x }
/-- TTP_CFG of a port (R410). -/
def ttpCfg (p : Nat) : Nat := 0x1A10040 + 0x1000 * p
/-- MODE of a port. -/
def Ctl.portMode (k : Ctl) (p : Nat) : Nat := k.fld (ttpCfg p) 0 4
/-- The links of a mode (R398). -/
def modeLinks (m : Nat) : Nat :=
  match m with
  | 1 => 1 | 2 => 2 | 3 => 4 | 4 => 1 | 5 => 2 | _ => 0
/-- Line rate of a link of a mode in Gb/s. -/
def modeRate (m : Nat) : Nat :=
  match m with
  | 1 => 1600 | 2 => 800 | 3 => 400 | 4 => 800 | 5 => 400 | _ => 0

/-- Whether a link carries frames of the transport: UP or HOLD, and its port neither under test nor looped back (R404, R409). -/
def Data.carries (k : Ctl) (d : Data) (x : Nat × Nat) : Bool :=
  ((d.link x.1 x.2).state == .up || (d.link x.1 x.2).state == .hold) && k.fld (ttpCfg x.1) 4 2 == 0 && k.fld (ttpCfg x.1) 6 2 == 0

/-- A QP not allocated. -/
def qpReset : Qp :=
  { state := .free, status := 0, incarn := 0, part := 0, rqDepth := 0, peerNode := 0, peerQp := 0, peerIncarn := 0, payload := 0,
    v4 := false, sec := false, links := [], peerAddr := 0, key := 0, connOp := none, connDue := 0,
    connAt := 0, paceAt := 0, rate := 0, rttAt := 0, txq := [],
    nextPsn := 0, wraps := 0, unacked := [], epsn := 0, held := [], slots := [], order := 0, rx := none, applied := 0, ackDue := none,
    echo := 0, cache := [], nextId := 0, rxCls := 0 }
/-- The record of a QP. -/
def Data.qp (d : Data) (q : Nat) : Qp := Tab.getD d.ttx.qps q qpReset
/-- Replaces a QP's record. -/
def Data.setQp (d : Data) (q : Nat) (x : Qp) : Data := { d with ttx := { d.ttx with qps := Tab.put qpReset d.ttx.qps q x } }
/-- Changes a QP's record. -/
def Data.onQp (d : Data) (q : Nat) (f : Qp → Qp) : Data := d.setQp q (f (d.qp q))
/-- Whether a QP is connected, for R18 and R22 (R417). -/
def Qp.connected (x : Qp) : Bool := x.state != .free && x.state != .init

/-- What an operation or engine that rides a QP completes with by the QP's state (R418, R433). -/
def Qp.refusal (x : Qp) : Option Status :=
  match x.state with
  | .ready => none
  | .error => some ((Status.ofCode? x.status).getD .timeout)
  | _ => some .cfgInvalid

/-- NODE of TTX_ADDR (R448). -/
def Ctl.node (k : Ctl) : Nat := k.fld 0x1B00040 0 16
/-- VALID of TTX_ADDR. -/
def Ctl.nodeOn (k : Ctl) : Bool := k.fld 0x1B00040 16 1 == 1

/-- The bytes of an extension (R427). The fabric opcodes' extensions are counted as 16 bytes. -/
def extBytes : Ext → Nat
  | .none => 0
  | .msg _ _ _ => 12
  | .write _ _ _ _ => 16
  | .atomic _ _ _ _ => 32
  | .ack _ _ _ _ => 16
  | .nak _ _ => 8
  | .resp _ _ _ => 16
  | .conn _ _ _ _ _ => 8
  | _ => 16

/-- The bytes of the frame that carries a packet, FCS included (R423). -/
def pktBytes (p : Packet) : Nat :=
  14 + (if p.v4 then 20 else 40) + 8 + 20 + extBytes p.ext + p.data.length + (if p.sec then 16 else 0) + 4 + 4

/-- Sends a packet on a link (R424), counted at its MAC (R414). -/
def Data.sendOnLink (d : Data) (x : Nat × Nat) (p : Packet) : Data :=
  ((d.emit (.packet x.1 x.2 p)).bump (cntAddr 0x1A (4 * x.1 + x.2) 0) 1).bump (cntAddr 0x1A (4 * x.1 + x.2) 2) (pktBytes p)

/-- The link a QP sends on: the first of its path set that carries frames (R442). -/
def Data.pathOf (k : Ctl) (d : Data) (q : Nat) : Option (Nat × Nat) := (d.qp q).links.find? (fun x => Data.carries k d x)

/-- Sends a packet of a QP, whose bytes its partition's Tether regulator counts (R493); with no link UP, or no node number committed (R29), nothing is sent. -/
def Data.sendQp (k : Ctl) (d : Data) (q : Nat) (p : Packet) : Data :=
  match if k.nodeOn then Data.pathOf k d q else none with
  | some x => Data.charge k (d.sendOnLink x p) (d.qp q).part 1 (pktBytes p)
  | none => d

/-- A packet without data of a QP toward its peer (R425): class 0, the peer's INCARN, no PSN. -/
def Qp.ctrl (k : Ctl) (x : Qp) (q opc : Nat) (ext : Ext) : Packet :=
  { opcode := opc, cls := 0, sec := false, srcNode := k.node, dstNode := x.peerNode, dstQp := x.peerQp, srcQp := q, part := x.part,
    ackReq := false, first := false, last := false, retx := false, incarn := x.peerIncarn, psn := 0, txTime := k.ns % 2 ^ 32,
    v4 := x.v4, addr := x.peerAddr, ext := ext, data := [] }

/-- PSN arithmetic, modulo 2^24 (R435). -/
def psnSub (a b : Nat) : Nat := (a + 2 ^ 24 - b % 2 ^ 24) % 2 ^ 24

/-- ACK_PSN (R436): the highest PSN applied, but short of a Merge contribution that the Merge engine has not taken yet, whose refusal is a NAK of
a packet not yet acknowledged (R314, R433, R443). -/
def Data.ackPsn (d : Data) (q : Nat) : Nat :=
  match d.ttx.inbox.find? (fun m => m.qp == q && m.consumer == 3) with
  | some m => psnSub m.firstPsn 1
  | none =>
    match (d.qp q).rx with
    | some r => if r.consumer = 3 ∧ !r.refused then psnSub r.firstPsn 1 else psnSub (d.qp q).epsn 1
    | none => psnSub (d.qp q).epsn 1

/-- SACK: bit i reports the held PSN ACK_PSN + 2 + i (R427). -/
def sackBits (a : Nat) (held : List (Nat × Packet)) : BitVec 64 :=
  held.foldl (fun s p => let i := psnSub p.2.psn (a + 2); if i < 64 then setBit s i true else s) 0#64

/-- Sends an ACK (R436). -/
def sendAck (k : Ctl) (d : Data) (q : Nat) (st : Status) : Data :=
  let x := d.qp q
  let a := d.ackPsn q
  (Data.sendQp k d q (x.ctrl k q 0x10 (.ack a st.code x.echo (sackBits a x.held)))).onQp q
    (fun y => { y with applied := 0, ackDue := none })

/-- Sends a NAK for the operation whose first packet had PSN `psn` (R433), counted in NAK_TX. -/
def sendNak (k : Ctl) (d : Data) (q psn : Nat) (st : Status) : Data :=
  (Data.sendQp k d q ((d.qp q).ctrl k q 0x11 (.nak psn st.code))).bump (cntAddr 0x1B 0 9) 1

/-- Queues an operation on a QP (R416). -/
def Data.enqueue (d : Data) (q : Nat) (o : TxOp) : Data :=
  d.onQp q (fun x => { x with txq := x.txq ++ [{ o with id := x.nextId, at_ := d.tick }], nextId := x.nextId + 1 })

/-- An operation with nothing in it. -/
def txOp0 : TxOp :=
  { id := 0, opc := 5, consumer := 0, cls := 0, src := none, inl := [], len := 0, target := 0, off := 0, fin := false, o1 := 0, o2 := 0,
    gop := .none, owner := .nobody, sent := 0, firstPsn := none, lastPsn := none, fail := none, got := 0, at_ := 0 }

/-- Queues a message for the peer's engine `consumer` (R426). -/
def Data.sendEngine (d : Data) (q consumer cls : Nat) (bytes : List Byte) (owner : TxOwner) : Data :=
  d.enqueue q { txOp0 with opc := 5, consumer := consumer, cls := cls, inl := bytes, len := bytes.length, owner := owner }

/-- The oldest message of a QP that waits for an engine, where it is for `consumer` and `f` holds of it. -/
def Data.peekMsg (d : Data) (q consumer : Nat) (f : InMsg → Bool) : Option InMsg :=
  match d.ttx.inbox.find? (fun m => m.qp == q) with
  | some m => if m.consumer == consumer && f m then some m else none
  | none => none

/-- Drops the first message of a QP. -/
def dropFirst (q : Nat) : List InMsg → List InMsg
  | [] => []
  | m :: r => if m.qp = q then r else m :: dropFirst q r

/-- The engine takes the oldest message of a QP; what it sends in answer takes the message's class (R484). A Merge contribution is acknowledged
then (R436). -/
def takeMsg (k : Ctl) (d : Data) (q : Nat) : Data :=
  match d.ttx.inbox.find? (fun m => m.qp == q) with
  | none => d
  | some m =>
    let d1 := Data.onQp { d with ttx := { d.ttx with inbox := dropFirst q d.ttx.inbox } } q (fun x => { x with rxCls := m.cls })
    if m.consumer = 3 then sendAck k d1 q .ok else d1

/-- The little-endian field of `n` bytes at offset `o` of a message. -/
def mfld (m : List Byte) (o n : Nat) : Nat := ofBytesLE ((m.drop o).take n)

/-- The 16-byte common header of a Spool message (R225). -/
def splHdr (type status retry sendB recvB epoch : Nat) : List Byte :=
  bytesLE 4 (type + status * 2 ^ 8 + retry % 16 * 2 ^ 16) ++ bytesLE 4 (sendB % 2 ^ 20) ++ bytesLE 4 (recvB % 2 ^ 20) ++ bytesLE 4 epoch

/-- TYPE of a Spool message. -/
def msgType (m : List Byte) : Nat := mfld m 0 1
/-- STATUS. -/
def msgStatus (m : List Byte) : Nat := mfld m 1 1
/-- RETRY. -/
def msgRetry (m : List Byte) : Nat := bitsOf (mfld m 2 1) 0 4
/-- SEND_BASKET. -/
def msgSend (m : List Byte) : Nat := bitsOf (mfld m 4 4) 0 20
/-- RECV_BASKET. -/
def msgRecv (m : List Byte) : Nat := bitsOf (mfld m 8 4) 0 20
/-- EPOCH. -/
def msgEpoch (m : List Byte) : Nat := mfld m 12 4

/-- Sends a Spool message (R225). -/
def Data.sendSpool (d : Data) (q cls : Nat) (bytes : List Byte) (owner : TxOwner) : Data := d.sendEngine q 1 cls bytes owner

/-- A Spool message sent as a receive-side step, in the class of the message that caused it (R484). -/
def Data.replySpool (d : Data) (q : Nat) (bytes : List Byte) : Data := d.sendSpool q (d.qp q).rxCls bytes .nobody

/-- A Spool message of a type that waits at the head of a QP (R226). -/
def Data.peekSpool (d : Data) (q type : Nat) : Option (List Byte) :=
  (d.peekMsg q 1 (fun m => msgType m.bytes == type)).map (fun m => m.bytes)

end Sys2Proof.Machine
end

