-- ==== Sys2Proof/Machine/Link.lean ====
section
/-!
DEFINITION. Tether links and optical engines (R398 to R409): laser inputs, calibration, lock, faults, over-temperature and received frames.
-/
namespace Sys2Proof.Machine

/-- The laser inputs that link `l` uses in a mode, as bits (R398). -/
def lasersOf (mode l : Nat) : Nat :=
  match mode with
  | 1 => 3 | 4 => 3
  | 2 => 2 ^ l | 5 => 2 ^ l
  | 3 => 2 ^ (l / 2)
  | _ => 0

/-- The lanes of link `l` in a mode (R398). -/
def lanesOf (mode l : Nat) : List Nat :=
  match mode with
  | 1 => List.range 8 | 4 => List.range 8
  | 2 => [4 * l, 4 * l + 1, 4 * l + 2, 4 * l + 3] | 5 => [4 * l, 4 * l + 1, 4 * l + 2, 4 * l + 3]
  | 3 => [2 * l, 2 * l + 1]
  | _ => []

/-- A counter of TTP_LCNT of lane `n` of port `p` (R415, R697): 0 SYM_ERR, 1 PRBS_ERR. -/
def laneCnt (p n i : Nat) : Nat := 0x1AC0000 + 0x10 * (8 * p + n) + 8 * i

/-- A counter of TTP_CNT of link `l` of port `p` (R414). -/
def ttpCnt (p l i : Nat) : Nat := cntAddr 0x1A (4 * p + l) i

/-- Bit errors of a test pattern, which only the light decides, are counted on every lane of a port (R409; DESIGN CHOICE, log entry 196). -/
def testErrors (d : Data) (p : Nat) : Data := (List.range 8).foldl (fun e n => e.bumpFree (laneCnt p n 1)) d

/-- A link's codewords come with errors that FEC corrects, which only the light decides: codewords, symbols, and the symbols of each lane are counted (R414, R415; DESIGN
CHOICE, log entry 196). -/
def corrected (k : Ctl) (d : Data) (p l : Nat) : Data :=
  (lanesOf (k.portMode p) l).foldl (fun e n => e.bumpFree (laneCnt p n 0)) ((d.bumpFree (ttpCnt p l 9)).bumpFree (ttpCnt p l 11))

/-- An engine whose inputs have not been measured. -/
def engReset : OptEng := ⟨0, 0, 0, false⟩
/-- A port's optical engine. -/
def Data.eng (d : Data) (p : Nat) : OptEng := Tab.getD d.engs p engReset
/-- Sets a port's optical engine. -/
def Data.setEng (d : Data) (p : Nat) (x : OptEng) : Data := { d with engs := Tab.put engReset d.engs p x }

/-- Whether a laser bit set of a port is OK. -/
def lasersOk (d : Data) (p mask : Nat) : Bool := (List.range 2).all (fun f => bitsOf mask f 1 == 0 || bitsOf (d.eng p).ok f 1 == 1)

/-- TEST of a port is on (R409). -/
def Ctl.portTest (k : Ctl) (p : Nat) : Bool := k.fld (ttpCfg p) 6 2 != 0

/-- A READY QP whose path the link was moves to the next UP link: its unacknowledged packets not marked in a SACK are to be sent again
(R442). -/
def failover (k : Ctl) (d : Data) (p l : Nat) : Data :=
  { d with ttx := { d.ttx with qps := Tab.mapVals d.ttx.qps (fun q x =>
      if x.state = .ready ∧ Data.pathOf k d q = some (p, l) then
        { x with unacked := x.unacked.map (fun u => if u.sacked then u else { u with again := true }) }
      else x) } }

/-- Whether the MAC of a link is in service (R37, R40). -/
def Ctl.macUp (k : Ctl) (p l : Nat) : Bool := !k.cells.contains (1024 * (64 * (p / 4) + 12 + p % 4) + l)

/-- A link leaves its state for another; that of a MAC out of service stays OFF (R40). Leaving UP or HOLD for a state that passes no frames counts LINK_DOWN where `count`, discards the
frames in its MAC, whose number is free (log entry 196), and reports to the transport (R405, R406). More than 4 departures from UP in a second set FLAP (R407). Bit errors are counted as
TEST begins and ends (R409). -/
def linkGo (k : Ctl) (d : Data) (p l : Nat) (st : LState) (count : Bool) : Data :=
  let x := d.link p l
  let wasUp := x.state == .up || x.state == .hold
  let stays := st == .up || st == .hold
  let d0 := if wasUp && !stays then failover k d p l else d
  let recent := x.leaves.filter (fun t => decide (k.ticks < t + 500000000))
  let leaves := if x.state == .up && st != .up then k.ticks :: recent else recent
  let d1 := d0.setLink p l { x with state := st, since := k.ticks, leaves := leaves, flap := x.flap || decide (4 < leaves.length) }
  let d2 := if (x.state == .test) != (st == .test) then testErrors d1 p else d1
  let d3 := if wasUp && !stays then d2.bumpFree (ttpCnt p l 13) else d2
  if st != .off && !k.macUp p l then d
  else if wasUp && !stays && count then d3.bump (ttpCnt p l 12) 1 else d3

/-- RETRY of a port in ticks (R410). -/
def Ctl.linkRetry (k : Ctl) (p : Nat) : Nat := k.fld (ttpCfg p) 32 8 * 500000

/-- A link's calibration or acquisition has failed: it starts again in the same state after RETRY (R405). -/
def linkAgain (k : Ctl) (d : Data) (p l : Nat) : Data := d.setLink p l { d.link p l with since := k.ticks + k.linkRetry p }

/-- A link enters LASER_WAIT, and leaves it at once where every input it uses is OK (R405). -/
def linkWait (k : Ctl) (d : Data) (p l : Nat) (count : Bool) : Data :=
  let d1 := linkGo k d p l .laserWait count
  let d2 := d1.setLink p l { d1.link p l with start := k.ticks }
  if lasersOk d2 p (lasersOf (k.portMode p) l) then linkGo k d2 p l (if k.portTest p then .test else .calibrate) false else d2

/-- Every link of a port, changed in turn. -/
def eachLink (d : Data) (f : Data → Nat → Data) : Data := f (f (f (f d 0) 1) 2) 3

/-- A TTP_CFG commit has changed a port's configuration (R405, R408): a new MODE takes every link to OFF and brings up the links of the
new one; TEST ended takes a link under test to ACQUIRE. -/
def portApply (k : Ctl) (d : Data) (p oldMode : Nat) : Data :=
  if k.portMode p ≠ oldMode then
    eachLink (eachLink d (fun e l => linkGo k e p l .off true)) (fun e l =>
      if l < modeLinks (k.portMode p) then linkWait k e p l false else e)
  else eachLink d (fun e l => if (e.link p l).state = .test ∧ !k.portTest p then linkGo k e p l .acquire false else e)

/-- A laser input whose power stayed below LASER_MIN for 5 µs is LOST: every link that uses it goes to LASER_WAIT (R402, R405). -/
def execLaserLost (port input : Nat) (power : BitVec 8) (s : State) : Host.Outcome State Fault Refusal :=
  onData (fun k d =>
    if 16 ≤ port ∨ 2 ≤ input ∨ k.fld (ttpCfg port) 48 8 ≤ power.toNat + 100 then d
    else
      let e := d.eng port
      let d1 := (d.setEng port { e with
        ok := if bitsOf e.ok input 1 = 1 then e.ok - 2 ^ input else e.ok
        power0 := if input = 0 then power.toNat else e.power0
        power1 := if input = 1 then power.toNat else e.power1 }).setSts (0x1A100C0 + 0x1000 * port) 2
      eachLink d1 (fun e l =>
        let st := (e.link port l).state
        if bitsOf (lasersOf (k.portMode port) l) input 1 = 1 ∧ st ≠ .off ∧ st ≠ .laserWait ∧ st ≠ .hot then
          (linkGo k e port l .laserWait true).setLink port l
            { (linkGo k e port l .laserWait true).link port l with start := k.ticks }
        else e)) s

/-- A laser input at or above LASER_MIN + 1 dB for 1 ms is OK: waiting links whose inputs are all OK calibrate, or test (R402, R405). -/
def execLaserOk (port input : Nat) (power : BitVec 8) (s : State) : Host.Outcome State Fault Refusal :=
  onData (fun k d =>
    if 16 ≤ port ∨ 2 ≤ input ∨ power.toNat + 100 < k.fld (ttpCfg port) 48 8 + 10 then d
    else
      let e := d.eng port
      let d1 := d.setEng port { e with
        ok := if bitsOf e.ok input 1 = 1 then e.ok else e.ok + 2 ^ input
        power0 := if input = 0 then power.toNat else e.power0
        power1 := if input = 1 then power.toNat else e.power1 }
      eachLink d1 (fun e l =>
        if (e.link port l).state = .laserWait ∧ lasersOk e port (lasersOf (k.portMode port) l) then
          linkGo k e port l (if k.portTest port then .test else .calibrate) false
        else e)) s

/-- Calibration ends: the link acquires, or, where it failed, calibrates again after RETRY with CAL_FAIL set (R405). -/
def execCalibrationDone (port link : Nat) (good : Bool) (s : State) : Host.Outcome State Fault Refusal :=
  onData (fun k d =>
    if (d.link port link).state ≠ .calibrate ∨ k.ticks < (d.link port link).since then d
    else if good then linkGo k d port link .acquire false
    else (linkAgain k d port link).setSts (0x1A100C0 + 0x1000 * port) 4) s

/-- Whether the reference input of a port is present (R637): REFCLK_ETH_N of ports 0 to 7, REFCLK_ETH_S of the others. -/
def Ctl.ethRef (k : Ctl) (p : Nat) : Bool := bitsOf k.tim.inputs (1 + p / 8) 1 == 1

/-- Alignment and FEC lock on every lane, with no remote fault: the link is UP (R405). -/
def execLinkLock (port link : Nat) (s : State) : Host.Outcome State Fault Refusal :=
  onData (fun k d =>
    if (d.link port link).state = .acquire ∧ (d.link port link).since ≤ k.ticks ∧ !(d.link port link).remote ∧ k.ethRef port then
      let d1 := linkGo k d port link .up false
      d1.setLink port link { d1.link port link with bringMs := Nat.min 65535 ((k.ticks - (d.link port link).start) / 500000) }
    else d) s

/-- No lock within 100 ms: ACQUIRE starts again after RETRY, still transmitting (R405). -/
def execAcquireTimeout (port link : Nat) (s : State) : Host.Outcome State Fault Refusal :=
  onData (fun k d =>
    if (d.link port link).state = .acquire ∧ (d.link port link).since + 50000000 ≤ k.ticks then linkAgain k d port link
    else d) s

/-- Loss of lock, a high symbol error rate or remote fault: an UP link goes to HOLD (R405). -/
def execLinkFault (port link : Nat) (remote : Bool) (s : State) : Host.Outcome State Fault Refusal :=
  onData (fun k d =>
    let d1 := if remote && (d.link port link).state != .off then d.setLink port link { d.link port link with remote := true } else d
    if (d1.link port link).state = .up then linkGo k d1 port link .hold false else d1) s

/-- The fault persisted for HOLD_DOWN µs: ACQUIRE, and LINK_DOWN is counted (R405). -/
def execHoldDown (port link : Nat) (s : State) : Host.Outcome State Fault Refusal :=
  onData (fun k d =>
    if (d.link port link).state = .hold ∧ (d.link port link).since + usTicks (k.fld (ttpCfg port) 24 8) ≤ k.ticks then
      linkGo k d port link .acquire true
    else d) s

/-- The fault clears: a link still in HOLD is UP again, and remote fault is no longer received (R405). -/
def execFaultClear (port link : Nat) (s : State) : Host.Outcome State Fault Refusal :=
  onData (fun k d =>
    let d1 := if (d.link port link).state = .off then d else d.setLink port link { d.link port link with remote := false }
    if (d1.link port link).state = .hold then linkGo k d1 port link .up false else d1) s

/-- An optical engine above 95 °C darkens its links; below 85 °C they wait for their lasers (R405, R412). LINK_DOWN counts departures
from UP or HOLD (R414). -/
def execEngineHot (port : Nat) (above : Bool) (s : State) : Host.Outcome State Fault Refusal :=
  onData (fun k d =>
    if 16 ≤ port then d
    else
      let d1 := d.setEng port { d.eng port with hot := above }
      if above then eachLink d1 (fun e l => if (e.link port l).state = .off then e else linkGo k e port l .hot true)
      else eachLink d1 (fun e l => if (e.link port l).state = .hot then linkWait k e port l false else e)) s

/-- An uncorrectable codeword: DEG_CW of them in a millisecond set DEGRADED (R407). -/
def codeword (k : Ctl) (d : Data) (p l : Nat) : Data :=
  let x := d.link p l
  let fresh := decide (x.cwAt + 500000 ≤ k.ticks)
  let n := if fresh then 1 else x.cwN + 1
  (d.setLink p l { x with
    cwAt := if fresh then k.ticks else x.cwAt
    cwN := n
    degraded := x.degraded || decide (k.fld (ttpCfg p) 40 8 ≤ n) }).bump (ttpCnt p l 10) 1

/-- A link receives a frame of `len` bytes (R399, R400, R406): one with a bad FCS or an uncorrectable codeword, a runt, an oversize, a
PAUSE frame or one not addressed to the link is discarded and counted; any other is counted and handed on. -/
def execFrameReceive (port link len : Nat) (fcs codewords pause : Bool) (dst : BitVec 48) (s : State) :
    Host.Outcome State Fault Refusal :=
  onData (fun k d0 =>
    let c := fun i => ttpCnt port link i
    let st := (d0.link port link).state
    let d := corrected k d0 port link
    if 16 ≤ port ∨ 4 ≤ link ∨ (st ≠ .up ∧ st ≠ .hold) then d0
    else if !codewords then (codeword k d port link).bump (c 4) 1
    else if !fcs then d.bump (c 4) 1
    else if len < 64 then d.bump (c 5) 1
    else if k.fld (ttpCfg port) 8 14 < len then d.bump (c 6) 1
    else if pause then d.bump (c 8) 1
    else if dst.toNat ≠ k.fld (0x1A10080 + 0x1000 * port + 8 * link) 0 48 ∧ dst ≠ BitVec.allOnes 48 ∧ !Config.multicastOn dst.toNat then
      d.bump (c 7) 1
    else (d.bump (c 1) 1).bump (c 3) len) s

end Sys2Proof.Machine
end

