-- ==== Sys2Proof/Machine/BasketRec.lean ====
section
/-!
DEFINITION. The Basket record as words (R89, R90), `bsk.load` and `bsk.store` (R582), the event rings (R114, R117), the refusals of R94 and
the changes of state that the protocol shares.
-/
namespace Sys2Proof.Machine

/-- A bit as a number. -/
def b2n (b : Bool) : Nat := if b then 1 else 0

/-- STATE codes (R91). -/
def BState.code : BState → Nat
  | .free => 0 | .admitted => 1 | .inPrefix => 2 | .prefill => 3 | .pushing => 4 | .handing => 5 | .anchor => 6 | .decoding => 7
  | .speculating => 8 | .parked => 9 | .orphaned => 0xA | .releasing => 0xB

/-- The 8-byte word at byte 8W of a record (R89). -/
def Basket.word (x : Basket) (w : Nat) : Word :=
  match w with
  | 0 => BitVec.ofNat 64 (x.state.code + b2n x.anchor * 2 ^ 4 + b2n x.receiver * 2 ^ 5 + b2n x.held * 2 ^ 6 + b2n x.decoded * 2 ^ 7 +
      x.part % 16 * 2 ^ 8 + x.tenant % 2 ^ 16 * 2 ^ 12 + x.model % 2 ^ 12 * 2 ^ 28 + x.retries % 16 * 2 ^ 40 + x.lastStatus % 256 * 2 ^ 44)
  | 1 => BitVec.ofNat 64 (x.epoch.toNat + x.peerBasket % 2 ^ 20 * 2 ^ 32)
  | 2 => BitVec.ofNat 64 (x.peerNode % 2 ^ 16 + x.qp % 2 ^ 14 * 2 ^ 16 + b2n x.nodeKnown * 2 ^ 30 + b2n x.qpKnown * 2 ^ 31 +
      b2n x.basketKnown * 2 ^ 32)
  | 3 => BitVec.ofNat 64 (x.adapter.toNat + x.budget.toNat * 2 ^ 32)
  | 4 => BitVec.ofNat 64 (x.ptRoot % 2 ^ 48)
  | 5 => BitVec.ofNat 64 (x.seqLen % 2 ^ 32 + x.tailLen % 2 ^ 7 * 2 ^ 32 + x.layersIn % 2 ^ 9 * 2 ^ 39)
  | 6 => BitVec.ofNat 64 x.admitTime
  | 7 => BitVec.ofNat 64 x.stateTime
  | 8 => BitVec.ofNat 64 (x.pages % 2 ^ 32 + x.shared % 2 ^ 32 * 2 ^ 32)
  | 9 => x.user
  | _ => if 16 ≤ w ∧ w < 32 then BitVec.ofNat 64 (fld x.rt (64 * (w - 16)) 64) else 0#64

/-- Whether a Basket's PEER fields accept program writes (R96, R242): an origin in ADMITTED, PREFIX or PREFILL, or back in ANCHOR without
HELD and without ever having decoded. -/
def Basket.peerOpen (x : Basket) : Bool :=
  !x.receiver && (x.state == .admitted || x.state == .inPrefix || x.state == .prefill ||
    (x.state == .anchor && !x.held && !x.decoded))

/-- The bits of word `w` that a program may write in the Basket's state (R89, R96, R242). -/
def Basket.writeMask (x : Basket) (w : Nat) : Word :=
  if w = 9 ∨ (16 ≤ w ∧ w < 32) then BitVec.allOnes 64
  else if w = 1 ∧ x.peerOpen then BitVec.ofNat 64 (maskOf 32 20)
  else if w = 2 ∧ x.peerOpen then BitVec.ofNat 64 (maskOf 0 33)
  else 0#64

/-- Sets the program-written fields of word `w`. -/
def Basket.setWord (x : Basket) (w : Nat) (v : Word) : Basket :=
  if w = 9 then { x with user := v }
  else if 16 ≤ w then { x with rt := setBits x.rt (64 * (w - 16)) 64 v.toNat }
  else if w = 1 then { x with peerBasket := fld v 32 20 }
  else if w = 2 then
    { x with peerNode := fld v 0 16, qp := fld v 16 14, nodeKnown := bitAt v 30, qpKnown := bitAt v 31, basketKnown := bitAt v 32 }
  else x

/-- The status that R94 and R618 give an operation by the Basket's state alone, where every state but FREE and ORPHANED passes. -/
def Basket.liveCheck (x : Basket) : Option Status :=
  if x.lost then some .uncorrectable
  else
    match x.state with
    | .free => some .notAnchor
    | .orphaned => some .orphaned
    | _ => none

/-- The status that the Basket's state alone gives an operation of an engine: while a release is in progress, NOT_ANCHOR, since neither R93 nor R94 lists the pair and ANCHOR
is 0 (R94). -/
def Basket.opCheck (x : Basket) : Option Status :=
  match x.liveCheck with
  | some e => some e
  | none => if x.state = .releasing then some .notAnchor else none

/-- Of the state refusals of two Baskets that one operation names, the first by R81: UNCORRECTABLE (R618), ORPHANED, NOT_ANCHOR, then any other. -/
def stateOf2 (a b : Option Status) : Option Status :=
  match [Status.uncorrectable, .orphaned, .notAnchor].find? (fun s => a == some s || b == some s) with
  | some s => some s
  | none => firstOf [a, b]

/-- A free value of a run: the next of Config.freeValue. -/
def Data.fresh (d : Data) : Word × Data := (BitVec.ofNat 64 (Config.freeValue d.free), { d with free := d.free + 1 })

/-- `bsk.load`: writes word W of the record to sV, whatever the Basket's state, and the status to sS (R582). The record of a LOST Basket
has no stated content (R618): a free value. -/
def execBskLoad (t : Nat) (p : BitVec 2) (rv rb : BitVec 5) (w : BitVec 5) (rs : BitVec 5) (s : State) :
    Host.Outcome State Fault Refusal :=
  onData (fylInstr t p 8 (fun k d th =>
    let b := fld (th.sReg rb.toNat) 0 20
    let x := d.basket b
    let out := fun (e : Data) v st => e.setThr t (((th.setS rv.toNat v).setS rs.toNat (statusWord st)).next 8)
    if k.bskPart b ≠ some th.part then out d 0#64 .perm
    else if x.lost then out d.fresh.2 d.fresh.1 .uncorrectable
    else out (d.touchRec b false) (x.word w.toNat) ((x.liveCheck).getD .ok))) s

/-- `bsk.store`: writes the bits of sV that sM selects where every one of them is a program's to write; else PERM and nothing (R582). -/
def execBskStore (t : Nat) (p : BitVec 2) (rv rb rm : BitVec 5) (w : BitVec 5) (rs : BitVec 5) (s : State) :
    Host.Outcome State Fault Refusal :=
  onData (fylInstr t p 8 (fun k d th =>
    let b := fld (th.sReg rb.toNat) 0 20
    let x := d.basket b
    let m := th.sReg rm.toNat
    let st : Status :=
      if k.bskPart b ≠ some th.part then .perm
      else match x.liveCheck with
        | some e => e
        | none => if m = 0#64 then .okEmpty else if m &&& ~~~ x.writeMask w.toNat = 0#64 then .ok else .perm
    let d1 := d.setThr t ((th.setS rs.toNat (statusWord st)).next 8)
    if st = .ok then
      d1.setBasket b (x.setWord w.toNat ((x.word w.toNat &&& ~~~ m) ||| (th.sReg rv.toNat &&& m)))
    else d1)) s

/-! ### Event rings -/

/-- The counts of an event ring: records written and records consumed since its last accepted commit (R117). -/
def Data.evt (d : Data) (r : Nat) : Nat × Nat := Tab.getD d.evts r (0, 0)

/-- Writes a record to event ring `r`: the record, then PROD, then the doorbell (R117). A full ring, or one never committed, drops it and
sets bit `lost` of the status word at `sts`, and counts it (R115). Record k lies at the slot that PROD, modulo 2^32, gives: with a SIZE that is no power of two the
slots follow PROD where it wraps (DESIGN CHOICE, log entry 178). The rings are numbered 0 to 15 for the Basket rings, 16 for the fabric ring and 17
for the RAS ring; `key` is the address of the ring's first word. -/
def evtPush (k : Ctl) (d : Data) (r key entry : Nat) (bytes : List Byte) (p door sts lost : Nat) : Data :=
  let size := k.fld key 48 16
  let e := d.evt r
  if size = 0 ∨ (e.1 + 2 ^ 32 - e.2) % 2 ^ 32 = size then
    { d.setSts sts lost with bsk := { d.bsk with dropped := Tab.put 0 d.bsk.dropped r (Tab.getD d.bsk.dropped r 0 + 1) } }
  else
    let d1 := d.wrBytes (k.fld key 6 42 * 64 + entry * (e.1 % size)) bytes
    (ringDoor k { d1 with evts := Tab.put (0, 0) d1.evts r ((e.1 + 1) % 2 ^ 32, e.2) } p door).1

/-- MBX_PDB of a partition (R558). -/
def Ctl.bskDoor (k : Ctl) (p : Nat) : Nat := k.fld (0x0640080 + 0x1000 * p) 0 16

/-- Raises a Basket event (R114): 1 HANDOFF_REVERTED, 2 HANDOFF_REFUSED, 3 ORPHANED, 4 LATE_COMMIT_FREED, 5 LEDGER_FULL. -/
def bskEvent (k : Ctl) (d : Data) (b ev : Nat) : Data :=
  let x := d.basket b
  evtPush k d x.part (0x1140040 + 0x1000 * x.part) 16
    (bytesLE 8 (ev + x.lastStatus % 256 * 2 ^ 8 + b % 2 ^ 20 * 2 ^ 16 + x.epoch.toNat % 2 ^ 28 * 2 ^ 36) ++ bytesLE 8 k.ns)
    x.part (k.bskDoor x.part) 0x1100080 0

/-! ### States and timers -/

/-- A counter of BSK_CNT of a partition (R119): 1 HIGH_WATER, 2 NOSPACE, 3 REVERTED, 4 ORPHANS, 5 LATE. -/
def bskCnt (p i : Nat) : Nat := cntAddr 0x11 p i

/-- HANDOFF_TMO in ticks (R116). -/
def Ctl.handoffTmo (k : Ctl) : Nat := k.fld 0x1100040 0 16 * 5000
/-- RETRY_MAX. -/
def Ctl.retryMax (k : Ctl) : Nat := k.fld 0x1100040 16 4
/-- PUSH_TMO in ticks. -/
def Ctl.pushTmo (k : Ctl) : Nat := k.fld 0x1100040 32 16 * 50000
/-- FIRST_TMO in ticks. -/
def Ctl.firstTmo (k : Ctl) : Nat := k.fld 0x1100040 48 16 * 500000

/-- A change of STATE, with STATE_TIME; the state's ANCHOR is set with it. -/
def Basket.enter (k : Ctl) (x : Basket) (st : BState) (anchor : Bool) (deadline : Option Nat) : Basket :=
  { x with state := st, anchor := anchor, stateTime := k.ns, deadline := deadline }

/-- Decode operations of a Basket by its state (R94, R112): refused until it is anchor and not held, and while a park waits. -/
def Basket.decodeCheck (k : Ctl) (x : Basket) : Option Status :=
  match x.opCheck with
  | some e => some e
  | none =>
    match x.state with
    | .anchor => if x.held then some .notAnchor else if !x.parks.isEmpty || x.budPark then some .notAnchor
        else if x.receiver || k.role == 4 then none else some .badDesc
    | .decoding => if x.parks.isEmpty && !x.budPark then none else some .notAnchor
    | .speculating => none
    | _ => some .notAnchor

/-- The first decode operation accepted moves ANCHOR to DECODING, whatever status it then completes with (R93). -/
def Basket.decodeEnter (k : Ctl) (x : Basket) : Basket :=
  if x.state = .anchor then { (x.enter k .decoding true none) with decoded := true } else x

/-- The pair of operation and state that neither R93 nor R94 lists (R94). -/
def Basket.noRule (x : Basket) : Status := if x.anchor then .badDesc else .notAnchor

/-- A remote `bsk.query` (R109): the Basket that it names is the other Kratal's (DEDUCED, log entry 175). -/
def Op.asksPeer (o : Op) : Bool := o.eng == 0xA && o.op == 2 && fld o.desc 20 1 == 1

/-- In role P+G, work on a Basket in ADMITTED, PREFIX, PREFILL, PUSHING or HANDING is prompt work; all other work is generation work (R239). -/
def promptBsk (k : Ctl) (d : Data) (b : Nat) : Bool :=
  k.role == 4 && (match (d.basket b).state with | .admitted | .inPrefix | .prefill | .pushing | .handing => true | _ => false)

/-- Whether a thread is prompt work at the slots that R20 lists: its Basket is one of a request that is not decoding (DEDUCED, log entry 179). -/
def promptThread (k : Ctl) (d : Data) (th : Thread) : Bool := match th.bsk with | some b => promptBsk k d b | none => false

/-- Whether an operation is prompt work (R239): `pull.pages`, `feed.layer` and `push.prefix`, and every Spool operation that names a Basket of that kind. -/
def promptOp (k : Ctl) (d : Data) (o : Op) : Bool :=
  k.role == 4 && o.eng == 1 && (o.op == 2 || o.op == 3 || o.op == 4 || (o.op != 5 && (match o.bsk with | some b => promptBsk k d b | none => false)))

/-- The operations, as (thread, operation), that name a Basket of this Kratal and have no posted completion (R79). -/
def opsOf (d : Data) (b : Nat) : List (Nat × Nat) :=
  d.fyl.threads.flatMap (fun e => (e.2.ops.filter (fun o => o.bsk == some b && !o.asksPeer)).map (fun o => (e.1, o.id)))

/-- An operation of a thread. -/
def Data.op (d : Data) (t id : Nat) : Option Op :=
  match d.thr t with
  | some th => th.ops.find? (fun o => o.id == id)
  | none => none

/-- The class of an operation (R484). -/
def opCls (d : Data) (t id : Nat) : Nat :=
  match d.op t id with
  | some o => o.cls
  | none => 0

/-- Whether an operation is outstanding and not finished. -/
def Data.live (d : Data) (t id : Nat) : Bool :=
  match d.op t id with
  | some o => o.done.isNone
  | none => false

/-- An operation comes to name a Basket (R87). -/
def Data.nameBasket (d : Data) (t id b : Nat) : Data :=
  d.onThr t (fun th => { th with ops := th.ops.map (fun o => if o.id = id then { o with bsk := some b } else o) })

end Sys2Proof.Machine
end

