-- ==== Sys2Proof/Machine/SailQ.lean ====
section
/-!
DEFINITION. Sail units, their issues and the streams of the Merge engines as tables: lookups, what is on its way to a stream, the END markers of R302,
and what an abort takes away (R79, R302, R314).
-/
namespace Sys2Proof.Machine

/-- A unit that has done nothing; its first refresh falls due one interval after power-on (R278). -/
def unitReset : SUnit :=
  { queue := [], cur := none, left := 0, since := 0, due := 1950, refresh := false, part := none, ran := none, lost := false }

/-- The unit of global bank `g`. -/
def Data.sunit (d : Data) (g : Nat) : SUnit := Tab.getD d.sal.units g unitReset

/-- Sets the unit of a bank. -/
def Data.setUnit (d : Data) (g : Nat) (u : SUnit) : Data := { d with sal := { d.sal with units := Tab.put unitReset d.sal.units g u } }

/-- An issue. -/
def Data.sissue (d : Data) (i : Nat) : Option SIssue := d.sal.issues.find? (fun x => x.id == i)

/-- Changes an issue. -/
def Data.onIssue (d : Data) (i : Nat) (f : SIssue → SIssue) : Data :=
  { d with sal := { d.sal with issues := d.sal.issues.map (fun x => if x.id = i then f x else x) } }

/-- A counter of MRG_CNT of an engine (R320): 0 FOLDS, 1 MOVES, 2 ROWS_OUT, 3 PEER_IN, 4 LATE_ROWS, 5 TIMEOUTS, 6 AREA_BYTES. -/
def mrgCnt (e c : Nat) : Nat := cntAddr 0x15 e c
/-- MRG_STS (R319). -/
def mrgSts : Nat := 0x1500080

/-- A stream completes with TIMEOUT (R319, R320). -/
def streamLate (d : Data) (e : Nat) : Data := (d.setSts mrgSts 0).bump (mrgCnt e 5) 1

/-- The open stream `s` (64 × engine + stream): its `mrg.open` has not completed (R308). -/
def Data.mstream (d : Data) (s : Nat) : Option MStream :=
  match Tab.get? d.mrg.streams s with
  | some m => if d.live m.thread m.opId then some m else none
  | none => none
/-- Sets a stream. -/
def Data.setStream (d : Data) (s : Nat) (m : MStream) : Data := { d with mrg := { d.mrg with streams := Tab.set d.mrg.streams s m } }
/-- What is on its way to a stream. -/
def Data.wireOf (d : Data) (s : Nat) : List WItem := Tab.getD d.mrg.wire s []
/-- Sends to a stream. -/
def Data.toStream (d : Data) (s : Nat) (l : List WItem) : Data :=
  { d with mrg := { d.mrg with wire := Tab.put [] d.mrg.wire s (d.wireOf s ++ l) } }

/-- Whether a unit still has a command of an issue. -/
def SUnit.has (u : SUnit) (iss : Nat) : Bool :=
  u.queue.any (fun c => c.iss == iss) || (match u.cur with | some c => c.iss == iss | none => false)

/-- Every stack with no command of an issue left sends the END marker it owes, with ABORT where a command of it was aborted (R286, R302). -/
def sendMarks (d : Data) (iss : Nat) : Data :=
  match d.sissue iss with
  | none => d
  | some x =>
    match x.stream with
    | none => d
    | some s =>
      let due := x.owed.filter (fun i => !d.sal.units.any (fun e => e.1 % 4 == i && e.2.has iss))
      (d.onIssue iss (fun y => { y with owed := y.owed.filter (fun i => !due.contains i) })).toStream s 
        (due.map (fun _ => WItem.mark (x.res.any (fun y => y.2.1 == .aborted))))

/-- Commands of issues whose operation is gone leave the units; the markers still owed are sent with ABORT (R302). -/
def sailPurge (d : Data) : Data :=
  let gone := d.sal.issues.filter (fun x => !d.live x.thread x.opId)
  let dead := fun (c : SCmd) => gone.any (fun x => x.id == c.iss)
  let d1 := { d with sal := { d.sal with
    issues := d.sal.issues.filter (fun x => d.live x.thread x.opId)
    units := Tab.mapVals d.sal.units (fun _ u => { u with
      queue := u.queue.filter (fun c => !dead c)
      cur := u.cur.filter (fun c => !dead c) }) } }
  gone.foldl (fun e x =>
    match x.stream with
    | some s => e.toStream s (x.owed.map (fun _ => WItem.mark true))
    | none => e) d1

/-- Streams whose `mrg.open` is gone are closed (R314). -/
def mrgPurge (d : Data) : Data :=
  { d with mrg := { d.mrg with streams := d.mrg.streams.filter (fun x => d.live x.2.thread x.2.opId) } }

end Sys2Proof.Machine
end

