-- ==== Sys2Proof/Machine/Slots.lean ====
section
/-!
DEFINITION. The definitions of staging windows (R515, R529), their counts, and the release of IN slots (R517, R519).
-/
namespace Sys2Proof.Machine

/-- The key of BDL_WDEF word `m` of window `w`. -/
def wdef (w m : Nat) : Nat := objKey (0x1F10200 + 8 * m) w
/-- VALID of a window. -/
def Ctl.winOn (k : Ctl) (w : Nat) : Bool := decide (w < 1024) && k.fld (wdef w 0) 0 1 == 1
/-- DIR: whether a window is OUT. -/
def Ctl.winOut (k : Ctl) (w : Nat) : Bool := k.fld (wdef w 0) 1 1 == 1
/-- KIND: whether a window is a query ring. -/
def Ctl.winQuery (k : Ctl) (w : Nat) : Bool := k.fld (wdef w 0) 2 1 == 1
/-- FMT: whether a window's elements are FP16. -/
def Ctl.winFp16 (k : Ctl) (w : Nat) : Bool := k.fld (wdef w 0) 3 1 == 1
/-- The half of a window, as 2 × port + half. -/
def Ctl.winHalf (k : Ctl) (w : Nat) : Nat := 2 * k.fld (wdef w 0) 4 2 + k.fld (wdef w 0) 6 1
/-- REMOTE. -/
def Ctl.winRemote (k : Ctl) (w : Nat) : Bool := k.fld (wdef w 0) 7 1 == 1
/-- Owner partition. -/
def Ctl.winPart (k : Ctl) (w : Nat) : Nat := k.fld (wdef w 0) 8 4
/-- SLOTS. -/
def Ctl.winSlots (k : Ctl) (w : Nat) : Nat := k.fld (wdef w 0) 12 12
/-- Bytes of a slot. -/
def Ctl.winSlotBytes (k : Ctl) (w : Nat) : Nat := k.fld (wdef w 0) 24 20 * 1024
/-- ADDR. -/
def Ctl.winAddr (k : Ctl) (w : Nat) : Nat := (k.word (wdef w 1)).toNat
/-- APOFF in bytes. -/
def Ctl.winApoff (k : Ctl) (w : Nat) : Nat := k.fld (wdef w 2) 10 26 * 1024
/-- CREDIT_ADDR. -/
def Ctl.winCredit (k : Ctl) (w : Nat) : Nat := (k.word (wdef w 3)).toNat

/-- The refusals of R515: a window that is not VALID, or of another partition, direction or kind. -/
def Ctl.winCheck (k : Ctl) (p w : Nat) (out query : Bool) : Option Status :=
  if !k.winOn w then some .badDesc
  else if k.winPart w ≠ p ∨ k.winOut w ≠ out ∨ k.winQuery w ≠ query then some .perm
  else none

/-- A window whose counts are as its commit leaves them (R517, R521). -/
def winReset : Win := ⟨0, 0, [], [], false, []⟩
/-- The counts of a window. -/
def Data.win (d : Data) (w : Nat) : Win := Tab.getD d.bdl.wins w winReset
/-- Sets the counts of a window. -/
def Data.setWin (d : Data) (w : Nat) (x : Win) : Data := { d with bdl := { d.bdl with wins := Tab.put winReset d.bdl.wins w x } }

/-- The count k of the slot that the Kratal holds as slot `s` (R517, R519). -/
def Win.heldCount (x : Win) (slots s : Nat) : Option Nat :=
  ((List.range (x.prod - x.rel)).map (fun i => x.rel + i)).find? (fun c => c % Nat.max 1 slots == s && !x.released.contains c)

/-- RELEASED advances over the released slots that begin at it. -/
def advance (released : List Nat) : Nat → Nat → Nat
  | 0, r => r
  | n + 1, r => if released.contains r then advance released n (r + 1) else r

/-- Releases a slot the Kratal holds (R519); an advance of RELEASED leaves a credit word due. -/
def releaseSlot (k : Ctl) (d : Data) (w s : Nat) : Data × Bool :=
  let x := d.win w
  match x.heldCount (k.winSlots w) s with
  | none => (d, false)
  | some c =>
    let rel := x.released ++ [c]
    let r := advance rel rel.length x.rel
    (d.setWin w { x with
      rel := r
      released := rel.filter (fun y => decide (r ≤ y))
      creditDue := x.creditDue || r != x.rel
      times := x.times.drop (r - x.rel) }, true)

end Sys2Proof.Machine
end

