-- ==== Sys2Proof/Machine/Handoff.lean ====
section
/-!
DEFINITION. Aborts of a scope (R79), release (R113), orphans (R110, R243), credit (R232, R233), the handoff protocol and its ledger (R102 to
R107), and the ownership query (R109).
-/
namespace Sys2Proof.Machine

/-! ### Aborting the operations of a scope -/

/-- The IN slot of a `push.layer` that completes before its compaction has read it returns to the accelerator's credit (R218), where the window is one that the push may
read. One that completes with BAD_DESC touches nothing (R220; DEDUCED, log entry 189). -/
def slotBack (k : Ctl) (d : Data) (p : Nat) (o : Op) : Data :=
  if o.eng = 1 ∧ o.op = 0 ∧ df o.desc 12 0 21 ≠ 0 ∧ (k.winCheck p (df o.desc 16 0 16) false false).isNone then
    (releaseSlot k d (df o.desc 16 0 16) (df o.desc 18 0 8)).1
  else d

/-- The IN slot of an operation that ends before its engine has started it. -/
def Data.unread (k : Ctl) (d : Data) (t id : Nat) : Data :=
  match d.thr t with
  | none => d
  | some th =>
    match th.ops.find? (fun o => o.id == id && !o.started && o.done.isNone) with
    | none => d
    | some o => slotBack k d th.part o

/-- A layer that has carried nothing. -/
def layer0 : LayerCtx := ⟨0, false, none, 0, 0, 0⟩

/-- A push context without the operations that have ended: the layer of each goes on from the first position not landed (R224). -/
def PushCtx.drop (c : PushCtx) (live : Nat × Nat → Bool) : PushCtx :=
  { c with
    ops := c.ops.filter (fun o => live (o.thread, o.opId))
    endOp := c.endOp.filter live
    layers := (c.ops.filter (fun o => !live (o.thread, o.opId))).foldl (fun ls o =>
      Tab.set ls o.layer { Tab.getD ls o.layer layer0 with next := o.upTo }) c.layers }

/-- The owner of an unanswered run once only the contexts `ctxs` are there (R224, R226). -/
def RunOwner.after (ctxs : Tab PushCtx) (o : RunOwner) : RunOwner :=
  match o with
  | .push b l =>
    match Tab.get? ctxs b with
    | none => .gone
    | some c => if c.ops.any (fun y => y.layer == l) then o else .stray b
  | .stray b => if Tab.has ctxs b then o else .gone
  | _ => o

/-- The unanswered runs with their owners as they are now. -/
def reown (d : Data) : Data :=
  { d with spl := { d.spl with flight := d.spl.flight.map (fun (r : RunTx) => { r with owner := r.owner.after d.spl.ctxs }) } }

/-- The message OFFER_Q: MODEL, COUNT and the chain hashes. -/
def offerQMsg (b m : Nat) (hs : List Nat) : List Byte :=
  splHdr 0x18 0 0 b 0xFFFFF 0 ++ bytesLE 2 m ++ bytesLE 2 hs.length ++ bytesLE 4 0 ++ hs.flatMap (fun h => bytesLE 8 h)

/-- An offer that no earlier one of its Basket on its QP precedes sends its OFFER_Q (R250): the messages name an offer by Basket and QP alone, so that one is in progress
at a time (DESIGN CHOICE, log entry 190). -/
def nextOffers : List OfferOp → Data → Data
  | [], d => d
  | o :: r, d =>
    if o.waits && (d.qp o.qp).state == .ready && (d.spl.offers.find? (fun y => y.qp == o.qp && y.bsk == o.bsk)).map (fun y => y.id) == some o.id then
      nextOffers r (Data.sendSpool { d with spl := { d.spl with
        offers := d.spl.offers.map (fun (y : OfferOp) => if y.id = o.id then { y with waits := false } else y) } }
        o.qp (opCls d o.thread o.opId) (offerQMsg o.bsk (d.basket o.bsk).model o.hashes) .nobody)
    else nextOffers r d

/-- Drops what the engines keep for operations that are finished or gone. -/
def purge (d0 : Data) : Data :=
  let d := mrgPurge (sailPurge d0)
  let ok := fun (x : Nat × Nat) => d.live x.1 x.2
  let ctxs := Tab.mapVals d.spl.ctxs (fun _ c => c.drop ok)
  let pulls := d.spl.pulls.filter (fun x => d.live x.thread x.opId)
  let offers := d.spl.offers.filter (fun x => d.live x.thread x.opId)
  let keepRun := fun (r : RunTx) =>
    match r.owner with
    | .push b l => (match Tab.get? ctxs b with | some c => c.ops.any (fun o => o.layer == l) | none => false)
    | .serve _ => true
    | .offer i => offers.any (fun x => x.id == i)
    | .stray _ | .gone => false
  nextOffers offers <| reown { d with
    spl := { d.spl with
      ctxs := ctxs
      pulls := pulls
      offers := offers
      queries := d.spl.queries.filter (fun x => d.live x.1 x.2.1)
      sendq := d.spl.sendq.filter keepRun }
    bsk := { d.bsk with tab := Tab.mapVals d.bsk.tab (fun _ x => { x with parks := x.parks.filter ok }) }
    bdl := { d.bdl with jobs := d.bdl.jobs.filter (fun j => d.live j.thread j.opId) }
    trf := { d.trf with
      charges := d.trf.charges.filter (fun c => d.live c.thread c.opId)
      meterHeld := d.trf.meterHeld.filter (fun h => d.live h.thread h.opId) }
    mat := { d.mat with
      dels := d.mat.dels.map (fun x => { x with owner := x.owner.filter ok })
      evicts := d.mat.evicts.filter (fun e => d.live e.thread e.opId)
      lookups := d.mat.lookups.filter (fun x => d.live x.thread x.opId) }
    ttx := { d.ttx with qps := Tab.mapVals d.ttx.qps (fun _ x => { x with
      txq := x.txq.filterMap (fun o =>
        match o.owner with
        | .thr t i _ | .fab t i _ | .eng t i _ | .mrg _ t i =>
          if d.live t i then some o else if o.firstPsn.isNone then none else some { o with owner := .nobody, fail := some .aborted }
        | _ => some o)
      connOp := x.connOp.filter ok }) }
    adp := { d.adp with
      retires := d.adp.retires.filter (fun x => d.live x.1 x.2.1)
      commits := d.adp.commits.filter (fun x => d.live x.thread x.opId)
      fetches := d.adp.fetches.filter (fun x => d.live x.1 x.2.1) } }

/-- The pages that an operation has landed: COUNT of a layer push, whatever its status (R224). -/
def landedPages (d : Data) (t op : Nat) : Nat :=
  match (d.spl.ctxs.flatMap (fun x => x.2.ops)).find? (fun o => o.thread == t && o.opId == op) with
  | some o => o.landed
  | none => 0

/-- Every operation of a list completes with a status, its pins dropped and an IN slot that it has not read returned (R218); ABORTED replaces a completion that is not in
the ring yet (R79). -/
def abortList (k : Ctl) (d : Data) (l : List (Nat × Nat)) (st : Status) : Data :=
  purge (l.foldl (fun e0 x =>
    let e := e0.unread k x.1 x.2
    deltaDone k (dropPins
      (if st = .aborted then e.abort x.1 x.2 (landedPages d x.1 x.2) else e.finish x.1 x.2 st (landedPages d x.1 x.2) 0) x.1 x.2) x.1 x.2) d)

/-- Every unfinished operation that names a Basket, but for those of `keep`, completes with a status. -/
def abortBasketOps (k : Ctl) (d : Data) (b : Nat) (st : Status) (keep : List (Nat × Nat)) : Data :=
  abortList k d ((opsOf d b).filter (fun x => !keep.contains x)) st

/-! ### Credit -/

/-- Units of a body: 1 KiB each, rounded up (R232). -/
def unitsOf (bytes : Nat) : Nat := ceilDiv bytes 1024

/-- CREDIT_MAX (R252). -/
def Ctl.creditMax (k : Ctl) : Nat := k.fld 0x1300040 0 14

/-- Units that Spool `s` has not granted (R233). -/
def freeUnits (d : Data) (s : Nat) : Nat :=
  12288 - (d.spl.granted.filter (fun x => x.1 % 4 == s)).foldl (fun n x => n + x.2) 0

/-- Grants units to a QP. -/
def grantTo (d : Data) (key n : Nat) : Data :=
  { d with spl := { d.spl with granted := Tab.put 0 d.spl.granted key (Tab.getD d.spl.granted key 0 + n) } }

/-- What a grant of `want` units to a QP may be: within CREDIT_MAX and the free units. -/
def mayGive (k : Ctl) (d : Data) (key want : Nat) : Nat :=
  Nat.min want (Nat.min (k.creditMax - Tab.getD d.spl.granted key 0) (freeUnits d (key % 4)))

/-- Grants to the QPs that wait for units of Spool `s`, in turn, while each shortfall can be met in full; each grant is a CREDIT message
of KIND 1 (R226, R233). -/
def giveWaiting (k : Ctl) : List (Nat × Nat × Nat) → Data → Data
  | [], d => d
  | (key, n, _) :: r, d =>
    if n ≤ mayGive k d key n then
      let d1 := grantTo { d with spl := { d.spl with waiting := d.spl.waiting.filter (fun x => x.1 != key) } } key n
      giveWaiting k r (d1.replySpool (key / 4) (splHdr 0x03 0 0 0xFFFFF (key % 4) 0 ++ bytesLE 2 n ++ bytesLE 1 1))
    else giveWaiting k r d

/-- The waiting QPs are granted: those whose run is generation work before those whose run is prompt work (R240). -/
def serveWaiting (k : Ctl) (d : Data) : Data :=
  giveWaiting k (d.spl.waiting.filter (fun x => !promptBsk k d x.2.2) ++ d.spl.waiting.filter (fun x => promptBsk k d x.2.2)) d

/-- A run's units return to the buffer (R233), and waiting QPs are granted. -/
def returnUnits (k : Ctl) (d : Data) (q s n : Nat) : Data :=
  let key := 4 * q + s
  let d1 := { d with spl := { d.spl with granted := Tab.put 0 d.spl.granted key (Tab.getD d.spl.granted key 0 - n) } }
  serveWaiting k d1

/-- Answers a run with LANDED (R226): pages landed, and a grant that tops the QP up toward CREDIT_MAX where it has ever asked (R233). -/
def sendLanded (k : Ctl) (d : Data) (q s : Nat) (m : List Byte) (st : Status) (pages : Nat) : Data :=
  let key := 4 * q + s
  let g := if d.spl.asked.contains key then mayGive k d key (k.creditMax - Tab.getD d.spl.granted key 0) else 0
  (grantTo d key g).replySpool q
    (splHdr 0x02 st.code 0 (msgSend m) (msgRecv m) (msgEpoch m) ++ bytesLE 4 pages ++ bytesLE 2 g)

/-- A counter of SPL_CNT of a Spool (R255): 0 RUNS_TX, 1 RUNS_RX, 2 BYTES_TX, 3 BYTES_RX, 4 CREDIT_WAIT, 5 DISCARDED, 6 PROMPT_YIELD. -/
def splCnt (s i : Nat) : Nat := cntAddr 0x13 s i

/-! ### Push contexts -/

/-- The push context of a Basket. -/
def Data.ctx (d : Data) (b : Nat) : Option PushCtx := Tab.get? d.spl.ctxs b
/-- Replaces a push context. -/
def Data.setCtx (d : Data) (b : Nat) (c : PushCtx) : Data := { d with spl := { d.spl with ctxs := Tab.set d.spl.ctxs b c } }
/-- Frees a push context, with the runs it still holds (R216). -/
def closeCtx (d : Data) (b : Nat) : Data :=
  reown { d with spl := { d.spl with
    ctxs := Tab.erase d.spl.ctxs b
    sendq := d.spl.sendq.filter (fun r => match r.owner with | .push x _ => x != b | _ => true) } }
/-- A context that has carried nothing. -/
def ctx0 (lp : Bool) : PushCtx := ⟨[], 0, 0, lp, [], none, none, none⟩
/-- A layer of a context. -/
def PushCtx.layer (c : PushCtx) (l : Nat) : LayerCtx := Tab.getD c.layers l layer0
/-- Whether Spool `b mod 4` has a free context (R216). -/
def ctxFree (d : Data) (b : Nat) : Bool := decide ((d.spl.ctxs.filter (fun x => x.1 % 4 == b % 4)).length < 4096)

/-! ### Release and orphans -/

/-- The `push.end` of a Basket whose offer has its answer: COMMIT completes it with OK before the release that follows (R104), which so does not abort it. -/
def offerEnded (d : Data) (b : Nat) : List (Nat × Nat) :=
  match d.ctx b with
  | some c =>
    match c.endOp with
    | some (t, op) => if (d.thr t).any (fun th => th.ops.any (fun o => o.id == op && o.done.isSome)) then [(t, op)] else []
    | none => []
  | none => []

/-- A release begins (R113, R93): the Basket's operations complete with ABORTED but for those of `keep`, its adapter is unpinned, and it enters RELEASING. -/
def releaseStart (k : Ctl) (d : Data) (b : Nat) (keep : List (Nat × Nat)) : Data :=
  let x := d.basket b
  let d1 := closeCtx (abortBasketOps k d b .aborted (keep ++ offerEnded d b)) b
  let d2 := if fld x.adapter 0 16 = 0xFFFF then d1 else adpUnpin k d1 x.part x.adapter.toNat
  d2.onBasket b (fun y => { (y.enter k .releasing false none) with
    held := false
    parks := []
    budPark := false
    releases := keep })

/-- A release ends (R113): the frames are freed or dereferenced and counted, the record is written back, the Basket is FREE, and every `bsk.release` that the release
completes posts OK, or UNCORRECTABLE for a LOST Basket (R618). -/
def releaseEnd (k : Ctl) (d : Data) (b : Nat) : Data × Nat :=
  let x := d.basket b
  let r := freeAllPages k d b
  (x.releases.foldl (fun e y => e.finish y.1 y.2 (if x.lost then .uncorrectable else .ok) r.2 0) ((r.1.setBasket b (Basket.freed k.ns)).cleanRec b), r.2)

/-- A whole release, of a partition that is torn down (R93). -/
def releaseBasket (k : Ctl) (d : Data) (b : Nat) : Data := (releaseEnd k (releaseStart k d b []) b).1

/-- The runs of a Basket still in the landing buffer are discarded: each is answered STALE_EPOCH with 0 pages and its units return
(R243). -/
def discardRuns (k : Ctl) (d : Data) (b : Nat) : Data :=
  let isRun := fun (m : InMsg) => m.consumer == 1 && msgType m.bytes == 0x01 && msgRecv m.bytes == b
  let mine := d.ttx.inbox.filter isRun
  mine.foldl (fun e m =>
    let e1 := returnUnits k (e.bump (splCnt (b % 4) 5) 1) m.qp (b % 4) (unitsOf (mfld m.bytes 32 4))
    sendLanded k e1 m.qp (b % 4) m.bytes .staleEpoch 0) { d with
      ttx := { d.ttx with inbox := d.ttx.inbox.filter (fun m => !isRun m) }
      spl := { d.spl with refused := d.spl.refused.filter (fun y => y.recvB != b) } }

/-- A receiver becomes ORPHANED (R110): LAST_STATUS, its frames freed, its waiting operations complete with ORPHANED, then the event. -/
def orphan (k : Ctl) (d : Data) (b : Nat) (st : Status) : Data :=
  let d1 := d.onBasket b (fun x => { (x.enter k .orphaned false none) with lastStatus := st.code })
  let d2 := (freeAllPages k d1 b).1
  let d3 := closeCtx (discardRuns k (abortBasketOps k d2 b .orphaned []) b) b
  bskEvent k (d3.bump (bskCnt (d.basket b).part 4) 1) b 3

/-! ### The handoff -/

/-- The `push.end` of a Basket completes (R237): COUNT is the pages of the push. -/
def finishOffer (d : Data) (b : Nat) (st : Status) : Data :=
  match d.ctx b with
  | some c =>
    match c.endOp with
    | some (t, op) => d.finish t op st c.pages 0
    | none => d
  | none => d

/-- The origin leaves HANDING, or PUSHING through HANDING, for ANCHOR (R93, R104, R106, R107, R241): HELD, LAST_STATUS, the offer's
status, the event, and REVERTED where `count`. -/
def backToAnchor (k : Ctl) (d : Data) (b : Nat) (held : Bool) (st : Status) (ev : Nat) (count : Bool) : Data :=
  let d1 := d.onBasket b (fun x => { (x.enter k .anchor true none) with held := held, lastStatus := st.code })
  let d2 := closeCtx (finishOffer d1 b st) b
  bskEvent k (if count then d2.bump (bskCnt (d.basket b).part 3) 1 else d2) b ev

/-- The END record of a message (R235). -/
def endRecOf (m : List Byte) : EndRec := ⟨bitsOf (mfld m 16 2) 0 9, mfld m 20 4, mfld m 24 4, mfld m 32 8⟩

/-- The message of an OFFER (TYPE 0x04) or a RE-OFFER (0x07) (R235). -/
def offerMsg (type retry b : Nat) (x : Basket) (r : EndRec) : List Byte :=
  splHdr type 0 retry b x.peerBasket x.epoch.toNat ++ bytesLE 2 r.layers ++ bytesLE 2 0 ++ bytesLE 4 r.seq ++ bytesLE 4 r.pages ++
    bytesLE 4 0 ++ bytesLE 8 r.check ++ bytesLE 8 0

/-- The end-of-push check (R236), on the receiver's context. -/
def endCheck (k : Ctl) (d : Data) (b : Nat) (r : EndRec) : Bool :=
  let x := d.basket b
  match d.ctx b with
  | none => false
  | some c =>
    r.layers == k.mdlLayers x.model && r.layers == x.layersIn && x.state == .pushing &&
    (List.range r.layers).all (fun l => (c.layer l).fin && (c.layer l).next == r.seq) &&
    r.pages == c.pages && r.check == c.check

/-- The ledger of a QP (R105): entry e, at `ledgerDpa` of the QP and e, is the list's item e, and an entry beyond its end is empty. -/
def Data.ledger (d : Data) (q : Nat) : List LedgerEntry := Tab.getD d.bsk.ledgers q []

/-- Whether a ledger holds the commit of an offer. -/
def inLedger (l : List LedgerEntry) (b node sendB : Nat) (e1 : BitVec 32) : Bool :=
  l.any (fun x => x.recvBasket == b && x.sendNode == node && x.sendBasket == sendB && x.epoch == e1)

/-- The place of the oldest entry of a ledger, with its time of commit. -/
def ledgerOldest (l : List LedgerEntry) : Option (Nat × Nat) :=
  l.zipIdx.foldl (fun (b : Option (Nat × Nat)) x =>
    match b with
    | some y => if x.1.time < y.2 then some (x.2, x.1.time) else b
    | none => some (x.2, x.1.time)) none

/-- The ledger with a new entry: in an empty place, else in that of the oldest entry whose age exceeds the hold time; none where it is
full of younger ones (R105). -/
def ledgerAdd (k : Ctl) (l : List LedgerEntry) (e : LedgerEntry) : Option (List LedgerEntry) :=
  if l.length < 64 then some (l ++ [e])
  else
    match ledgerOldest l with
    | some o => if o.2 + k.fld 0x1100040 0 16 * 10000 * (k.retryMax + 2) < k.ns then some (l.set o.1 e) else none
    | none => none

/-- Whether the peer fields of a Basket match a message on a QP: the sending node, the QP and the peer's Basket (R100). -/
def peerMatch (d : Data) (q sendB : Nat) (x : Basket) : Bool :=
  x.qpKnown && x.qp == q && x.nodeKnown && x.peerNode == (d.qp q).peerNode && x.basketKnown && x.peerBasket == sendB

/-- Answers a message of re-anchoring, on a QP that is READY (R102, R107). -/
def replyTo (d : Data) (q : Nat) (m : List Byte) (type : Nat) (st : Nat) : Data :=
  if (d.qp q).state = .ready then d.replySpool q (splHdr type st 0 (msgSend m) (msgRecv m) (msgEpoch m)) else d

/-- An arrival or reply that meets no Basket waiting for it is counted in LATE (R104, R111, R119). -/
def countLate (d : Data) (q : Nat) : Data := d.bump (bskCnt (d.qp q).part 5) 1

/-- The receiver judges an OFFER or a RE-OFFER (R103). After a REFUSE with NO_SPACE the receiver's PUSH_TMO runs on from its last arrival (DESIGN CHOICE, log entry
178). -/
def judgeOffer (k : Ctl) (d : Data) (q : Nat) (m : List Byte) : Data :=
  let b := msgRecv m
  let x := d.basket b
  let e := BitVec.ofNat 32 (msgEpoch m)
  let r := endRecOf m
  let mt := peerMatch d q (msgSend m) x
  let ledger := fun (d : Data) =>
    if inLedger (d.ledger q) b (d.qp q).peerNode (msgSend m) (e + 1) then replyTo d q m 0x08 0 else replyTo d q m 0x09 0
  if x.receiver && mt && x.epoch == e && (x.state == .pushing || x.state == .admitted) then
    if !endCheck k d b r then replyTo (orphan k d b .checkFail) q m 0x06 Status.checkFail.code
    else
      match ledgerAdd k (d.ledger q) ⟨b, (d.qp q).peerNode, msgSend m, e + 1, k.ns⟩ with
      | none => replyTo (bskEvent k (d.setSts 0x1100080 1) b 5) q m 0x06 Status.noSpace.code
      | some l =>
        let d1 := d.onBasket b (fun y => { (y.enter k .anchor true none) with epoch := e + 1, seqLen := r.seq })
        let d2 := closeCtx { d1 with bsk := { d1.bsk with ledgers := Tab.set d1.bsk.ledgers q l } } b
        replyTo d2 q m 0x05 0
  else if mt && x.epoch == e + 1 &&
      (x.state == .anchor || x.state == .decoding || x.state == .speculating || x.state == .parked) then
    replyTo (countLate d q) q m 0x08 0
  else if mt && x.state == .orphaned then replyTo (countLate d q) q m 0x06 Status.orphaned.code
  else ledger (countLate d q)

/-- Whether a reply on a QP is for the handoff of an origin Basket: its peer fields and epoch match (R100, R104). -/
def replyMatch (d : Data) (q : Nat) (m : List Byte) : Bool :=
  let x := d.basket (msgSend m)
  !x.receiver && peerMatch d q (msgRecv m) x && x.epoch == BitVec.ofNat 32 (msgEpoch m)

/-- The origin receives COMMIT or ANCHORED (R104): it releases its copy and completes the offer with OK; an origin that had reverted with
HELD raises LATE_COMMIT_FREED. -/
def takeCommit (k : Ctl) (d : Data) (q : Nat) (m : List Byte) : Data :=
  let b := msgSend m
  let x := d.basket b
  if replyMatch d q m && x.state == .handing then
    let d1 := finishOffer d b .ok
    releaseStart k d1 b []
  else if replyMatch d q m && x.state == .anchor && x.held then releaseStart k (bskEvent k d b 4) b []
  else countLate d q

/-- The status of a REFUSE; a code that R80 does not list is taken as CHECK_FAIL. -/
def refuseStatus (m : List Byte) : Status := (Status.ofCode? (msgStatus m)).getD .checkFail

/-- The origin receives REFUSE (R104). -/
def takeRefuse (k : Ctl) (d : Data) (q : Nat) (m : List Byte) : Data :=
  let b := msgSend m
  let x := d.basket b
  let st := refuseStatus m
  if replyMatch d q m && x.state == .handing then backToAnchor k d b false st 2 false
  else if replyMatch d q m && x.state == .anchor && x.held then
    bskEvent k (d.onBasket b (fun y => { y with held := false, lastStatus := st.code })) b 2
  else countLate d q

/-- HANDOFF_TMO expires in HANDING (R106): a RE-OFFER while RETRIES is below RETRY_MAX, else the origin reverts with TIMEOUT. -/
def handoffTmo (k : Ctl) (d : Data) (b : Nat) : Data :=
  let x := d.basket b
  match x.deadline, d.ctx b with
  | some t, some c =>
    if x.state ≠ .handing ∨ k.ticks < t then d
    else if x.retries < k.retryMax then
      let d1 := d.onBasket b (fun y => { y with retries := y.retries + 1, deadline := some (k.ticks + k.handoffTmo) })
      match c.endRec with
      | some r =>
        if (d.qp x.qp).state = .ready then d1.sendSpool x.qp (match c.endOp with | some e => opCls d e.1 e.2 | none => 0) (offerMsg 0x07 (x.retries + 1) b x r) .nobody else d1
      | none => d1
    else backToAnchor k d b true .timeout 1 true
  | _, _ => d

/-- Every outstanding layer push of an origin completes with the status that cuts the push off (R241), COUNT its pages landed. -/
def cutPush (d : Data) (b : Nat) (st : Status) : Data :=
  match d.ctx b with
  | none => d
  | some c =>
    let d1 := c.ops.foldl (fun e o => e.finish o.thread o.opId st o.landed 0) d
    let d2 := d1.setCtx b { c with ops := [], failed := some st }
    reown { d2 with spl := { d2.spl with sendq := d2.spl.sendq.filter (fun r => match r.owner with | .push x _ => x != b | _ => true) } }

/-- The `push.end` of a push that was cut off: the Basket passes through HANDING to ANCHOR, with HELD unless an answer NOT_ANCHOR or
STALE_EPOCH cut it off (R241). -/
def endCut (k : Ctl) (d : Data) (b : Nat) (st : Status) : Data :=
  if st = .notAnchor ∨ st = .staleEpoch then backToAnchor k d b false st 2 true else backToAnchor k d b true st 1 true

/-- A push cut off whose `push.end` was waiting ends with it. -/
def cutAndEnd (k : Ctl) (d : Data) (b : Nat) (st : Status) : Data :=
  let d1 := cutPush d b st
  match d1.ctx b with
  | some c => if c.endOp.isSome then endCut k d1 b st else d1
  | none => d1

/-- A push QP fails with a status (R107, R110, R241): a HANDING origin reverts with HELD, a PUSHING origin's push is cut off, a receiver
that awaits its push is orphaned. -/
def pushQpFail (k : Ctl) (d : Data) (q : Nat) (st : Status) : Data :=
  (d.bsk.tab.filter (fun e => e.2.qpKnown && e.2.qp == q)).foldl (fun e x =>
    let y := e.basket x.1
    if y.state = .handing then backToAnchor k e x.1 true st 1 true
    else if y.state = .pushing ∧ !y.receiver then
      (if (match e.ctx x.1 with | some c => c.localPush | none => false) then e else cutAndEnd k e x.1 st)
    else if (y.state = .pushing ∨ y.state = .admitted) ∧ y.receiver then orphan k e x.1 st
    else e) d

/-! ### The ownership query -/

/-- ANSWER (R109, R618). -/
def queryAnswer (d : Data) (b : Nat) (e : BitVec 32) : Nat :=
  let x := d.basket b
  if x.lost then 7
  else if x.state = .free ∨ x.state = .releasing then
    (if d.bsk.ledgers.any (fun l => l.2.any (fun y => y.recvBasket == b && y.epoch == e + 1)) then 5 else 6)
  else if x.state = .orphaned then 4
  else if x.anchor then (if x.epoch = e then 0 else if x.epoch = e + 1 then 1 else 7)
  else if x.epoch ≠ e then 7
  else if x.state = .handing then 2
  else 3

/-- DETAIL of a query (R109). -/
def queryDetail (d : Data) (b : Nat) (e : BitVec 32) : Nat :=
  let x := d.basket b
  queryAnswer d b e + b2n x.held * 16 + b2n x.anchor * 32 + x.state.code * 64 + x.epoch.toNat % 2 ^ 22 * 1024

end Sys2Proof.Machine
end

