-- ==== Sys2Proof/Machine/Issue.lean ====
section
/-!
DEFINITION. Engine issues (R73, R575 to R577, R580): the copy of the descriptor into the engine's queue, the issue order of R489, the meters an
operation must pass first (R486, R487), and the frame of an engine's work on one operation.
-/
namespace Sys2Proof.Machine

/-- R7 for a descriptor: every bit outside the listed fields (byte, bit, width) is zero. -/
def descOk (x : Desc) (l : List (Nat × Nat × Nat)) : Bool :=
  reservedZero x (l.map (fun f => (8 * f.1 + f.2.1, f.2.2)))

/-- What an engine does with an operation of a thread. -/
abbrev EngRun := Ctl → Data → Nat → Nat → Data

/-- The frame of an engine's work: the thread and the operation, whose Basket's record comes through its slice (R97), or nothing where either is gone or already finished. -/
def engRun (f : Ctl → Data → Nat → Nat → Thread → Op → Data) : EngRun := fun k d t id =>
  match d.thr t with
  | none => d
  | some th =>
    match th.ops.find? (fun o => o.id == id) with
    | none => d
    | some o => if o.done.isSome then d else f k (match o.bsk with | some b => if o.asksPeer then d else d.touchRec b false | none => d) t id th o

/-- An engine's work behind the checks of R81: the first that fails decides the status. -/
def checked (d : Data) (t id : Nat) (l : List (Option Status)) (f : Data) : Data :=
  match firstOf l with
  | some st => d.finish t id st 0 0
  | none => f

/-- The operations that R487 meters, by engine and operation. -/
def meteredKind (eng op : Nat) : Bool :=
  match eng with
  | 1 => op == 0 || op == 2 || op == 3 || op == 4
  | 2 => op == 3
  | 3 => op == 0
  | 4 => op == 1
  | 6 => op == 3 || op == 5 || op == 6 || op == 7
  | 7 => decide (op < 4)
  | 8 => decide (op < 2)
  | 10 => op == 10
  | _ => false

/-- Whether an operation is a decode operation (R93): `kv.append`, `sail.attn`, `sail.delta`. -/
def Op.decode (o : Op) : Bool := (o.eng == 9 && o.op == 2) || (o.eng == 2 && (o.op == 2 || o.op == 3))

/-- How a meter stands to an operation (R486): not metered, above TENANTS, or metered by the entry at an address. -/
inductive Metering where
  | pass
  | unmetered
  | entry (a : Nat)
deriving DecidableEq, Repr

/-- The meter of an operation (R486, R487): `env.unpack` is metered with DST_KIND Bridle only. -/
def metering (k : Ctl) (d : Data) (th : Thread) (o : Op) : Metering :=
  if o.metered || !meteredKind o.eng o.op || th.part == 0 || (o.eng == 4 && df o.desc 24 4 2 != 1) then .pass
  else
    match th.bsk with
    | none => .pass
    | some b =>
      let tn := (d.basket (o.bsk.getD b)).tenant
      if (k.mtab th.part).2 ≤ tn then .unmetered
      else
        let a := (k.mtab th.part).1 + 64 * (8 * tn + th.cls)
        if d.rd (a + 16) 1 % 2 = 0 then .pass else .entry a

/-- A decode operation of thread `t` that a waiting `spec.commit` of its Basket holds: one issued behind it (R340). -/
def commitHolds (d : Data) (t : Nat) (o : Op) (b : Nat) : Bool :=
  o.decode && d.adp.commits.any (fun c => c.bsk == b && !c.before.contains (t, o.id))

/-- The engines blocked after an engine has been offered an operation: one that it has left unstarted holds the later ones (R489). -/
def stillHead (d : Data) (t : Nat) (o : Op) (blocked : List Nat) : List Nat :=
  match d.thr t with
  | none => blocked
  | some th => if th.ops.any (fun x => x.id == o.id && !x.started && x.done.isNone) then o.eng :: blocked else blocked

/-- Starts the unstarted operations of a thread from the oldest on, engine by engine in issue order, until each engine's next is one that
its meter has still to colour (R487, R489), or a decode operation that a waiting `spec.commit` holds (R340). The stream of a `mrg.open` opens at its issue all the
same, and its output waits for the colour (R307, R487). -/
def startOps (run : Nat → Nat → EngRun) (k : Ctl) (t : Nat) : List Op → Data → List Nat → Data
  | [], d, _ => d
  | o :: r, d, blocked =>
    if o.started || o.done.isSome then startOps run k t r d blocked
    else if blocked.contains o.eng || (match o.bsk with | some b => commitHolds d t o b | none => false) then
      startOps run k t r d (o.eng :: blocked)
    else
      match d.thr t with
      | none => d
      | some th =>
        match metering k d th o with
        | .entry _ => if o.eng = 3 then startOps run k t r (run o.eng o.op k d t o.id) blocked else startOps run k t r d (o.eng :: blocked)
        | .unmetered => startOps run k t r (run o.eng o.op k (d.setSts 0x1D00080 4) t o.id) (stillHead (run o.eng o.op k (d.setSts 0x1D00080 4) t o.id) t o blocked)
        | .pass => startOps run k t r (run o.eng o.op k d t o.id) (stillHead (run o.eng o.op k d t o.id) t o blocked)

/-- An issue that finds all 32 entries reserved and none outstanding discards the oldest held completion; one outside class 0x0 is
recorded as LOST (R580). -/
def Thread.dropOldest (th : Thread) : Thread :=
  if th.reserved < 32 then th
  else
    match th.held with
    | [] => th
    | c :: r => { th with held := r, lost := if c.status.good then th.lost else some (c.status, c.tag) }

/-- The number of a thread's next operation: operations are numbered as they are issued, so no outstanding one has it. -/
def Thread.freshOp (th : Thread) : Nat := th.ops.foldl (fun n o => Nat.max n (o.id + 1)) th.nextOp

/-- The issues that a snapshot hold keeps back (R466): transport operations that send, fabric accesses, and Spool transmissions. -/
def heldKind (eng op : Nat) : Bool :=
  match eng with
  | 1 => op == 0 || op == 1 || op == 2 || op == 4
  | 6 => op == 3 || op == 5 || op == 6 || op == 7
  | 7 => decide (op < 4)
  | _ => false

/-- Whether a partition is under a snapshot hold (R466). -/
def Data.heldPart (d : Data) (p : Nat) : Bool := d.fab.holds.any (fun h => h.1 == p)

/-- An engine issue (R575, R576, R580): with all 32 entries reserved and an operation outstanding the thread yields; else d(DS) is copied
into the engine's queue with the tag and pre-colour of s(TS), and the engine starts it unless an earlier operation of the thread to it,
or its meter, holds it (R489). An issue that a snapshot
hold keeps back waits in the same way (R466). `nm` is the Basket that the operation names (R75). -/
def issue (eng opc : Nat) (nm : Thread → Desc → Option Nat) (run : EngRun) (t : Nat) (p : BitVec 2) (ts : BitVec 5) (ds : BitVec 4) :
    Ctl → Data → Data :=
  fylInstr t p 4 (fun k d th =>
    if (th.reserved = 32 ∧ !th.ops.isEmpty) ∨ (heldKind eng opc && d.heldPart th.part) then d.yieldThr t (some .issue)
    else
      let th1 := th.dropOldest
      let o : Op :=
        { id := th1.freshOp, eng := eng, op := opc, tag := fld (th.sReg ts.toNat) 0 16, pre := fld (th.sReg ts.toNat) 16 2, cls := th.cls,
          bsk := nm th (th.dReg ds.toNat), desc := th.dReg ds.toNat, started := false, done := none, since := k.ticks }
      let w : Option Wait := if eng = 7 ∧ opc = 0 then some (.block o.id) else none
      let d1 := d.setThr t (({ th1 with ops := th1.ops ++ [o], nextOp := th1.freshOp + 1, wait := w }).next 4)
      let held := th1.ops.any (fun x => x.eng == eng && !x.started && x.done.isNone)
      if held then d1 else startOps (fun _ _ => run) k t [o] d1 [])

/-- The operation names no Basket. -/
def noBsk : Thread → Desc → Option Nat := fun _ _ => none
/-- The operation names the thread's Basket. -/
def thrBsk : Thread → Desc → Option Nat := fun th _ => th.bsk
/-- The operation names the Basket in bytes 0–3 of its descriptor. -/
def descBsk : Thread → Desc → Option Nat := fun _ x => some (df x 0 0 20)

/-- An issue that found all 32 entries reserved waits while an operation is outstanding; the issue itself is made when the thread runs
again (R73, R580). A thread whose entries are not all reserved, or that has nothing outstanding, does not wait. -/
def execEngineIssueFullWait (t : Nat) (s : State) : Host.Outcome State Fault Refusal :=
  onData (fun _ d =>
    match d.thr t with
    | some th => if th.running && th.reserved == 32 && !th.ops.isEmpty then d.yieldThr t (some .issue) else d
    | none => d) s

/-- The region of a thread's tile (R34). -/
def regionOf (t : Nat) : Nat := tileOf t / 4

/-- The operation is refused while block `b` of region `r` is fenced or in reset (R40, R81). -/
def Ctl.offCheck (k : Ctl) (r b : Nat) : Option Status := failIf (!k.up r b) .domainOff

/-- A Basket outside the thread's partition is refused (R94, R587). -/
def Ctl.bskCheck (k : Ctl) (th : Thread) (b : Nat) : Option Status := failIf (k.bskPart b != some th.part) .perm

end Sys2Proof.Machine
end

