-- ==== Sys2Proof/Machine/BasketOps.lean ====
section
/-!
DEFINITION. The Basket block's operations (R87, R95, R96, R578, R109, R113), the timers of Baskets (R106, R110), the messages of
re-anchoring (R102 to R104, R107) and the remote ownership query (R109, R226).
-/
namespace Sys2Proof.Machine

/-! ### Admission -/

/-- The lowest FREE ID from `x` on, in steps of 4, below `hi`. -/
def freeIdFrom (tab : Tab Basket) (hi : Nat) : Nat → Nat → Option Nat
  | 0, _ => none
  | n + 1, x =>
    if hi ≤ x then none
    else
      match Tab.get? tab x with
      | some r => if r.state = .free then some x else freeIdFrom tab hi n (x + 4)
      | none => some x

/-- The lowest FREE ID of a partition in slice `s`; none where the slice is fenced (R87). -/
def freeId (k : Ctl) (d : Data) (p s : Nat) : Option Nat :=
  if !k.up s 21 then none
  else freeIdFrom d.bsk.tab (k.bskBase p + k.bskCount p) (k.bskCount p / 4 + 1) (k.bskBase p + (s + 4 - k.bskBase p % 4) % 4)

/-- The ID that an admission takes, by the partition's slice turn (R87). Where the only FREE IDs lie in slices that are fenced or in reset there is none, and the
admission ends with NO_SPACE as with a full range (DESIGN CHOICE, log entry 178). -/
def admitId (k : Ctl) (d : Data) (p : Nat) : Option Nat :=
  let turn := Tab.getD d.bsk.turn p 0
  (List.range 4).findSome? (fun i => freeId k d p ((turn + i) % 4))

/-- The well-formedness of an admission descriptor (R95, R96). -/
def admitBad (k : Ctl) (d : Data) (p : Nat) (x : Desc) : Bool :=
  let side := df x 0 0 1
  let nk := df x 16 30 1
  let qk := df x 16 31 1
  let bk := df x 20 20 1
  let q := df x 16 16 14
  let h := df x 12 0 32
  !descOk x [(0, 0, 29), (8, 0, 32), (12, 0, 32), (16, 0, 32), (20, 0, 21), (24, 0, 32), (32, 0, 64)] ||
  df x 8 0 32 == 0xFFFFFFFF ||
  !k.mdlOn (df x 0 17 12) ||
  (h % 65536 != 0xFFFF &&
    (match adpFind k d p h with
     | some (a, _) => bitsOf (d.rd a 8) 32 2 != 1
     | none => true)) ||
  (side == 1 && (nk == 0 || qk == 0 || bk == 0)) ||
  (nk == 0 && df x 16 0 16 != 0) || (qk == 0 && q != 0) || (bk == 0 && df x 20 0 20 != 0) ||
  (qk == 1 && !(decide (k.qpBase p ≤ q) && decide (q < k.qpBase p + k.qpCount p)))

/-- The permissions of an admission (R96, R587). -/
def admitPerm (k : Ctl) (p : Nat) (x : Desc) : Bool :=
  let side := df x 0 0 1
  let tn := df x 0 1 16
  k.role == 0 || k.role == 3 || (side == 0 && k.role == 2) || (side == 1 && k.role == 1) ||
  !(decide (k.tenBase p ≤ tn) && decide (tn < k.tenBase p + k.tenCount p)) ||
  k.mdlPart (df x 0 17 12) != p

/-- The record that an admission writes (R89, R93, R95). -/
def admitRecord (k : Ctl) (p : Nat) (x : Desc) : Basket :=
  let side := df x 0 0 1 == 1
  { Basket.freed k.ns with
    state := .admitted
    anchor := !side
    receiver := side
    part := p
    tenant := df x 0 1 16
    model := df x 0 17 12
    epoch := BitVec.ofNat 32 (df x 8 0 32)
    peerBasket := df x 20 0 20
    peerNode := df x 16 0 16
    qp := df x 16 16 14
    nodeKnown := df x 16 30 1 == 1
    qpKnown := df x 16 31 1 == 1
    basketKnown := df x 20 20 1 == 1
    adapter := BitVec.ofNat 32 (df x 12 0 32)
    budget := BitVec.ofNat 32 (df x 24 0 32)
    admitTime := k.ns
    user := BitVec.ofNat 64 (df x 32 0 64)
    deadline := if side then some (k.ticks + k.firstTmo) else none }

/-- Baskets of a partition that are not FREE: IN_USE of R119. -/
def inUse (d : Data) (p : Nat) : Nat := (d.bsk.tab.filter (fun e => e.2.state != .free && e.2.part == p)).length

/-- `bsk.admit` (R87, R88, R96). -/
def runBskAdmit : EngRun := engRun (fun k d t id th o =>
  let p := th.part
  let x := o.desc
  checked d t id [failIf (admitBad k d p x) .badDesc, failIf (admitPerm k p x) .perm]
    (match admitId k d p with
     | none => ((d.setSts 0x1100080 2).bump (bskCnt p 2) 1).finish t id .noSpace 0 0
     | some b =>
       let d1 := d.setBasket b (admitRecord k p x)
       let d2 := if df x 12 0 16 = 0xFFFF then d1 else adpPin k d1 p (df x 12 0 32)
       let d3 := { d2 with bsk := { d2.bsk with turn := Tab.set d2.bsk.turn p ((b % 4 + 1) % 4) } }
       ((d3.highWater (bskCnt p 1) (inUse d3 p)).nameBasket t id b).finish t id .ok 0 b))

/-- `bsk.admit`: the issue (R575); it names no Basket until it succeeds (R87). -/
def execBskAdmit (t : Nat) (p : BitVec 2) (ts : BitVec 5) (ds : BitVec 4) (s : State) : Host.Outcome State Fault Refusal :=
  onData (issue 0xA 0 noBsk runBskAdmit t p ts ds) s

/-! ### The short operations -/

/-- The checks that the short Basket operations share (R81, R94): reserved bits, the partition, the slice. -/
def shortChecks (k : Ctl) (th : Thread) (x : Desc) : List (Option Status) :=
  let b := df x 0 0 20
  [failIf (!descOk x [(0, 0, 20)]) .badDesc, k.bskCheck th b, k.offCheck (b % 4) 21]

/-- `bsk.release` (R93, R94, R113): the Basket enters RELEASING, or the release joins the one in progress; COUNT is then the frames freed or dereferenced. A LOST
Basket is released with UNCORRECTABLE (R618). -/
def runBskRelease : EngRun := engRun (fun k d t id th o =>
  let b := df o.desc 0 0 20
  let x := d.basket b
  checked d t id (shortChecks k th o.desc ++ [failIf (!x.lost && (x.state == .free || x.state == .handing)) .notAnchor])
    (if x.state = .releasing then (d.onBasket b (fun y => { y with releases := y.releases ++ [(t, id)] })).start t id
     else releaseStart k (d.start t id) b [(t, id)]))

/-- `bsk.release`: the issue. -/
def execBskRelease (t : Nat) (p : BitVec 2) (ts : BitVec 5) (ds : BitVec 4) (s : State) : Host.Outcome State Fault Refusal :=
  onData (issue 0xA 1 descBsk runBskRelease t p ts ds) s

/-- Whether an operation of a kind that names a Basket has not been posted yet. -/
def anyOp (d : Data) (b : Nat) (f : Op → Bool) : Bool :=
  d.fyl.threads.any (fun e => e.2.ops.any (fun o => o.bsk == some b && f o))

/-- A park, of `bsk.park` or of a deferred charge, takes place once every accepted decode operation of the Basket has completed (R93,
R112, R497). -/
def settlePark (k : Ctl) (d : Data) (b : Nat) : Data :=
  let x := d.basket b
  if (x.parks.isEmpty && !x.budPark) || anyOp d b Op.decode then d
  else
    let d1 := if x.state = .anchor ∨ x.state = .decoding then d.onBasket b (fun y => y.enter k .parked true none) else d
    let d2 := d1.onBasket b (fun y => { y with parks := [], budPark := false })
    x.parks.foldl (fun e q => e.finish q.1 q.2 .ok 0 0) d2

/-- `bsk.park` (R93, R94, R112). -/
def runBskPark : EngRun := engRun (fun k d t id th o =>
  let b := df o.desc 0 0 20
  let x := d.basket b
  checked d t id (shortChecks k th o.desc ++ [x.opCheck, failIf (x.state != .anchor && x.state != .decoding) x.noRule])
    (settlePark k ((d.onBasket b (fun y => { y with parks := y.parks ++ [(t, id)] })).start t id) b))

/-- `bsk.park`: the issue. -/
def execBskPark (t : Nat) (p : BitVec 2) (ts : BitVec 5) (ds : BitVec 4) (s : State) : Host.Outcome State Fault Refusal :=
  onData (issue 0xA 3 descBsk runBskPark t p ts ds) s

/-- `bsk.resume` (R93, R578). -/
def runBskResume : EngRun := engRun (fun k d t id th o =>
  let b := df o.desc 0 0 20
  let x := d.basket b
  checked d t id (shortChecks k th o.desc ++ [x.opCheck, failIf (x.state != .parked) .badDesc])
    ((d.onBasket b (fun y => y.enter k .anchor true none)).finish t id .ok 0 0))

/-- `bsk.resume`: the issue. -/
def execBskResume (t : Nat) (p : BitVec 2) (ts : BitVec 5) (ds : BitVec 4) (s : State) : Host.Outcome State Fault Refusal :=
  onData (issue 0xA 4 descBsk runBskResume t p ts ds) s

/-- `bsk.unhold` (R93, R94, R108). -/
def runBskUnhold : EngRun := engRun (fun k d t id th o =>
  let b := df o.desc 0 0 20
  let x := d.basket b
  checked d t id
    (shortChecks k th o.desc ++ [x.opCheck, failIf (!x.held) .badDesc, failIf (x.state != .anchor) x.noRule])
    ((d.onBasket b (fun y => { y with held := false })).finish t id .ok 0 0))

/-- `bsk.unhold`: the issue. -/
def execBskUnhold (t : Nat) (p : BitVec 2) (ts : BitVec 5) (ds : BitVec 4) (s : State) : Host.Outcome State Fault Refusal :=
  onData (issue 0xA 5 descBsk runBskUnhold t p ts ds) s

/-- `bsk.prefill` (R93, R578). -/
def runBskPrefill : EngRun := engRun (fun k d t id th o =>
  let b := df o.desc 0 0 20
  let x := d.basket b
  checked d t id
    (shortChecks k th o.desc ++
      [x.opCheck, failIf (x.receiver || !(x.state == .admitted || x.state == .inPrefix || x.state == .prefill)) .badDesc])
    ((if x.state = .admitted then d.onBasket b (fun y => y.enter k .prefill true none) else d).finish t id .ok 0 0))

/-- `bsk.prefill`: the issue. -/
def execBskPrefill (t : Nat) (p : BitVec 2) (ts : BitVec 5) (ds : BitVec 4) (s : State) : Host.Outcome State Fault Refusal :=
  onData (issue 0xA 13 descBsk runBskPrefill t p ts ds) s

/-! ### The ownership query -/

/-- `bsk.query` (R109, R578): locally the answer in DETAIL; remotely a QUERY on the QP. -/
def runBskQuery : EngRun := engRun (fun k d t id th o =>
  let x := o.desc
  let b := df x 0 0 20
  let e := BitVec.ofNat 32 (df x 4 0 32)
  let q := df x 8 0 14
  if df x 0 20 1 = 0 then
    checked d t id
      [failIf (!descOk x [(0, 0, 21), (4, 0, 32), (8, 0, 14)]) .badDesc, k.bskCheck th b, k.offCheck (b % 4) 21]
      (d.finish t id .ok 0 (queryDetail d b e))
  else
    checked d t id
      [failIf (!descOk x [(0, 0, 21), (4, 0, 32), (8, 0, 14)]) .badDesc, failIf (k.qpPart q != some th.part) .perm,
       (d.qp q).refusal]
      (let d1 := (d.start t id).sendSpool q o.cls (splHdr 0x0A 0 0 0xFFFFF b e.toNat) (.spool t id)
       { d1 with spl := { d1.spl with queries := d1.spl.queries ++ [(t, id, q, b, e.toNat)] } }))

/-- `bsk.query`: the issue. -/
def execBskQuery (t : Nat) (p : BitVec 2) (ts : BitVec 5) (ds : BitVec 4) (s : State) : Host.Outcome State Fault Refusal :=
  onData (issue 0xA 2 descBsk runBskQuery t p ts ds) s

/-- A received QUERY is answered from the Basket and the ledger; a Basket of another partition than the QP's gets PERM (R109). -/
def execQuery (qp : Nat) (s : State) : Host.Outcome State Fault Refusal :=
  onData (fun k d =>
    match d.peekSpool qp 0x0A with
    | none => d
    | some m =>
      let b := msgRecv m
      let ok := k.bskPart b == some (d.qp qp).part
      let d1 := takeMsg k d qp
      if (d.qp qp).state ≠ .ready then d1
      else d1.replySpool qp
        (splHdr 0x0B (if ok then Status.ok else Status.perm).code 0 (msgSend m) b (msgEpoch m) ++
          bytesLE 4 (if ok then queryDetail d b (BitVec.ofNat 32 (msgEpoch m)) else 0))) s

/-- A received ANSWER completes the oldest remote query that it answers (R109, R226). -/
def execAnswer (qp : Nat) (s : State) : Host.Outcome State Fault Refusal :=
  onData (fun k d =>
    match d.peekSpool qp 0x0B with
    | none => d
    | some m =>
      let d1 := takeMsg k d qp
      match d1.spl.queries.find? (fun x => x.2.2.1 == qp && x.2.2.2.1 == msgRecv m && x.2.2.2.2 == msgEpoch m) with
      | none => d1
      | some x =>
        let d2 := { d1 with spl := { d1.spl with queries := d1.spl.queries.filter (fun y => !(y.1 == x.1 && y.2.1 == x.2.1)) } }
        d2.finish x.1 x.2.1 ((Status.ofCode? (msgStatus m)).getD .checkFail) 0 (mfld m 16 4)) s

/-! ### Timers and the messages of re-anchoring -/

/-- HANDOFF_TMO of an origin in HANDING (R106). -/
def execHandoffTmo (b : Nat) (s : State) : Host.Outcome State Fault Refusal := onData (fun k d => handoffTmo k d b) s

/-- A receiver whose deadline has passed in a state becomes ORPHANED with TIMEOUT (R110). -/
def receiverTmo (b : Nat) (st : BState) (k : Ctl) (d : Data) : Data :=
  let x := d.basket b
  match x.deadline with
  | some at_ => if x.receiver ∧ x.state = st ∧ at_ ≤ k.ticks then orphan k d b .timeout else d
  | none => d

/-- FIRST_TMO: no layer within FIRST_TMO of admission (R110). -/
def execFirstTmo (b : Nat) (s : State) : Host.Outcome State Fault Refusal := onData (receiverTmo b .admitted) s

/-- PUSH_TMO: a gap between arrivals, or after the last layer, exceeds PUSH_TMO (R110). -/
def execPushTmo (b : Nat) (s : State) : Host.Outcome State Fault Refusal := onData (receiverTmo b .pushing) s

/-- A message of a type at the head of a QP is taken and acted on. -/
def onMsg (type : Nat) (f : Ctl → Data → Nat → List Byte → Data) (qp : Nat) (k : Ctl) (d : Data) : Data :=
  match d.peekSpool qp type with
  | none => d
  | some m => f k (takeMsg k d qp) qp m

/-- OFFER, the END of a push: the receiver judges it (R103). -/
def execOffer (qp : Nat) (s : State) : Host.Outcome State Fault Refusal := onData (onMsg 0x04 judgeOffer qp) s
/-- RE-OFFER: judged as the END would have been (R103). -/
def execReOffer (qp : Nat) (s : State) : Host.Outcome State Fault Refusal := onData (onMsg 0x07 judgeOffer qp) s
/-- COMMIT at the origin (R104). -/
def execCommit (qp : Nat) (s : State) : Host.Outcome State Fault Refusal := onData (onMsg 0x05 takeCommit qp) s
/-- REFUSE at the origin (R104). -/
def execRefuse (qp : Nat) (s : State) : Host.Outcome State Fault Refusal := onData (onMsg 0x06 takeRefuse qp) s
/-- ANCHORED at the origin (R104). -/
def execAnchored (qp : Nat) (s : State) : Host.Outcome State Fault Refusal := onData (onMsg 0x08 takeCommit qp) s
/-- UNKNOWN at the origin changes nothing; to a Basket not in HANDING it is counted in LATE (R104). -/
def execUnknown (qp : Nat) (s : State) : Host.Outcome State Fault Refusal :=
  onData (onMsg 0x09 (fun _ d q m => if replyMatch d q m && (d.basket (msgSend m)).state == .handing then d else countLate d q) qp) s

end Sys2Proof.Machine
end

