-- ==== Sys2Proof/Machine/Window.lean ====
section
/-!
DEFINITION. Windows (R515 to R520, R529): their definitions, the checks of an operation that names one, the release of IN slots, and the
writing of outputs into OUT slots under grants and the Bridle regulator.
-/
namespace Sys2Proof.Machine

/-- The target domain of a window (R81): its Bridle port, and for remote slots the half's link. -/
def winOff (k : Ctl) (d : Data) (w : Nat) : Option Status :=
  failIf (!k.up (k.winHalf w / 2) 16 || (k.winRemote w && !(d.half (k.winHalf w)).up)) .domainOff

/-- Cuts bytes at window offset `off` into pieces of at most 4 KiB, none across a slot's end (R520). -/
def cutPieces (slotBytes : Nat) : Nat → Nat → List Byte → List (Nat × List Byte)
  | 0, _, _ => []
  | fuel + 1, off, l =>
    if l.isEmpty then []
    else
      let n := Nat.max 1 (Nat.min 4096 (Nat.max 1 slotBytes - off % Nat.max 1 slotBytes))
      (off, l.take n) :: cutPieces slotBytes fuel (off + n) (l.drop n)

/-- The pieces of bytes at a window offset. -/
def Ctl.pieces (k : Ctl) (w off : Nat) (l : List Byte) : List (Nat × List Byte) := cutPieces (k.winSlotBytes w) (l.length + 1) off l

/-- Writes one piece: into plain HBM, or as a posted write to the bus. -/
def writePiece (k : Ctl) (d : Data) (w off : Nat) (l : List Byte) : Data :=
  if k.winRemote w then
    Data.charge k ((d.emit (.busWrite (k.winHalf w) (k.winAddr w + off) l)).bump (cntAddr 0x1F (k.winHalf w) 1) l.length)
      (k.winPart w) 2 l.length
  else d.wrBytes (k.winAddr w + off) l

/-- GRANT_TMO of a port in ticks (R528). -/
def Ctl.grantTmo (k : Ctl) (port : Nat) : Nat := k.fld (0x1F10080 + 0x1000 * port) 0 16 * 5000

/-- Writes an output's pieces while their slots are granted and the regulator permits: the pieces still waiting, and whether a grant is
missing (R520, R494). -/
def writePieces (k : Ctl) (w : Nat) : List (Nat × List Byte) → Data → Data × List (Nat × List Byte) × Bool
  | [], d => (d, [], false)
  | (off, l) :: r, d =>
    if !(d.win w).grants.contains (off / Nat.max 1 (k.winSlotBytes w)) then (d, (off, l) :: r, true)
    else if k.winRemote w && !Data.mayGrant k d (k.winPart w) 2 then (d, (off, l) :: r, false)
    else writePieces k w r (writePiece k d w off l)

/-- Carries one output on, destination by destination: at the end of each its doorbell rings, on success only, and after the last the operation
completes, with CFG_INVALID where a ring names no valid doorbell (R308, R520, R523); the rows of a Merge stream then count as written (R320). -/
def pumpDests (k : Ctl) : List (Nat × List (Nat × List Byte) × Nat) → Data → OutJob → Data × Option OutJob
  | [], d, j =>
    let rows := match d.op j.thread j.opId with | some o => if o.eng = 3 then d.bump (cntAddr 0x15 (df o.desc 0 0 4) 2) j.count else d | none => d
    (rows.finish j.thread j.opId j.status j.count j.detail, none)
  | (w, pcs, door) :: rest, d, j =>
    let r := writePieces k w pcs d
    let held := match j.since with | some t => k.ticks - t | none => 0
    if r.2.1.isEmpty then
      let d1 := r.1.bump (cntAddr 0x1F (k.winHalf w) 5) (2 * (j.waited + held))
      let g := if j.status = .ok ∨ j.status = .cfgInvalid then ringDoor k d1 j.part door else (d1, none)
      pumpDests k rest g.1 { j with
        dests := rest
        status := (match g.2 with | some e => e | none => j.status)
        since := none
        waited := 0 }
    else if r.2.2 then
      (r.1, some { j with
        dests := (w, r.2.1, door) :: rest
        since := some (match j.since with | some t => t | none => k.ticks) })
    else (r.1, some { j with dests := (w, r.2.1, door) :: rest, since := none, waited := j.waited + held })

/-- Carries one output on. -/
def pumpJob (k : Ctl) (d : Data) (j : OutJob) : Data × Option OutJob := pumpDests k j.dests d j

/-- Carries every waiting output that a test selects on, oldest first. -/
def pumpJobs (k : Ctl) (f : OutJob → Bool) : List OutJob → Data → Data
  | [], d => d
  | j :: r, d =>
    if f j then
      match pumpJob k d j with
      | (d1, some j') => pumpJobs k f r { d1 with bdl := { d1.bdl with jobs := d1.bdl.jobs ++ [j'] } }
      | (d1, none) => pumpJobs k f r d1
    else pumpJobs k f r { d with bdl := { d.bdl with jobs := d.bdl.jobs ++ [j] } }

/-- The rank of an output at Bridle: class 0 first, and within each, generation work before prompt work in role P+G (R20, R38). -/
def jobRank (k : Ctl) (d : Data) (j : OutJob) : Nat :=
  match d.op j.thread j.opId with
  | some o => (if o.cls = 0 then 0 else 2) + b2n (promptOp k d o)
  | none => 3

/-- The waiting outputs by rank, oldest first within each. -/
def rankedJobs (k : Ctl) (d : Data) : List OutJob := (List.range 4).flatMap (fun r => d.bdl.jobs.filter (fun j => jobRank k d j == r))

/-- Carries the waiting outputs on. -/
def pumpOut (k : Ctl) (d : Data) (f : OutJob → Bool) : Data :=
  pumpJobs k f (rankedJobs k d) { d with bdl := { d.bdl with jobs := [] } }

/-- An operation's outputs to several destinations: written now as far as they go, the rest when grants arrive. -/
def outputs (k : Ctl) (d : Data) (t id p : Nat) (dests : List (Nat × List (Nat × List Byte) × Nat)) (st : Status) (count detail : Nat) : Data :=
  match pumpJob k (d.start t id) ⟨t, id, p, dests, st, count, detail, none, 0⟩ with
  | (d1, some j) => { d1 with bdl := { d1.bdl with jobs := d1.bdl.jobs ++ [j] } }
  | (d1, none) => d1

/-- An operation's output to a window. -/
def output (k : Ctl) (d : Data) (t id p w : Nat) (pieces : List (Nat × List Byte)) (door : Nat) (st : Status) (count detail : Nat) : Data :=
  outputs k d t id p [(w, pieces, door)] st count detail

/-- `bdl.release` (R519, R578): a slot the Kratal does not hold gives BAD_DESC. The slot must be one of an IN window of the partition. -/
def runBdlRelease : EngRun := engRun (fun k d t id th o =>
  let x := o.desc
  let w := df x 0 0 16
  checked d t id
    [failIf (!descOk x [(0, 0, 10), (2, 0, 12)]) .badDesc,
     if !k.winOn w then some .badDesc else failIf (k.winPart w != th.part || k.winOut w) .perm, winOff k d w]
    (match releaseSlot k d w (df x 2 0 12) with
     | (d1, true) => d1.finish t id .ok 0 0
     | (_, false) => d.finish t id .badDesc 0 0))

/-- `bdl.release`: the issue; it names no Basket. -/
def execBdlRelease (t : Nat) (p : BitVec 2) (ts : BitVec 5) (ds : BitVec 4) (s : State) : Host.Outcome State Fault Refusal :=
  onData (issue 1 5 noBsk runBdlRelease t p ts ds) s

end Sys2Proof.Machine
end

