-- ==== Sys2Proof/Machine/Envelope.lean ====
section
/-!
DEFINITION. CRC-32C (R167), the Envelope coding of segments and objects (R164 to R172), code tables (R170, R181, R182), and the codec's
operations `env.pack` and `env.unpack` (R174 to R177).
-/
namespace Sys2Proof.Machine

/-! ### CRC-32C -/

/-- One bit of the reflected Castagnoli division. -/
def crcBit (c : BitVec 32) : BitVec 32 := if c.getLsbD 0 then (c >>> 1) ^^^ 0x82F63B78#32 else c >>> 1

/-- One byte. -/
def crcByte (c : BitVec 32) (b : Byte) : BitVec 32 :=
  crcBit (crcBit (crcBit (crcBit (crcBit (crcBit (crcBit (crcBit (c ^^^ b.setWidth 32))))))))

/-- CRC-32C of a list of bytes (R167). -/
def crc32c (l : List Byte) : Nat := ((l.foldl crcByte 0xFFFFFFFF#32) ^^^ 0xFFFFFFFF#32).toNat

/-! ### Code tables -/

/-- A code table: valid, ELEM, and the length of each symbol. -/
structure CodeTable where
  valid : Bool
  elem  : Nat
  lens  : List Nat
deriving DecidableEq, Repr, Inhabited

/-- Symbols of an element type's exponent (R170). -/
def alphabet (elem : Nat) : Nat :=
  match elem with
  | 0 => 256 | 1 => 32 | 2 => 16 | 3 => 32 | _ => 0

/-- Code table `n` of a partition (R181, R182). -/
def Ctl.codeTable (k : Ctl) (p n : Nat) : CodeTable :=
  let o := n + 16 * p
  let e := k.fld (objKey 0x1600080 o) 1 3
  ⟨k.fld (objKey 0x1600080 o) 0 1 == 1, e,
    (List.range (alphabet e)).map (fun s => k.fld (objKey (0x1600100 + 8 * (s / 8)) o) (4 * (s % 8)) 4)⟩

/-- The canonical code of a symbol (R170): symbols sorted by length and then by value, each taking the next code of its length. -/
def canonCode (lens : List Nat) (s : Nat) : Nat :=
  let n := lens.getD s 0
  ((List.range lens.length).filter (fun i => lens.getD i 0 != 0 &&
    (decide (lens.getD i 0 < n) || (lens.getD i 0 == n && decide (i < s))))).foldl (fun a i => a + 2 ^ (n - lens.getD i 0)) 0

/-- The symbol that a code of a length stands for. -/
def symbolOf (lens : List Nat) (n c : Nat) : Option Nat :=
  (List.range lens.length).find? (fun s => lens.getD s 0 == n && canonCode lens s == c)

/-! ### Elements -/

/-- Bytes of an element (R165). -/
def elemSize (elem : Nat) : Nat := if elem < 2 then 2 else 1
/-- Mantissa bits of an element type. -/
def elemMan (elem : Nat) : Nat :=
  match elem with
  | 0 => 7 | 1 => 10 | 2 => 3 | _ => 2
/-- The exponent of a value. -/
def elemExp (elem x : Nat) : Nat := x % 2 ^ (8 * elemSize elem - 1) / 2 ^ elemMan elem
/-- The plane field of a value: its sign above its mantissa bits (R168). -/
def elemPlane (elem x : Nat) : Nat := x % 2 ^ elemMan elem + x / 2 ^ (8 * elemSize elem - 1) * 2 ^ elemMan elem
/-- A value from its plane field and its exponent. -/
def elemJoin (elem pl e : Nat) : Nat :=
  pl % 2 ^ elemMan elem + e * 2 ^ elemMan elem + pl / 2 ^ elemMan elem * 2 ^ (8 * elemSize elem - 1)

/-- The values of raw bytes. -/
def valuesOf (n : Nat) : Nat → List Byte → List Nat
  | 0, _ => []
  | f + 1, l => if l.isEmpty then [] else ofBytesLE (l.take n) :: valuesOf n f (l.drop n)

/-- A number's `n` low bits, least significant first. -/
def bitsLE : Nat → Nat → List Bool
  | 0, _ => []
  | n + 1, v => (v % 2 == 1) :: bitsLE n (v / 2)

/-- The number of bits listed least significant first. -/
def ofBits : List Bool → Nat
  | [] => 0
  | b :: r => (if b then 1 else 0) + 2 * ofBits r

/-- Packs bits into bytes, the first bit lowest, padded with zero bits. -/
def packBits : Nat → List Bool → List Byte
  | 0, _ => []
  | f + 1, l => if l.isEmpty then [] else BitVec.ofNat 8 (ofBits (l.take 8)) :: packBits f (l.drop 8)

/-- The bits of bytes. -/
def unpackBits (l : List Byte) : List Bool := l.flatMap (fun b => bitsLE 8 b.toNat)

/-! ### Segments -/

/-- The coded body of raw bytes (R168): the plane, then the exponent codes, most significant bit first. The plane of a short last segment is padded to a whole byte like
the stream (DESIGN CHOICE, log entry 191). -/
def codedBody (tb : CodeTable) (elem : Nat) (raw : List Byte) : List Byte :=
  let vs := valuesOf (elemSize elem) raw.length raw
  let plane := vs.flatMap (fun x => bitsLE (elemMan elem + 1) (elemPlane elem x))
  let codes := vs.flatMap (fun x =>
    let s := elemExp elem x
    (bitsLE (tb.lens.getD s 0) (canonCode tb.lens s)).reverse)
  packBits plane.length plane ++ packBits codes.length codes

/-- How a segment is stored. -/
inductive SegMode where
  | raw | coded | zero | miss
deriving DecidableEq, Repr

/-- The mode of a segment (R169); `miss` is RAW for want of a code. Where codes are asked for, an invalid table or one of another ELEM stores every segment RAW, one of
zeros too (R176; DEDUCED, log entry 191). -/
def segMode (tb : CodeTable) (elem : Nat) (noCode : Bool) (raw : List Byte) : SegMode :=
  if !noCode && decide (elem < 4) && (!tb.valid || tb.elem != elem) then .raw
  else if raw.all (fun b => b == 0#8) then .zero
  else if noCode || decide (4 ≤ elem) || !tb.valid || tb.elem != elem then .raw
  else if !(valuesOf (elemSize elem) raw.length raw).all (fun x => tb.lens.getD (elemExp elem x) 0 != 0) then .miss
  else if raw.length * 15 / 16 < (codedBody tb elem raw).length then .raw
  else .coded

/-- Pads to a multiple of 8 bytes with zeros. -/
def pad8 (l : List Byte) : List Byte := l ++ List.replicate (roundUp l.length 8 - l.length) 0#8

/-- One segment: header, body, padding (R164, R166, R167). -/
def segBytes (tb : CodeTable) (table elem : Nat) (noCode : Bool) (raw : List Byte) : List Byte :=
  let m := segMode tb elem noCode raw
  let body := match m with
    | .zero => []
    | .coded => codedBody tb elem raw
    | _ => raw
  let code := match m with | .zero => 2 | .coded => 1 | _ => 0
  let hi := bytesLE 4 (code + elem % 8 * 2 ^ 2 + table % 16 * 2 ^ 5 + body.length % 2 ^ 13 * 2 ^ 9)
  pad8 (bytesLE 4 (crc32c (hi ++ raw)) ++ hi ++ body)

/-- Raw bytes in segments of 4 KiB. -/
def segments : Nat → List Byte → List (List Byte)
  | 0, _ => []
  | f + 1, l => if l.isEmpty then [] else l.take 4096 :: segments f (l.drop 4096)

/-- The index of an object: the offset of each segment, and the end, in 8-byte units. -/
def segIndex (at_ : Nat) : List (List Byte) → List Byte
  | [] => bytesLE 4 (at_ / 8)
  | x :: r => bytesLE 4 (at_ / 8) ++ segIndex (at_ + x.length) r

/-- An Envelope object (R164), with the modes of its segments. -/
def envPack (tb : CodeTable) (table elem : Nat) (noCode : Bool) (raw : List Byte) : List Byte × List SegMode :=
  let segs := segments (raw.length / 4096 + 1) raw
  let n := segs.length
  let body := segs.map (segBytes tb table elem noCode)
  let last := (raw.length - 1) % 4096 + 1
  let base := roundUp (8 + 4 * (n + 1)) 8
  (bytesLE 8 (n + last * 2 ^ 23 + elem * 2 ^ 36) ++ pad8 (segIndex base body) ++ body.flatMap (fun x => x),
   segs.map (segMode tb elem noCode))

/-- Reads one code from the stream: the symbol and the bits left; none where no code matches within 12 bits (R172). -/
def readCode (lens : List Nat) : Nat → Nat → Nat → List Bool → Option (Nat × List Bool)
  | 0, _, _, _ => none
  | f + 1, n, c, l =>
    match l with
    | [] => none
    | b :: r =>
      let c' := 2 * c + (if b then 1 else 0)
      match symbolOf lens (n + 1) c' with
      | some s => some (s, r)
      | none => readCode lens f (n + 1) c' r

/-- Reads `n` codes. -/
def readCodes (lens : List Nat) : Nat → List Bool → Option (List Nat)
  | 0, _ => some []
  | n + 1, l =>
    match readCode lens 12 0 0 l with
    | none => none
    | some (s, r) =>
      match readCodes lens n r with
      | none => none
      | some x => some (s :: x)

/-- The raw bytes of a coded body of `len` raw bytes. -/
def decodeBody (tb : CodeTable) (elem len : Nat) (body : List Byte) : Option (List Byte) :=
  let n := len / elemSize elem
  let pb := ceilDiv (n * (elemMan elem + 1)) 8
  if body.length < pb then none
  else
    match readCodes tb.lens n (unpackBits (body.drop pb)) with
    | none => none
    | some es =>
      let pl := unpackBits (body.take pb)
      some ((List.range n).flatMap (fun i =>
        bytesLE (elemSize elem) (elemJoin elem (ofBits ((pl.drop (i * (elemMan elem + 1))).take (elemMan elem + 1))) (es.getD i 0))))

/-- The raw bytes of a segment of `len` raw bytes stored in `seg` (its whole slot by the index); none where it fails R172. The second part
is its mode. -/
def segDecode (tables : Nat → CodeTable) (elem len : Nat) (seg : List Byte) : Option (List Byte × Nat) :=
  let hi := ofBytesLE ((seg.drop 4).take 4)
  let mode := bitsOf hi 0 2
  let clen := bitsOf hi 9 13
  let tb := tables (bitsOf hi 5 4)
  let body := (seg.drop 8).take clen
  if seg.length < 8 ∨ bitsOf hi 2 3 ≠ elem ∨ 4 < elem ∨ roundUp (8 + clen) 8 ≠ seg.length then none
  else
    let raw := match mode with
      | 0 => if clen = len then some body else none
      | 1 =>
        if elem = 4 ∨ !tb.valid ∨ tb.elem ≠ elem ∨ len * 15 / 16 < clen then none else decodeBody tb elem len body
      | 2 => if clen = 0 then some (List.replicate len 0#8) else none
      | _ => none
    match raw with
    | none => none
    | some r => if crc32c ((seg.drop 4).take 4 ++ r) = ofBytesLE (seg.take 4) then some (r, mode) else none

/-- The header of an object: SEGMENTS, LAST_LEN, ELEM; none where it is malformed (R164). -/
def objHeader (h : Nat) : Option (Nat × Nat × Nat) :=
  let n := bitsOf h 0 23
  let last := bitsOf h 23 13
  let e := bitsOf h 36 3
  if n = 0 ∨ 4194304 < n ∨ last = 0 ∨ 4096 < last ∨ 4 < e ∨ last % elemSize e ≠ 0 ∨ h / 2 ^ 39 ≠ 0 then none else some (n, last, e)

/-- Raw bytes of segment `i` of an object. -/
def segLen (n last i : Nat) : Nat := if i + 1 = n then last else 4096

/-- The segments of a whole object held as bytes, each with its mode, up to the first that fails R172, and whether none fails. -/
def envRead (tables : Nat → CodeTable) (obj : List Byte) : List (List Byte × Nat) × Bool :=
  match objHeader (ofBytesLE (obj.take 8)) with
  | none => ([], false)
  | some (n, last, e) =>
    (List.range n).foldl (fun acc i =>
      if !acc.2 then acc
      else
        let a := 8 * ofBytesLE ((obj.drop (8 + 4 * i)).take 4)
        let b := 8 * ofBytesLE ((obj.drop (12 + 4 * i)).take 4)
        if b ≤ a ∨ obj.length < b then (acc.1, false)
        else
          match segDecode tables e (segLen n last i) ((obj.drop a).take (b - a)) with
          | none => (acc.1, false)
          | some r => (acc.1 ++ [r], true)) ([], true)

/-- Expands a whole object held as bytes; none where the header or any segment fails. -/
def envUnpack (tables : Nat → CodeTable) (obj : List Byte) : Option (List Byte) :=
  let r := envRead tables obj
  if r.2 then some (r.1.flatMap (fun x => x.1)) else none

/-! ### The operations -/

/-- A counter of ENV_CNT (R184, R697): lane `l` of region `r`; the compactor lanes are 0 to 11, the expander lanes 12 to 23. Which of the
operation's lanes takes a segment is not stated; the model counts segment i on lane i mod LANES of the kind. -/
def envCnt (r l i : Nat) : Nat := cntAddr 0x16 (if l < 12 then 12 * r + l else 48 + 12 * r + (l - 12)) i

/-- Counts the segments written by `n` compactor lanes of region `r`, and TABLE_MISS (R169, R183). -/
def countSegs (d : Data) (r n : Nat) : Nat → List SegMode → Data
  | _, [] => d
  | i, m :: rest =>
    let d1 := match m with
      | .coded => d.bump (envCnt r (i % Nat.max 1 n) 0) 1
      | .zero => d.bump (envCnt r (i % Nat.max 1 n) 2) 1
      | .raw => d.bump (envCnt r (i % Nat.max 1 n) 1) 1
      | .miss => (d.setSts 0x16000C0 3).bump (envCnt r (i % Nat.max 1 n) 1) 1
    countSegs d1 r n (i + 1) rest

/-- `env.pack` (R175, R176): COUNT the segments written, DETAIL those stored CODED. -/
def runEnvPack : EngRun := engRun (fun k d t id th o =>
  let x := o.desc
  let src := df x 0 0 48
  let dst := df x 8 0 48
  let n := df x 16 0 35
  let e := df x 24 0 3
  let lanes := df x 24 8 4
  let segs := ceilDiv n 4096
  let room := df x 28 0 40
  let r := regionOf t
  let d := permRead k d th.part src n
  checked d t id
    [failIf (!descOk x [(0, 0, 48), (8, 0, 48), (16, 0, 35), (24, 0, 12), (28, 0, 40)] || decide (4 < e) || lanes == 0 ||
        decide (12 < lanes) || dst % 8 != 0 || decide (2 ^ 34 < n) || n % elemSize e != 0 ||
        decide (room < 8 + 4 * (segs + 1) + 4104 * segs)) .badDesc,
     readCheck k d th.part src n true, k.dpaCheck th.part dst room false,
     k.offCheck r 11, failIf (n == 0) .okEmpty]
    (if d.bad src n then d.finish t id .poison 0 0
     else
       let ob := envPack (k.codeTable th.part (df x 24 3 4)) (df x 24 3 4) e (df x 24 7 1 == 1) (memBytes d.mem src n)
       (countSegs (d.wrBytes dst ob.1) r lanes 0 ob.2).finish t id .ok segs (ob.2.filter (fun m => m == .coded)).length))

/-- `env.pack`: the issue. -/
def execEnvPack (t : Nat) (p : BitVec 2) (ts : BitVec 5) (ds : BitVec 4) (s : State) : Host.Outcome State Fault Refusal :=
  onData (issue 4 0 noBsk runEnvPack t p ts ds) s

/-- The offset of a segment by the index of its object (R164). -/
def segStart (d : Data) (src i : Nat) : Nat := 8 * d.rd (src + 8 + 4 * i) 4

/-- What expanding the segments of an object from memory gives, in order: the raw bytes with modes, and at the first failure its index and
status (R172, R176, R350). -/
def expand (k : Ctl) (d : Data) (p src n last e : Nat) : Nat → Nat → List (List Byte × Nat) × Option (Nat × Status)
  | 0, _ => ([], none)
  | c + 1, i =>
    let a := segStart d src i
    let b := segStart d src (i + 1)
    match firstOf [k.dpaCheck p (src + 8 + 4 * i) 8 false, failIf (d.bad (src + 8 + 4 * i) 8) .poison, failIf (decide (b ≤ a) || decide (4608 < b - a)) .checkFail,
        k.dpaCheck p (src + a) (b - a) false, failIf (!(flawed d .read (src + a) (b - a)).isEmpty) .uncorrectable,
        failIf (d.bad (src + a) (b - a)) .poison] with
    | some st => ([], some (i, st))
    | none =>
      match segDecode (k.codeTable p) e (segLen n last i) (memBytes d.mem (src + a) (b - a)) with
      | none => ([], some (i, .checkFail))
      | some r =>
        let w := expand k d p src n last e c (i + 1)
        (r :: w.1, w.2)

/-- The counter `j` of the expander lane, of `n` in region `r`, that takes the segment at place `i`. -/
def expCnt (r n i j : Nat) : Nat := envCnt r (12 + i % Nat.max 1 n) j

/-- An expander lane reads a segment: its waits for the consumer and for credit, STALL_IN and STALL_OUT, are not timed by the spec (R184). -/
def laneStalls (d : Data) (r n i : Nat) : Data := (d.bumpFree (expCnt r n i 4)).bumpFree (expCnt r n i 5)

/-- A segment at place `i` fails R172 in `n` expander lanes of region `r`: it is counted in the lane, and sets CHECK_FAIL (R183, R184). -/
def countFail (d : Data) (r n i : Nat) : Data := (laneStalls (d.setSts 0x16000C0 0) r n i).bump (expCnt r n i 3) 1

/-- Counts segments read by `n` expander lanes of region `r`. -/
def countExp (d : Data) (r n : Nat) : Nat → List (List Byte × Nat) → Data
  | _, [] => d
  | i, m :: rest =>
    countExp ((laneStalls d r n i).bump (expCnt r n i (match m.2 with | 1 => 0 | 0 => 1 | _ => 2)) 1) r n (i + 1) rest

/-- `env.unpack` (R174, R176, R177): segments in order to a DPA or an OUT staging window; the doorbell rings on success. -/
def runEnvUnpack : EngRun := engRun (fun k d t id th o =>
  let x := o.desc
  let src := df x 0 0 48
  let dst := df x 8 0 48
  let first := df x 16 0 23
  let cnt := df x 20 0 23
  let lanes := df x 24 0 4
  let win := df x 28 0 16
  let toWin := df x 24 4 2 == 1
  let r := regionOf t
  let size := match objHeader (d.rd src 8) with
    | some (n, last, _) => if first < n ∧ n ≤ first + cnt then 4096 * (n - 1 - first) + last else 4096 * cnt
    | none => 4096 * cnt
  checked d t id
    [failIf (!descOk x [(0, 0, 48), (8, 0, 48), (16, 0, 23), (20, 0, 23), (24, 0, 6), (24, 16, 16), (28, 0, 16)] || lanes == 0 ||
        decide (12 < lanes) || decide (1 < df x 24 4 2) || src % 8 != 0 || decide (4194304 < cnt)) .badDesc,
     k.dpaCheck th.part src 8 false,
     if toWin then k.winCheck th.part win true false else k.dpaCheck th.part dst size true,
     k.offCheck r 11, if toWin then winOff k d win else none,
     failIf (d.bad src 8) .poison]
    (match objHeader (d.rd src 8) with
     | none => d.finish t id .badDesc 0 0
     | some (n, last, e) =>
       if n < first + cnt ∨ (toWin && decide (k.winSlots win * k.winSlotBytes win < dst + size)) then d.finish t id .badDesc 0 0
       else if cnt = 0 then d.finish t id .okEmpty 0 0
       else
         let w := expand k d th.part src n last e cnt first
         let d1 := countExp d r lanes 0 w.1
         let d2 := match w.2 with
           | some (i, .checkFail) => countFail d1 r lanes (i - first)
           | some (i, .uncorrectable) => (hbmLink k d1 .read (src + segStart d src i) (segStart d src (i + 1) - segStart d src i)).1
           | _ => d1
         let st := match w.2 with | some (_, s) => s | none => .ok
         let det := match w.2 with | some (i, .checkFail) => i | _ => 0
         let bytes := w.1.flatMap (fun s => s.1)
         let door := df x 24 16 16
         if toWin then output k d2 t id th.part win (k.pieces win dst bytes) door st w.1.length det
         else
           let d3 := d2.wrBytes dst bytes
           let g := if st = .ok then ringDoor k d3 th.part door else (d3, none)
           g.1.finish t id (match g.2 with | some e => e | none => st) w.1.length det))

/-- `env.unpack`: the issue. -/
def execEnvUnpack (t : Nat) (p : BitVec 2) (ts : BitVec 5) (ds : BitVec 4) (s : State) : Host.Outcome State Fault Refusal :=
  onData (issue 4 1 noBsk runEnvUnpack t p ts ds) s

end Sys2Proof.Machine
end

