-- ==== Sys2Proof/Machine/Match.lean ====
section
/-!
DEFINITION. The Match Array (chapter 07): banks and entries, searches, inserts, deletes and spreads, the chain hash, the prefix index with
leases and generations, local and forwarded lookups, parity, and the eviction by age of R355 to R358.
-/
namespace Sys2Proof.Machine

/-! ### Banks -/

/-- A field of MAT_BANKCFG of bank `b` (R211). -/
def Ctl.bank (k : Ctl) (b lo w : Nat) : Nat :=
  if lo = 0 ∧ k.cells.contains (1024 * (64 * (b / 8) + 17) + b % 8) then 0 else k.fld (0x1700100 + 8 * b) lo w
/-- Whether bank `b` is a PREFIX bank. -/
def Ctl.bankPrefix (k : Ctl) (b : Nat) : Bool := k.bank b 0 2 == 1
/-- Whether bank `b` is a RULE bank of partition `p`. -/
def Ctl.bankRule (k : Ctl) (b p : Nat) : Bool := k.bank b 0 2 == 2 && k.bank b 8 4 == p
/-- Units of an entry of bank `b`. -/
def Ctl.bankWidth (k : Ctl) (b : Nat) : Nat := 2 ^ k.bank b 2 2
/-- Slots of bank `b`. -/
def Ctl.bankSlots (k : Ctl) (b : Nat) : Nat := 8192 / k.bankWidth b
/-- Slots of one section of S rows (R195). -/
def Ctl.bankSection (k : Ctl) (b : Nat) : Nat := Nat.max 1 (2 ^ k.bank b 4 4 / k.bankWidth b)
/-- The PREFIX banks in ascending number (R200). -/
def Ctl.prefixBanks (k : Ctl) : List Nat := (List.range 32).filter (fun b => k.bankPrefix b)
/-- The home bank of a hash (R200). -/
def Ctl.homeBank (k : Ctl) (h : Nat) : Option Nat :=
  if k.prefixBanks.isEmpty then none else k.prefixBanks[bitsOf h 0 32 % k.prefixBanks.length]?

/-- The entries of a bank, by slot. -/
def Data.bankTab (d : Data) (b : Nat) : Tab MatEntry := Tab.getD d.mat.banks b []
/-- Sets the entries of a bank. -/
def Data.setBank (d : Data) (b : Nat) (x : Tab MatEntry) : Data := { d with mat := { d.mat with banks := Tab.set d.mat.banks b x } }

/-- The bits of a key of `w` units. -/
def unitMask (w : Nat) : BitVec 320 := BitVec.ofNat 320 (2 ^ (80 * w) - 1)

/-- Whether the pre-filter enables an entry (R187). -/
def MatEntry.enabled (e : MatEntry) (pfv pfm : BitVec 8) : Bool := (e.tag ^^^ pfv) &&& pfm == 0#8
/-- Whether an entry matches a key (R186). -/
def MatEntry.matches (e : MatEntry) (w : Nat) (key : BitVec 320) (pfv pfm : BitVec 8) : Bool :=
  e.enabled pfv pfm && (e.key ^^^ key) &&& e.care &&& unitMask w == 0#320

/-- The entries of a bank that match, by slot. -/
def bankHits (k : Ctl) (d : Data) (b : Nat) (key : BitVec 320) (pfv pfm : BitVec 8) : Tab MatEntry :=
  (d.bankTab b).filter (fun x => x.2.matches (k.bankWidth b) key pfv pfm)

/-- The winner of a bank: the lowest PRIO, then the lower row (R190). -/
def bankWinner : Tab MatEntry → Option MatEntry
  | [] => none
  | x :: r =>
    match bankWinner r with
    | some y => if x.2.prio ≤ y.prio then some x.2 else some y
    | none => some x.2

/-- A counter of MAT_CNT of a bank (R215): 0 SEARCH, 1 HIT, 2 STOLEN, 3 PARITY. -/
def matCnt (b i : Nat) : Nat := cntAddr 0x17 b i

/-! ### Prefix records (R201) -/

/-- MODEL, PARTITION, GEN and LAYERS of a record. -/
def recModel (d : Data) (a : Nat) : Nat := bitsOf (d.rd (a + 8) 8) 0 12
/-- PARTITION. -/
def recPart (d : Data) (a : Nat) : Nat := bitsOf (d.rd (a + 8) 8) 12 4
/-- GEN. -/
def recGen (d : Data) (a : Nat) : Nat := bitsOf (d.rd (a + 8) 8) 16 16
/-- LAYERS. -/
def recLayers (d : Data) (a : Nat) : Nat := bitsOf (d.rd (a + 8) 8) 32 9
/-- The entry of layer `l`. -/
def recEntry (d : Data) (a l : Nat) : Nat := d.rd (a + 64 + 8 * l) 8
/-- The frames of a record's VALID layer entries. -/
def recFrames (d : Data) (a : Nat) : List Nat :=
  ((List.range (recLayers d a)).filter (fun l => pteValid (recEntry d a l))).map (fun l => pteFrame (recEntry d a l))
/-- GEN + 1. -/
def bumpGen (d : Data) (a : Nat) : Data := d.wr (a + 10) 2 ((recGen d a + 1) % 65536)

/-- The 80-bit key of a prefix entry (R200). -/
def prefixKey (h m p : Nat) : BitVec 320 := BitVec.ofNat 320 (h % 2 ^ 64 + m % 4096 * 2 ^ 64 + p % 16 * 2 ^ 76)

/-- The slot and entry of a prefix in its home bank. -/
def findPrefix (k : Ctl) (d : Data) (h m p : Nat) : Option (Nat × Nat × MatEntry) :=
  match k.homeBank h with
  | none => none
  | some b => ((d.bankTab b).find? (fun x => x.2.key == prefixKey h m p)).map (fun x => (b, x.1, x.2))

/-- The prefix entries of a partition, with their banks: USED of R213. -/
def prefixEntries (k : Ctl) (d : Data) (p : Nat) : List (Nat × Nat × MatEntry) :=
  k.prefixBanks.flatMap (fun b => ((d.bankTab b).filter (fun x => fld x.2.key 76 4 == p)).map (fun x => (b, x.1, x.2)))

/-- SPL_RECPOOL of a partition (R253): base, slot bytes, slots. -/
def Ctl.recPool (k : Ctl) (p : Nat) : Nat × Nat × Nat :=
  (k.fld (0x1340040 + 0x1000 * p) 6 42 * 64, k.fld (0x1340048 + 0x1000 * p) 0 6 * 64, k.fld (0x1340048 + 0x1000 * p) 32 32)

/-- A record's slot returns to the pool (R250). -/
def freeRecSlot (k : Ctl) (d : Data) (p a : Nat) : Data :=
  let r := k.recPool p
  if r.2.1 = 0 ∨ a < r.1 then d
  else { d with spl := { d.spl with slots := Tab.erase d.spl.slots (p * 2 ^ 32 + (a - r.1) / r.2.1) } }

/-- Drops the references of frames of a model instance: the data, and how many came to REFCNT 0. -/
def derefAll (k : Ctl) (m r : Nat) : List Nat → Data → Data × Nat
  | [], d => (d, 0)
  | f :: rest, d =>
    let a := k.frecOf m f
    let w := derefAll k m r rest (deref d r a)
    (w.1, w.2 + (if refcnt d a ≤ 1 then 1 else 0))

/-- The references of `n` deletes of a record are dropped, one on each of its frames for each: the data, and how many frames came to REFCNT 0. -/
def derefDels (k : Ctl) (m r : Nat) (fs : List Nat) : Nat → Data → Data × Nat
  | 0, d => (d, 0)
  | n + 1, d =>
    let x := derefAll k m r fs d
    let y := derefDels k m r fs n x.1
    (y.1, x.2 + y.2)

/-- The end of a deleted record (R207): GEN + 1, its frames dereferenced for each delete that waited, its slot returned unless an entry names it again, and the operations
that waited complete with the frames dereferenced. -/
def endRecord (k : Ctl) (d : Data) (a : Nat) : Data :=
  let m := recModel d a
  let fs := recFrames d a
  let p := recPart d a
  let mine := d.mat.dels.filter (fun x => x.record == a)
  let r := derefDels k m (a / 64 % 4) fs mine.length (bumpGen d a)
  let d1 := { r.1 with mat := { r.1.mat with
    dels := r.1.mat.dels.filter (fun x => x.record != a)
    evicts := r.1.mat.evicts.map (fun e =>
      if e.left.contains a then { e with left := e.left.filter (fun x => x != a), zeroed := e.zeroed + r.2 } else e) } }
  let d2 := mine.foldl (fun e x => match x.owner with | some o => e.finish o.1 o.2 .ok fs.length 0 | none => e) d1
  wmCheck k (if (prefixEntries k d2 p).any (fun y => y.2.2.assoc == a) then d2 else freeRecSlot k d2 p a) p

/-- LEASE_END of a record has passed. -/
def leaseOver (k : Ctl) (d : Data) (a : Nat) : Bool := decide (d.rd (a + 24) 8 ≤ k.ns)

/-- Ends every deleted record whose lease has passed. -/
def leaseScan (k : Ctl) (d : Data) : Data :=
  d.mat.dels.foldl (fun e x => if e.mat.dels.any (fun y => y.record == x.record) && leaseOver k e x.record then endRecord k e x.record else e) d

/-- Removes a prefix entry at once; the rest of the delete waits for the lease (R207). -/
def dropPrefix (d : Data) (b slot : Nat) (e : MatEntry) (owner : Option (Nat × Nat)) : Data :=
  let d1 := (d.setBank b (Tab.erase (d.bankTab b) slot)).bump (matCnt b 2) 1
  { d1 with mat := { d1.mat with dels := d1.mat.dels ++ [⟨e.assoc, owner⟩] } }

/-! ### Eviction by age (R355 to R358) -/

/-- The age bin of an age in ns (R356). -/
def ageBin (ns : Nat) : Nat := let s := ns / 10 ^ 9; if s = 0 then 0 else Nat.min 15 (Nat.log2 s + 1)

/-- Sorted by LAST_HIT, oldest first. -/
def byAge (d : Data) (x : Nat × Nat × MatEntry) : List (Nat × Nat × MatEntry) → List (Nat × Nat × MatEntry)
  | [] => [x]
  | y :: r => if d.rd (x.2.2.assoc + 16) 8 < d.rd (y.2.2.assoc + 16) 8 then x :: y :: r else y :: byAge d x r

/-- The cutoff bin (R356): from the oldest bin down until the target is met. -/
def cutoff (bins : Nat → Nat) (target : Nat) : Nat → Nat → Nat
  | 0, _ => 0
  | c + 1, sum => if sum + bins (c + 1) < target then cutoff bins target c (sum + bins (c + 1)) else c + 1

/-- The age of a prefix entry in ns: KTIME minus LAST_HIT of its record (R355). -/
def entryAge (k : Ctl) (d : Data) (y : Nat × Nat × MatEntry) : Nat := k.ns - d.rd (y.2.2.assoc + 16) 8

/-- Changes an eviction. -/
def onEvict (d : Data) (e : EvictOp) (f : EvictOp → EvictOp) : Data :=
  { d with mat := { d.mat with evicts := d.mat.evicts.map (fun y => if y.thread = e.thread ∧ y.opId = e.opId then f y else y) } }

/-- Performs the survey of an eviction (R356): the cutoff bin, and the entries to delete from the oldest on. -/
def evictRun (k : Ctl) (d : Data) (e : EvictOp) : Data :=
  match d.op e.thread e.opId with
  | none => { d with mat := { d.mat with evicts := d.mat.evicts.filter (fun y => !(y.thread == e.thread && y.opId == e.opId)) } }
  | some o =>
    let x := o.desc
    let tier := df x 0 0 2
    let fits := fun (y : Nat × Nat × MatEntry) =>
      (df x 0 14 1 == 1 || fld y.2.2.key 64 12 == df x 0 2 12) &&
      (tier == 2 || recEntry d y.2.2.assoc 0 / 8 % 2 == tier)
    let all := (prefixEntries k d e.part).filter fits
    let reclaim := fun (y : Nat × Nat × MatEntry) =>
      ((recFrames d y.2.2.assoc).filter (fun f => refcnt d (k.frecOf (fld y.2.2.key 64 12) f) == 1)).length *
        k.frameBytes (fld y.2.2.key 64 12)
    let bins := fun c => (all.filter (fun y => ageBin (entryAge k d y) == c)).foldl (fun n y => n + reclaim y) 0
    let target := df x 4 0 24 * 2 ^ 20
    let c := if target = 0 then 0 else cutoff bins target 15 0
    let order := all.foldl (fun l y => byAge d y l) []
    onEvict d e (fun y => { y with
      running := true
      bin := c
      todo := order.filter (fun y => decide (c ≤ ageBin (entryAge k d y)) && decide (df x 8 0 32 * 10 ^ 9 ≤ entryAge k d y)) })

/-- The deletions of an eviction, up to MAX_ENTRIES: an entry that has left the index meanwhile is passed over, one that a hit has made younger than the cutoff bin is
skipped and counted (R356, R357). -/
def evictDelete (k : Ctl) (e : EvictOp) (most : Nat) : List (Nat × Nat × MatEntry) → Data → Data
  | [], d => d
  | y :: r, d =>
    let n := match d.mat.evicts.find? (fun z => z.thread == e.thread && z.opId == e.opId) with | some z => z.deleted | none => most
    if most ≤ n then d
    else if !((Tab.get? (d.bankTab y.1) y.2.1).any (fun z => z.key == y.2.2.key && z.assoc == y.2.2.assoc)) then evictDelete k e most r d
    else if ageBin (entryAge k d y) < e.bin then
      evictDelete k e most r ((d.setSts 0x1800080 2).bump (cntAddr 0x18 e.part 6) 1)
    else
      evictDelete k e most r ((onEvict (dropPrefix d y.1 y.2.1 y.2.2 none) e (fun z => { z with
        deleted := z.deleted + 1
        left := z.left ++ [y.2.2.assoc] })).bump (cntAddr 0x18 e.part 5) 1)

/-- The deletions of every eviction that has made its survey. -/
def evictAll (k : Ctl) (d : Data) : Data :=
  (d.mat.evicts.filter (fun e => e.running && !e.todo.isEmpty)).foldl (fun f e =>
    match f.op e.thread e.opId with
    | some o => onEvict (evictDelete k e (df o.desc 12 0 19) e.todo f) e (fun z => { z with todo := [] })
    | none => f) d

/-- Completes the evictions whose records have all ended, and begins the next of each partition with its survey (R357). -/
def settleEvicts (k : Ctl) : Nat → Data → Data
  | 0, d => d
  | n + 1, d =>
    match d.mat.evicts.find? (fun e => e.running && e.todo.isEmpty && e.left.isEmpty) with
    | some e =>
      settleEvicts k n ({ d with mat := { d.mat with evicts := d.mat.evicts.filter (fun y => !(y.thread == e.thread && y.opId == e.opId)) } }
        |>.finish e.thread e.opId .ok e.deleted e.zeroed)
    | none =>
      match d.mat.evicts.find? (fun e => !e.running && !d.mat.evicts.any (fun y => y.running && y.part == e.part)) with
      | some e => settleEvicts k n (evictRun k d e)
      | none => d

/-- Carries deletes and evictions on. -/
def settleMat (k : Ctl) (d : Data) : Data :=
  let d1 := leaseScan k d
  settleEvicts k (2 * d1.mat.evicts.length + 1) d1

/-- The deletions of evictions follow their surveys at the next tick (R356; DESIGN CHOICE, log entry 193). -/
def evictTick (k : Ctl) (d : Data) : Data :=
  if d.mat.evicts.any (fun e => e.running && !e.todo.isEmpty) then settleMat k (evictAll k d) else d

/-- `tie.evict` (R355 to R358). -/
def runTieEvict : EngRun := engRun (fun k d t id th o =>
  let x := o.desc
  let m := df x 0 2 12
  checked d t id
    [failIf (!descOk x [(0, 0, 15), (4, 0, 24), (8, 0, 32), (12, 0, 19)] || df x 0 0 2 == 3 || decide (262144 < df x 12 0 19)) .badDesc,
     failIf (k.role == 0 || k.role == 2) .perm, k.offCheck (regionOf t) 17,
     failIf (df x 0 14 1 == 0 && !(k.mdlOn m && k.mdlPart m == th.part)) .badDesc, failIf (df x 12 0 19 == 0) .ok]
    (let d1 := d.start t id
     settleMat k { d1 with mat := { d1.mat with evicts := d1.mat.evicts ++ [⟨t, id, th.part, false, [], 0, 0, 0, []⟩] } }))

/-- `tie.evict`: the issue. -/
def execTieEvict (t : Nat) (p : BitVec 2) (ts : BitVec 5) (ds : BitVec 4) (s : State) : Host.Outcome State Fault Refusal :=
  onData (issue 5 6 noBsk runTieEvict t p ts ds) s

/-- The lease of a deleted record passes: GEN increments, the index's references drop, and the delete completes (R207). -/
def execPrefixLeaseEnd (record : Nat) (s : State) : Host.Outcome State Fault Refusal :=
  onData (fun k d =>
    if d.mat.dels.any (fun x => x.record == record) && leaseOver k d record then settleMat k d else d) s

/-! ### Parity (R210, R615) -/

/-- A row fails parity: its entry is cleared; a prefix is removed as by a delete, a rule bank is marked LOST. -/
def parityErr (k : Ctl) (d : Data) (b row : Nat) : Data :=
  let slot := row / k.bankWidth b
  let d1 := (({ d with mat := { d.mat with bad := d.mat.bad.filter (fun x => x != 8192 * b + row) } }).setSts 0x1700080 0).bump (matCnt b 3) 1 |>.rasUe 1
  let d2 := match Tab.get? (d1.bankTab b) slot with
    | some e => if k.bankPrefix b then settleMat k (dropPrefix d1 b slot e none) else d1.setBank b (Tab.erase (d1.bankTab b) slot)
    | none => d1
  if k.bank b 0 2 = 2 then d2.setSts 0x17000C0 b else d2

/-- The parity checks of the rows that one compare enables. -/
def compareParity (k : Ctl) (d : Data) (b : Nat) (pfv pfm : BitVec 8) : Data :=
  (d.mat.bad.filter (fun x => x / 8192 == b &&
    (match Tab.get? (d.bankTab b) (x % 8192 / k.bankWidth b) with
     | some e => e.enabled pfv pfm
     | none => false))).foldl (fun e x => parityErr k e b (x % 8192)) d

/-- A row of a bank fails its parity check (R210). -/
def execMatParityError (bank row : Nat) (s : State) : Host.Outcome State Fault Refusal :=
  onData (fun k d => if bank < 32 ∧ row < 8192 ∧ k.bank bank 0 2 ≠ 0 then parityErr k d bank row else d) s

/-- The scrub of a bank checks its next row (R615): one search slot. -/
def execMatScrubRow (bank : Nat) (s : State) : Host.Outcome State Fault Refusal :=
  onData (fun k d =>
    if 32 ≤ bank ∨ k.bank bank 0 2 = 0 then d
    else
      let row := Tab.getD d.mat.scrub bank 0
      let d1 := (Data.bump { d with mat := { d.mat with scrub := Tab.put 0 d.mat.scrub bank ((row + 1) % 8192) } } (matCnt bank 2) 1)
      if d.mat.bad.contains (8192 * bank + row) then parityErr k d1 bank row else d1) s

/-! ### Searching -/

/-- One bits of a byte. -/
def ones8 (x : BitVec 8) : Nat := ((List.range 8).filter (fun i => x.getLsbD i)).length

/-- Searches banks of one key (R190): the winner with its bank, and how many entries matched; each bank counts. -/
def searchBanks (k : Ctl) (d : Data) (banks : List Nat) (key : BitVec 320) (pfv pfm : BitVec 8) :
    Data × Option (Nat × MatEntry) × Nat :=
  banks.foldl (fun acc b =>
    let d1 := compareParity k acc.1 b pfv pfm
    let hits := bankHits k d1 b key pfv pfm
    let d2 := d1.bump (matCnt b 0) 1
    let d3 := if hits.isEmpty then d2 else d2.bump (matCnt b 1) 1
    (d3, (match acc.2.1 with | some w => some w | none => (bankWinner hits).map (fun e => (b, e))), acc.2.2 + hits.length)) (d, none, 0)

/-- `mat.search` (R189, R190, R208). -/
def runMatSearch : EngRun := engRun (fun k d t id th o =>
  let x := o.desc
  let banks := (List.range 32).filter (fun b => bitAt x (320 + b))
  let key : BitVec 320 := x.setWidth 320
  let pfv := BitVec.ofNat 8 (df x 44 0 8)
  let pfm := BitVec.ofNat 8 (df x 45 0 8)
  let res := df x 48 0 48
  let widest := banks.foldl (fun n b => Nat.max n (k.bankWidth b)) 0
  let weak := banks.any (fun b => decide (ones8 pfm < k.bank b 13 4))
  checked d t id
    [failIf (!descOk x [(0, 0, 368), (48, 0, 48)] || res % 16 != 0) .badDesc,
     failIf (!banks.all (fun b => k.bankRule b th.part)) .perm, k.dpaCheck th.part res 16 false,
     failIf (banks.any (fun b => !k.up (b / 8) 17)) .domainOff] <|
  checked (if weak then d.setSts 0x1700080 2 else d) t id
    [failIf (weak || (!banks.isEmpty && key &&& ~~~ unitMask widest != 0#320)) .badDesc, failIf banks.isEmpty .ok,
     failIf (banks.any (fun b => d.stsBit 0x17000C0 b)) .uncorrectable]
    (let r := searchBanks k d banks key pfv pfm
     if banks.any (fun b => r.1.stsBit 0x17000C0 b) then r.1.finish t id .uncorrectable 0 0
     else
       match r.2.1 with
       | some (b, e) =>
         (r.1.wr res 16 (1 + (if 1 < r.2.2 then 2 else 0) + b * 4 + e.prio % 65536 * 2 ^ 16 + e.assoc % 2 ^ 64 * 2 ^ 64)).finish t id .ok 1 0
       | none => (r.1.wr res 16 0).finish t id .ok 0 0))

/-- `mat.search`: the issue. -/
def execMatSearch (t : Nat) (p : BitVec 2) (ts : BitVec 5) (ds : BitVec 4) (s : State) : Host.Outcome State Fault Refusal :=
  onData (issue 5 0 noBsk runMatSearch t p ts ds) s

/-! ### Updating a bank -/

/-- The slots that hold an entry, in rising order. -/
def usedSlots (x : Tab MatEntry) : List Nat := x.map (fun e => e.1)

/-- The slot where an entry of PRIO `p` belongs: after every entry of equal or lower PRIO (R193). -/
def insertAt (x : Tab MatEntry) (p : Nat) : Nat :=
  x.foldl (fun n e => if e.2.prio ≤ p then e.1 + 1 else n) 0

/-- Moves the entries of slots [a, b) by one slot up. -/
def shiftUp (x : Tab MatEntry) (a b : Nat) : Tab MatEntry := x.map (fun e => if a ≤ e.1 ∧ e.1 < b then (e.1 + 1, e.2) else e)
/-- Moves the entries of slots [a, b) by one slot down. -/
def shiftDown (x : Tab MatEntry) (a b : Nat) : Tab MatEntry := x.map (fun e => if a ≤ e.1 ∧ e.1 < b then (e.1 - 1, e.2) else e)

/-- The nearest free slot at or above `s`. -/
def freeUp (used : List Nat) (s n : Nat) : Option Nat := (List.range (n - s)).find? (fun i => !used.contains (s + i)) |>.map (fun i => s + i)
/-- The nearest free slot below `s`. -/
def freeDown (used : List Nat) (s : Nat) : Option Nat := (List.range s).find? (fun i => !used.contains (s - 1 - i)) |>.map (fun i => s - 1 - i)

/-- A rule insert (R193): the bank after it and the entries moved; none where no slot is free. Of two free slots equally near, the model
takes the upper. -/
def ruleInsert (n : Nat) (x : Tab MatEntry) (e : MatEntry) : Option (Tab MatEntry × Nat) :=
  let pos := insertAt x e.prio
  let up := freeUp (usedSlots x) pos n
  let down := freeDown (usedSlots x) pos
  let goUp := fun f => some (Tab.set (shiftUp x pos f) pos e, f - pos)
  let goDown := fun f => some (Tab.set (shiftDown x (f + 1) pos) (pos - 1) e, pos - 1 - f)
  match up, down with
  | some u, some w => if u - pos ≤ pos - 1 - w then goUp u else goDown w
  | some u, none => goUp u
  | none, some w => goDown w
  | none, none => none

/-- The placement that `mat.spread` restores: entry `i` of `m` in a bank of sections of `s` slots, one slot free in each section while the
entries allow it (R195). -/
def spreadSlot (n s m i : Nat) : Nat :=
  let sections := n / Nat.max 1 s
  let full := m - (n - sections)
  if i < full * s then i else full * s + (i - full * s) / Nat.max 1 (s - 1) * s + (i - full * s) % Nat.max 1 (s - 1)

/-- Whether every section of a bank has a free slot (R195, SPREAD_NEED of R214). -/
def spreadOk (k : Ctl) (d : Data) (b : Nat) : Bool :=
  (List.range (k.bankSlots b / k.bankSection b)).all (fun i =>
    decide (((d.bankTab b).filter (fun e => e.1 / k.bankSection b == i)).length < k.bankSection b))

/-- The entry image at a DPA for a bank of `w` units (R192). -/
def imageAt (d : Data) (a w : Nat) : MatEntry :=
  let care := BitVec.ofNat 320 (d.rd (a + 40) 40) &&& unitMask w
  { key := BitVec.ofNat 320 (d.rd a 40) &&& care, care := care, tag := BitVec.ofNat 8 (d.rd (a + 80) 1), prio := d.rd (a + 82) 2, assoc := d.rd (a + 88) 8 }

/-- Whether an image's reserved bytes are zero, and its key bits lie within `w` units (R192, R208). -/
def imageOk (d : Data) (a w : Nat) : Bool :=
  d.rd (a + 81) 1 == 0 && d.rd (a + 84) 4 == 0 && decide (d.rd a 40 < 2 ^ (80 * w))

/-- The share of a hash's home bank is in service (R81, R200). -/
def Ctl.homeUp (k : Ctl) (h : Nat) : Bool := match k.homeBank h with | some b => k.up (b / 8) 17 | none => true

/-- The prefix insert (R200, R202, R203). The bank is the home bank of the hash, whatever BANK names. A frame whose REFCNT is at 65,535 takes
no further reference, as in a map (R144). -/
def prefixInsert (k : Ctl) (d : Data) (p h m a : Nat) : Data × Status × Nat :=
  if d.rd a 8 ≠ h ∨ recModel d a ≠ m ∨ recPart d a ≠ p then (d, .badDesc, 0)
  else if (findPrefix k d h m p).isSome then (d, .ok, 1)
  else
    match k.homeBank h with
    | none => (d, .cfgInvalid, 0)
    | some b =>
      if k.fld (0x1740040 + 0x1000 * p) 0 19 ≤ (prefixEntries k d p).length ∨
          (recFrames d a).any (fun f => refcnt d (k.frecOf m f) == 65535) then (d, .noSpace, 0)
      else
        match freeUp (usedSlots (d.bankTab b)) 0 8192 with
        | none => (d, .noSpace, 0)
        | some s =>
          let d1 := (recFrames d a).foldl (fun e f => addRef e (k.frecOf m f)) (bumpGen d a)
          let e : MatEntry := ⟨prefixKey h m p, unitMask 1, BitVec.ofNat 8 (h / 2 ^ 56), 0, a⟩
          ((d1.setBank b (Tab.set (d1.bankTab b) s e)).bump (matCnt b 2) 1, .ok, 0)

/-- Roles that hold a local prefix index (R19). -/
def Ctl.indexRole (k : Ctl) : Bool := k.role == 1 || k.role == 3 || k.role == 4

/-- The checks that the three updates share (R192, R208). -/
def updateChecks (k : Ctl) (d : Data) (t : Nat) (th : Thread) (x : Desc) (img : Bool) : List (Option Status) :=
  let b := df x 8 0 5
  let a := df x 0 0 48
  [failIf (!descOk x [(0, 0, 48), (8, 0, 6)] || (img && a % 8 != 0)) .badDesc,
   if df x 8 5 1 = 0 || !img then failIf (!k.bankRule b th.part) .perm else none,
   if img then k.dpaCheck th.part a 96 false else none,
   k.offCheck (if df x 8 5 1 = 0 || !img then b / 8 else regionOf t) 17,
   failIf (img && d.bad a 96) .poison]

/-- `mat.insert` (R192, R193, R200 to R203, R208). -/
def runMatInsert : EngRun := engRun (fun k d t id th o =>
  let x := o.desc
  let b := df x 8 0 5
  let a := df x 0 0 48
  let isPre := df x 8 5 1 == 1
  let w := if isPre then 1 else k.bankWidth b
  let e := imageAt d a w
  checked d t id
    ([failIf (isPre && !k.indexRole && descOk x [(0, 0, 48), (8, 0, 6)] && a % 8 == 0) .perm] ++ updateChecks k d t th x true ++
      [failIf (isPre && !k.homeUp (fld e.key 0 64)) .domainOff, failIf (!imageOk d a w) .badDesc])
    (if isPre then
       let rc := e.assoc % 2 ^ 48
       match (if rc % 64 ≠ 0 ∨ e.assoc ≠ rc then some Status.badDesc
         else firstOf [k.dpaCheck th.part rc 64 false, failIf (d.bad rc 64) .poison,
           k.dpaCheck th.part rc (64 + 8 * recLayers d rc) false]) with
       | some st => d.finish t id st 0 0
       | none =>
         let r := prefixInsert k d th.part (fld e.key 0 64) (fld e.key 64 12) rc
         r.1.finish t id r.2.1 0 r.2.2
     else
       match ruleInsert (k.bankSlots b) (d.bankTab b) e with
       | none => d.finish t id .noSpace 0 0
       | some r => ((d.setBank b r.1).bump (matCnt b 2) (w * (r.2 + 1))).finish t id .ok 0 0))

/-- `mat.insert`: the issue. -/
def execMatInsert (t : Nat) (p : BitVec 2) (ts : BitVec 5) (ds : BitVec 4) (s : State) : Host.Outcome State Fault Refusal :=
  onData (issue 5 1 noBsk runMatInsert t p ts ds) s

/-- `mat.delete` (R196, R207). -/
def runMatDelete : EngRun := engRun (fun k d t id th o =>
  let x := o.desc
  let b := df x 8 0 5
  let a := df x 0 0 48
  let isPre := df x 8 5 1 == 1
  let e := imageAt d a (if isPre then 1 else k.bankWidth b)
  checked d t id (updateChecks k d t th x true ++
      [failIf (isPre && !k.homeUp (fld e.key 0 64)) .domainOff, failIf (!imageOk d a (if isPre then 1 else k.bankWidth b)) .badDesc])
    (if isPre then
       match findPrefix k d (fld e.key 0 64) (fld e.key 64 12) th.part with
       | none => d.finish t id .ok 0 0
       | some (hb, s, y) => settleMat k (dropPrefix (d.start t id) hb s y (some (t, id)))
     else
       match (d.bankTab b).find? (fun y => y.2.key == e.key && y.2.care == e.care && y.2.prio == e.prio) with
       | none => d.finish t id .ok 0 0
       | some y => ((d.setBank b (Tab.erase (d.bankTab b) y.1)).bump (matCnt b 2) 1).finish t id .ok 1 0))

/-- `mat.delete`: the issue. -/
def execMatDelete (t : Nat) (p : BitVec 2) (ts : BitVec 5) (ds : BitVec 4) (s : State) : Host.Outcome State Fault Refusal :=
  onData (issue 5 2 noBsk runMatDelete t p ts ds) s

/-- Restores the spacing of a rule bank whose sections have not all a free slot: the entries moved (R195). -/
def spreadBank (k : Ctl) (d : Data) (b : Nat) : Data × Nat :=
  if spreadOk k d b then (d, 0)
  else
    let x := d.bankTab b
    let y := (List.range x.length).zip x |>.map (fun e =>
      (spreadSlot (k.bankSlots b) (k.bankSection b) x.length e.1, e.2.2))
    let moved := ((x.zip y).filter (fun e => e.1.1 != e.2.1)).length
    ((d.setBank b y).bump (matCnt b 2) (k.bankWidth b * moved), moved)

/-- `mat.spread` (R195): COUNT the entries moved. A bank whose sections all have a free slot is left as it is. -/
def runMatSpread : EngRun := engRun (fun k d t id th o =>
  let r := spreadBank k d (df o.desc 8 0 5)
  checked d t id (updateChecks k d t th o.desc false) (r.1.finish t id .ok r.2 0))

/-- `mat.spread`: the issue. -/
def execMatSpread (t : Nat) (p : BitVec 2) (ts : BitVec 5) (ds : BitVec 4) (s : State) : Host.Outcome State Fault Refusal :=
  onData (issue 5 3 noBsk runMatSpread t p ts ds) s

/-! ### The chain hash (R197) -/

/-- The state of SipHash. -/
structure Sip where
  a : BitVec 64
  b : BitVec 64
  c : BitVec 64
  e : BitVec 64
deriving DecidableEq, Repr

/-- One SipRound. -/
def Sip.round (v : Sip) : Sip :=
  let a := v.a + v.b
  let b := v.b.rotateLeft 13 ^^^ a
  let a := a.rotateLeft 32
  let c := v.c + v.e
  let e := v.e.rotateLeft 16 ^^^ c
  let a := a + e
  let e := e.rotateLeft 21 ^^^ a
  let c := c + b
  let b := b.rotateLeft 17 ^^^ c
  let c := c.rotateLeft 32
  ⟨a, b, c, e⟩

/-- One 64-bit block: two rounds. -/
def Sip.block (v : Sip) (m : BitVec 64) : Sip :=
  let w := Sip.round (Sip.round { v with e := v.e ^^^ m })
  { w with a := w.a ^^^ m }

/-- The blocks of a message of `n` bytes in all, the last one holding its length. -/
def sipBlocks (n : Nat) : Nat → List Byte → List (BitVec 64)
  | 0, _ => []
  | f + 1, l =>
    if l.length < 8 then [BitVec.ofNat 64 (ofBytesLE l + n % 256 * 2 ^ 56)]
    else BitVec.ofNat 64 (ofBytesLE (l.take 8)) :: sipBlocks n f (l.drop 8)

/-- SipHash-2-4 of a message under a 128-bit key. -/
def sipHash (key : Nat) (l : List Byte) : Nat :=
  let k0 := BitVec.ofNat 64 key
  let k1 := BitVec.ofNat 64 (key / 2 ^ 64)
  let v : Sip := ⟨k0 ^^^ 0x736f6d6570736575#64, k1 ^^^ 0x646f72616e646f6d#64, k0 ^^^ 0x6c7967656e657261#64, k1 ^^^ 0x7465646279746573#64⟩
  let w := (sipBlocks l.length (l.length / 8 + 1) l).foldl Sip.block v
  let z := Sip.round (Sip.round (Sip.round (Sip.round { w with c := w.c ^^^ 0xff#64 })))
  (z.a ^^^ z.b ^^^ z.c ^^^ z.e).toNat

/-- The hashes of `n` pages of `tb` bytes of token words from `a` on, each under the hash before it. -/
def chain (d : Data) (key a tb : Nat) : Nat → Nat → List Nat
  | 0, _ => []
  | n + 1, h =>
    let x := sipHash key (bytesLE 8 h ++ memBytes d.mem a tb)
    x :: chain d key (a + tb) tb n x

/-- `mat.hash` (R197 to R199). -/
def runMatHash : EngRun := engRun (fun k d t id th o =>
  let x := o.desc
  let tok := df x 0 0 48
  let out := df x 8 0 48
  let n := df x 16 0 19
  let tt := 16 * 2 ^ df x 20 0 2
  let pages := n / tt
  checked d t id
    [failIf (!descOk x [(0, 0, 48), (8, 0, 48), (16, 0, 19), (20, 0, 3), (24, 0, 64), (32, 0, 32), (36, 0, 12)] || df x 20 0 2 == 3 ||
        decide (4096 * tt < n)) .badDesc,
     k.dpaCheck th.part tok (4 * tt * pages) false, k.dpaCheck th.part out (8 * pages) false,
     k.offCheck (regionOf t) 17, failIf (!Tab.has k.sec.prefixKeys th.part) .cfgInvalid, failIf (pages == 0) .okEmpty,
     failIf (d.bad tok (4 * tt * pages)) .poison]
    (let key := Tab.getD k.sec.prefixKeys th.part 0
     let salt := df x 24 0 64
     let h0 := if df x 20 2 1 = 1 then salt
       else sipHash key (bytesLE 2 (df x 36 0 12) ++ bytesLE 2 tt ++ bytesLE 4 (df x 32 0 32) ++ bytesLE 8 salt)
     (d.wrBytes out ((chain d key tok (4 * tt) pages h0).flatMap (fun h => bytesLE 8 h))).finish t id .ok pages 0))

/-- `mat.hash`: the issue. -/
def execMatHash (t : Nat) (p : BitVec 2) (ts : BitVec 5) (ds : BitVec 4) (s : State) : Host.Outcome State Fault Refusal :=
  onData (issue 5 4 noBsk runMatHash t p ts ds) s

/-! ### Looking up a run -/

/-- LEASE in ns (R212). -/
def Ctl.leaseNs (k : Ctl) : Nat := k.fld 0x1700040 0 16 * 100000

/-- A hit: LAST_HIT, HITS and LEASE_END (R205). -/
def hitRecord (k : Ctl) (d : Data) (a : Nat) : Data :=
  let d1 := (d.wr (a + 16) 8 k.ns).wr (a + 32) 8 (d.rd (a + 32) 8 + 1)
  d1.wr (a + 24) 8 (Nat.max (d1.rd (a + 24) 8) (k.ns + k.leaseNs))

/-- The run of hits of a list of hashes, as records (R205); each lookup is a search of its home bank. -/
def runHits (k : Ctl) (m p : Nat) : List Nat → Data → Data × List Nat
  | [], d => (d, [])
  | h :: r, d =>
    match k.homeBank h with
    | none => (d, [])
    | some b =>
      let d1 := (compareParity k d b (BitVec.ofNat 8 (h / 2 ^ 56)) 0xFF#8).bump (matCnt b 0) 1
      match findPrefix k d1 h m p with
      | none => (d1, [])
      | some (_, _, e) =>
        let w := runHits k m p r (hitRecord k (d1.bump (matCnt b 1) 1) e.assoc)
        (w.1, e.assoc :: w.2)

/-- The result entry of a record (R205). -/
def resultEntry (d : Data) (a : Nat) : Nat := a / 64 % 2 ^ 42 + recGen d a * 2 ^ 42

/-- The request of a forwarded lookup, whose layout the spec leaves open: kind 1, MODEL, count, hashes. -/
def lookupMsg (m : Nat) (hs : List Nat) : List Byte := bytesLE 2 1 ++ bytesLE 2 m ++ bytesLE 4 hs.length ++ hs.flatMap (fun h => bytesLE 8 h)
/-- Its answer: kind 2, status, count, result entries. -/
def lookupAns (st : Status) (es : List Nat) : List Byte := bytesLE 2 2 ++ bytesLE 2 st.code ++ bytesLE 4 es.length ++ es.flatMap (fun h => bytesLE 8 h)
/-- The 8-byte words of a message from byte 8 on. -/
def msgWords (m : List Byte) (n : Nat) : List Nat := (List.range n).map (fun i => mfld m (8 + 8 * i) 8)

/-- The first prefix lookup or pull of an origin in ADMITTED moves it to PREFIX (R93). -/
def enterPrefix (k : Ctl) (d : Data) (b : Option Nat) : Data :=
  match b with
  | none => d
  | some b =>
    let x := d.basket b
    if x.state = .admitted ∧ !x.receiver ∧ !x.lost then d.onBasket b (fun y => y.enter k .inPrefix true none) else d

/-- Whether bank `b` is a route bank of partition `p` (R206). -/
def Ctl.routeBank (k : Ctl) (b p : Nat) : Bool := k.bankRule b p && k.bank b 12 1 == 1

/-- `mat.run` (R204 to R206, R208). A lookup whose home or route bank is in a share out of service ends with DOMAIN_OFF (R81). The lookup belongs to the issuing thread's Basket. -/
def runMatRun : EngRun := engRun (fun k d t id th o =>
  let x := o.desc
  let hs := df x 0 0 48
  let res := df x 8 0 48
  let start := df x 16 0 12
  let cnt := df x 18 0 13
  let m := df x 20 0 12
  let fwd := df x 20 12 1 == 1
  let list := (List.range cnt).map (fun i => d.rd (hs + 8 * (start + i)) 8)
  checked d t id
    [failIf (!descOk x [(0, 0, 48), (8, 0, 48), (16, 0, 12), (18, 0, 13), (20, 0, 13)] || decide (4096 < start + cnt)) .badDesc,
     failIf (if fwd then !k.promptRole else !k.indexRole) .perm,
     k.dpaCheck th.part (hs + 8 * start) (8 * cnt) false, if fwd then k.dpaCheck th.part hs 8 false else none,
     k.dpaCheck th.part res (8 * cnt) false,
     k.offCheck (regionOf t) 17, failIf (cnt == 0) .ok,
     failIf (d.bad (hs + 8 * start) (8 * cnt) || (fwd && d.bad hs 8)) .poison,
     failIf (if fwd then !(List.range 32).all (fun b => !k.routeBank b th.part || k.up (b / 8) 17) else !list.all k.homeUp) .domainOff]
    (
     let d0 := enterPrefix k d th.bsk
     if !fwd then
       let r := runHits k m th.part list d0
       (r.1.wrBytes res (r.2.flatMap (fun a => bytesLE 8 (resultEntry r.1 a)))).finish t id .ok r.2.length 0
     else
       let banks := (List.range 32).filter (fun b => k.routeBank b th.part)
       let r := searchBanks k d0 banks (BitVec.ofNat 320 (1 + m * 16 + d.rd hs 8 * 2 ^ 16)) 0#8 0#8
       if banks.any (fun b => r.1.stsBit 0x17000C0 b) then r.1.finish t id .uncorrectable 0 0
       else
         match r.2.1 with
         | none => r.1.finish t id .ok 0 1
         | some (_, e) =>
           let q := e.assoc % 2 ^ 14
           match firstOf [failIf (k.qpPart q != some th.part) .perm, (d.qp q).refusal] with
           | some st => r.1.finish t id st 0 0
           | none =>
             let d1 := (r.1.start t id).sendEngine q 4 o.cls (lookupMsg m list) .nobody
             { d1 with mat := { d1.mat with lookups := d1.mat.lookups ++ [⟨t, id, q, res⟩] } }))

/-- `mat.run`: the issue. -/
def execMatRun (t : Nat) (p : BitVec 2) (ts : BitVec 5) (ds : BitVec 4) (s : State) : Host.Outcome State Fault Refusal :=
  onData (issue 5 5 noBsk runMatRun t p ts ds) s

/-- A cache node searches its prefix index for a forwarded lookup and answers (R206), DOMAIN_OFF where a home bank is out of service; another role answers PERM. -/
def execForwardedLookup (qp : Nat) (s : State) : Host.Outcome State Fault Refusal :=
  onData (fun k d =>
    match d.peekMsg qp 4 (fun m => mfld m.bytes 0 2 == 1) with
    | none => d
    | some m =>
      let d1 := takeMsg k d qp
      let answer := fun (e : Data) st es =>
        if (e.qp qp).state = .ready then e.sendEngine qp 4 m.cls (lookupAns st es) .nobody else e
      if !k.cacheRole then answer d1 .perm []
      else if !(msgWords m.bytes (mfld m.bytes 4 4)).all k.homeUp then answer d1 .domainOff []
      else
        let r := runHits k (mfld m.bytes 2 2) (d.qp qp).part (msgWords m.bytes (mfld m.bytes 4 4)) d1
        answer r.1 .ok (r.2.map (fun a => resultEntry r.1 a))) s

/-- The answer of a forwarded lookup reaches its origin (R206): it supplies the run and the result entries. -/
def lookupAnswer (d : Data) (q : Nat) (m : List Byte) : Data :=
  match d.mat.lookups.find? (fun x => x.qp == q) with
  | none => d
  | some x =>
    let d1 := { d with mat := { d.mat with lookups := d.mat.lookups.filter (fun y => !(y.thread == x.thread && y.opId == x.opId)) } }
    let st := (Status.ofCode? (mfld m 2 2)).getD .checkFail
    if st = .ok then
      (d1.wrBytes x.result ((msgWords m (mfld m 4 4)).flatMap (fun w => bytesLE 8 w))).finish x.thread x.opId .ok (mfld m 4 4) 0
    else d1.finish x.thread x.opId st 0 0

end Sys2Proof.Machine
end

