-- ==== Sys2Proof/Machine/KvOps.lean ====
section
/-!
DEFINITION. The page walker's operations: `kvw.map`, `kvw.unmap` (R137, R578), `kv.append` (R296 to R298), the speculative commit (R141, R142,
R340, R341), and the sweeps of R147.
-/
namespace Sys2Proof.Machine

/-- Page indexes are below 2^18 (R129). -/
def pageMax : Nat := 262144

/-- Whether a descriptor names a page index that does not exist, by its first page and its count (R81, R129). -/
def pageBad (p n : Nat) : Bool := decide (pageMax ≤ p) || decide (pageMax < p + n)

/-! ### Mapping -/

/-- The pages of a layer that a Basket maps. -/
def layerPages (k : Ctl) (d : Data) (b l : Nat) : List Nat :=
  let x := d.basket b
  if k.isReel x.model l then
    let top := Tab.getD d.kvw.reelTop (layerKey b l) 0
    let lo := top - k.reelLen x.model
    ((List.range (top - lo)).map (fun i => lo + i)).filter (fun p => mapped k d b l p) ++
      (d.kvw.reelTent.filter (fun e => e.1 / 2 ^ 18 == layerKey b l && decide (top ≤ e.1 % 2 ^ 18))).map (fun e => e.1 % 2 ^ 18)
  else if x.ptRoot = 0 then []
  else
    let e1 := d.rd (x.ptRoot + 8 * l) 8
    if e1 % 2 = 0 then []
    else
      (List.range 512).flatMap (fun i =>
        let e2 := d.rd (bitsOf e1 12 36 * 4096 + 8 * i) 8
        if e2 % 2 = 0 then []
        else ((List.range 512).filter (fun j => pteValid (d.rd (bitsOf e2 12 36 * 4096 + 8 * j) 8))).map (fun j => 512 * i + j))

/-- Whether page `p` of a layer can hold a new mapping: in range, unmapped, and in a Reel layer not below the ring's span. -/
def mapOpen (k : Ctl) (d : Data) (b l p : Nat) : Bool :=
  decide (p < pageMax) && !mapped k d b l p &&
  !(k.isReel (d.basket b).model l && decide (p + k.reelLen (d.basket b).model ≤ Tab.getD d.kvw.reelTop (layerKey b l) 0))

/-- Maps pages, as (layer, page, frame), in order; stops where REFCNT is at 65,535 or a page-table unit is missing (R137, R144). -/
def mapList (k : Ctl) (b : Nat) : List (Nat × Nat × Nat) → Data → Data × Nat × Bool
  | [], d => (d, 0, true)
  | (l, p, f) :: r, d =>
    if refcnt d (k.frecOf (d.basket b).model f) = 65535 then (d.setSts 0x1200080 2, 0, false)
    else
      match mapShared k d b l p f with
      | (d1, false) => (d1, 0, false)
      | (d1, true) =>
        let w := mapList k b r d1
        (w.1, w.2.1 + 1, w.2.2)

/-- The state rule of `kvw.map` for its target (R137, R94). -/
def Basket.mapTarget (x : Basket) : Option Status :=
  match x.opCheck with
  | some e => some e
  | none =>
    failIf (!(x.anchor && (x.state == .admitted || x.state == .inPrefix || x.state == .prefill || x.state == .anchor || x.state == .decoding)))
      x.noRule

/-- The state rule of `kvw.map` for its source, which must be the anchor (R137). -/
def Basket.mapSource (x : Basket) : Option Status :=
  match x.opCheck with
  | some e => some e
  | none => failIf (!x.anchor) .notAnchor

/-- Maps every page of a list, or none (R81, R129, R137): a shortage leaves only its bit in KVW_STS. -/
def mapAll (k : Ctl) (b : Nat) (l : List (Nat × Nat × Nat)) (d : Data) : Data × Bool :=
  let r := mapList k b l d
  if r.2.2 then (r.1, true) else ({ d with sts := r.1.sts }, false)

/-- `kvw.map` (R137, R207, R578), its checks in the order of R81. -/
def runKvwMap : EngRun := engRun (fun k d t id th o =>
  let x := o.desc
  let b := df x 0 0 20
  let kind := df x 0 20 1
  let src := df x 4 0 20
  let rc := df x 8 0 42 * 64
  let gen := df x 8 42 16
  let l0 := df x 16 0 8
  let ln := df x 16 8 9
  let sp := df x 20 0 24
  let dp := df x 24 0 24
  let n := df x 28 0 13
  let y := d.basket b
  let m := y.model
  let pairs := (List.range ln).flatMap (fun l => (List.range n).map (fun i => (l0 + l, i)))
  checked d t id
    ([failIf (!descOk x [(0, 0, 21), (4, 0, 20), (8, 0, 58), (16, 0, 17), (20, 0, 24), (24, 0, 24), (28, 0, 13)] ||
        decide (256 < ln) || decide (4096 < n) || (kind == 1 && decide (1 < n)) || pageBad dp n || (kind == 0 && pageBad sp n)) .badDesc,
      k.bskCheck th b, if kind = 0 then k.bskCheck th src else k.dpaCheck th.part rc 64 false,
      failIf (kind == 1 && !d.bad rc 64 && recPart d rc != th.part) .perm, k.offCheck (b % 4) 18,
      if kind = 0 then stateOf2 y.mapTarget (d.basket src).mapSource else y.mapTarget,
      failIf (decide (k.mdlLayers m < l0 + ln)) .badDesc,
      failIf (pairs.any (fun q => !mapOpen k d b q.1 (dp + q.2))) .badDesc] ++
     (if kind = 0 then
        [failIf ((d.basket src).model != m) .badDesc,
         failIf (pairs.any (fun q => let e := pageEntry k d src q.1 (sp + q.2); !pteValid e || pteTent e)) .badDesc]
      else if n = 0 ∨ ln = 0 then []
      else
        [failIf (d.bad rc 64) .poison, failIf (recGen d rc != gen) .staleGen,
         failIf (recModel d rc != m) .badDesc,
         failIf (pairs.any (fun q => !decide (q.1 < recLayers d rc) || !pteValid (recEntry d rc q.1))) .badDesc]) ++
     [failIf (pairs.isEmpty) .ok])
    (let frame := fun (q : Nat × Nat) => if kind = 0 then pageFrame k d src q.1 (sp + q.2) else pteFrame (recEntry d rc q.1)
     let r := mapAll k b (pairs.map (fun q => (q.1, dp + q.2, frame q))) d
     if r.2 then (if kind = 0 then pairs.foldl (fun e q => shareEntry k e src q.1 (sp + q.2)) r.1 else r.1).finish t id .ok pairs.length 0
     else r.1.finish t id .noSpace 0 0))

/-- `kvw.map`: the issue. -/
def execKvwMap (t : Nat) (p : BitVec 2) (ts : BitVec 5) (ds : BitVec 4) (s : State) : Host.Outcome State Fault Refusal :=
  onData (issue 9 0 descBsk runKvwMap t p ts ds) s

/-- `kvw.unmap`: removes the pages from an index to the end of a layer (R137), in every state but FREE, ORPHANED and RELEASING, of which the spec names none (DESIGN
CHOICE, log entry 182). -/
def runKvwUnmap : EngRun := engRun (fun k d t id th o =>
  let x := o.desc
  let b := df x 0 0 20
  let l := df x 4 0 8
  let p := df x 8 0 24
  checked d t id
    [failIf (!descOk x [(0, 0, 20), (4, 0, 8), (8, 0, 24)] || decide (pageMax ≤ p)) .badDesc, k.bskCheck th b,
     k.offCheck (b % 4) 18, (d.basket b).opCheck, failIf (decide (k.mdlLayers (d.basket b).model ≤ l)) .badDesc]
    (let ps := (layerPages k d b l).filter (fun q => decide (p ≤ q))
     (ps.foldl (fun e q => dropPage k e b l q) d).finish t id .ok ps.length 0))

/-- `kvw.unmap`: the issue. -/
def execKvwUnmap (t : Nat) (p : BitVec 2) (ts : BitVec 5) (ds : BitVec 4) (s : State) : Host.Outcome State Fault Refusal :=
  onData (issue 9 1 descBsk runKvwUnmap t p ts ds) s

/-! ### Appending -/

/-- The frame in which position `pos` of a layer may be written, opening or copying its page (R137, R139, R140, R145). -/
def appendFrame (k : Ctl) (d : Data) (b l p : Nat) (tent : Bool) : Data × Option Nat :=
  if mapped k d b l p then writable k (translate d b l p) b l p else openPage k d b l p tent

/-- Appends `n` positions from `pos`, page by page, from staged K and V at address `a` in a layout of `s` positions, of which `i` are done;
stops where a page cannot be had. The positions written are counted. -/
def appendPages (k : Ctl) (b l : Nat) (tent fp : Bool) (a s : Nat) : Nat → Nat → Nat → Nat → Data → Data × Nat × ConvFlags
  | 0, _, _, _, d => (d, 0, ⟨0, 0⟩)
  | fuel + 1, pos, i, n, d =>
    if n = 0 then (d, 0, ⟨0, 0⟩)
    else
      let m := (d.basket b).model
      let sh := k.shape m
      let tt := Nat.max 1 sh.t
      let c := Nat.min n (tt - pos % tt)
      match appendFrame k d b l (pos / tt) tent with
      | (d1, none) => (d1, 0, ⟨0, 0⟩)
      | (d1, some f) =>
        let src := fun (v : Bool) (j h ch : Nat) =>
          stagedVal fp sh.fmt (d.rd (a + (if v then 2 * s * sh.kh * sh.dim else 0) + 2 * (((i + j) * sh.kh + h) * sh.dim + ch)) 2)
        let w := writeFrame d1 sh f (pos % tt) c src
        let r := appendPages k b l tent fp a s fuel (pos + c) (i + c) (n - c) w.1
        (r.1, c + r.2.1, w.2.plus r.2.2)

/-- The frames of a layer's pages `p0` to `p1` that a write would copy first, each under a pin (R145). -/
def cowFrames (k : Ctl) (d : Data) (b l p0 p1 : Nat) : List Nat := (List.range (p1 + 1 - p0)).filterMap (fun i => cowFrame k d b l (p0 + i))

/-- `kv.append` (R296 to R298). COUNT is the positions written. Once it passes steps 1 to 4 of R81 the Basket decodes, whatever status the append completes with (R93); a
copy pin that finds PINS at 65,535 waits (R144). A write that the link fails completes it with UNCORRECTABLE (R282). -/
def runKvAppend : EngRun := engRun (fun k d t id th o =>
  let x := o.desc
  let b := df x 0 0 20
  let l := df x 0 20 8
  let tent := df x 0 28 1 == 1
  let pos := df x 4 0 32
  let n := df x 8 0 7
  let src := df x 16 0 48
  let w := df x 24 0 16
  let y := d.basket b
  let m := y.model
  let size := 4 * n * k.mdlKh m * k.mdlD m
  let sb := k.winSlotBytes w
  let a := k.winAddr w + src
  checked d t id
    [failIf (!descOk x [(0, 0, 29), (4, 0, 32), (8, 0, 7), (16, 0, 48), (24, 0, 16)] || decide (64 < n)) .badDesc,
     k.bskCheck th b, failIf (!k.genRole) .perm,
     if !k.winOn w then some .badDesc else failIf (k.winPart w != th.part || k.winOut w) .perm,
     failIf (!k.up (b % 4) 18 || !k.up (b % 4) 11) .domainOff, winOff k d w, y.decodeCheck k,
     failIf (pos != y.seqLen + y.tailLen || (tent && decide (64 < y.tailLen + n)) || (!tent && y.tailLen != 0) ||
       decide (k.mdlLayers m ≤ l) || decide (pageMax * k.mdlT m < pos + n) ||
       decide (k.winSlots w * sb < src + size) || decide (sb < src % Nat.max 1 sb + size)) .badDesc]
    (let d1 := d.onBasket b (fun z => z.decodeEnter k)
     if n = 0 then d1.finish t id .okEmpty 0 0
     else if pinFull k d1 m (cowFrames k d1 b l (pos / k.mdlT m) ((pos + n - 1) / k.mdlT m)) then d1.setSts 0x1200080 3
     else if d1.bad a size then d1.finish t id .poison 0 0
     else
       let r := appendPages k b l tent (k.winFp16 w) a n (n + 1) pos 0 n d1
       let p0 := pos / k.mdlT m
       let z := touchFrames k .write b l ((List.range (ceilDiv (pos + r.2.1) (k.mdlT m) - p0)).map (fun i => p0 + i)) r.1
       let d2 := z.1.countConv (b % 4) r.2.2
       let d3 := if tent ∧ 0 < r.2.1 then
           d2.onBasket b (fun z => if z.state = .decoding then z.enter k .speculating true none else z)
         else d2
       let last := l + 1 == k.mdlLayers m
       let d4 := if !last then d3
         else if tent then d3.onBasket b (fun z => { z with tailLen := z.tailLen + r.2.1 })
         else if r.2.1 = n then d3.onBasket b (fun z => { z with seqLen := z.seqLen + n }) else d3
       d4.finish t id (if z.2.isSome then .uncorrectable else if r.2.1 = n then .ok else .noSpace) r.2.1 0))

/-- `kv.append`: the issue. -/
def execKvAppend (t : Nat) (p : BitVec 2) (ts : BitVec 5) (ds : BitVec 4) (s : State) : Host.Outcome State Fault Refusal :=
  onData (issue 9 2 descBsk runKvAppend t p ts ds) s

/-! ### The speculative commit -/

/-- The key groups of a page at commit: the written count returns to the committed positions (R340). -/
def trimWritten (k : Ctl) (m p keepTo : Nat) (d : Data) (f : Nat) : Data :=
  d.setWritten f (Nat.min (d.written f) (keepTo - p * k.mdlT m))

/-- One page of a tail at commit (R141, R142): kept where it holds an accepted position, else freed; the frames freed are counted. Past TAIL_LEN only the pages that a
tentative append opened and did not complete are the tail's. -/
def commitPage (k : Ctl) (b l keepTo : Nat) (acc : Data × Nat) (p : Nat) : Data × Nat :=
  let d := acc.1
  let m := (d.basket b).model
  let e := pageEntry k d b l p
  if !pteValid e then acc
  else if keepTo ≤ p * k.mdlT m then
    (if pteTent e || decide (p * k.mdlT m < (d.basket b).seqLen + (d.basket b).tailLen) then (dropPage k d b l p, acc.2 + 1) else acc)
  else
    match Tab.get? d.kvw.reelTent (layerKey b l * 2 ^ 18 + p) with
    | some f =>
      let d1 := { d with kvw := { d.kvw with reelTent := Tab.erase d.kvw.reelTent (layerKey b l * 2 ^ 18 + p) } }
      let r := match l3At d1 b l (k.l3Ix m l p) with
        | some a =>
          let old := d1.rd a 8
          if pteValid old then
            (deref (d1.onBasket b (fun x => x.unmapOne (pteShared old))) (b % 4) (k.frecOf m (pteFrame old)), 1)
          else (d1, 0)
        | none => (d1, 0)
      (trimWritten k m p keepTo (setEntry k r.1 b l p (pte false false (k.mdlTier m) f)).1 f, acc.2 + r.2)
    | none =>
      let d1 := if pteTent e then (setEntry k d b l p (pte (pteShared e) false (k.mdlTier m) (pteFrame e))).1 else d
      (if pteShared e then d1 else trimWritten k m p keepTo d1 (pteFrame e), acc.2)

/-- Applies a speculative commit with `c` accepted positions to every layer (R340): the frames freed are counted. A tail reaches 64 positions at most (R140). -/
def tailCommit (k : Ctl) (d : Data) (b c : Nat) : Data × Nat :=
  let x := d.basket b
  let tt := Nat.max 1 (k.mdlT x.model)
  let p0 := x.seqLen / tt
  let n := (x.seqLen + 63) / tt + 1 - p0
  let r := (List.range (k.mdlLayers x.model)).foldl (fun acc l =>
    (List.range n).foldl (fun acc2 i => commitPage k b l (x.seqLen + c) acc2 (p0 + i)) acc) (d, 0)
  (wmCheck k (r.1.onBasket b (fun y =>
    { (y.enter k .decoding true none) with seqLen := y.seqLen + c, tailLen := 0 })) (k.mdlPart x.model), r.2)

/-- The speculative commits whose earlier operations have all completed act, oldest first (R340, R341). -/
def settleCommits (k : Ctl) : List SpecOp → Data → Data
  | [], d => d
  | c :: r, d =>
    if c.before.any (fun x => (d.op x.1 x.2).isSome) then settleCommits k r d
    else
      let d1 := { d with adp := { d.adp with commits := d.adp.commits.filter (fun y => !(y.thread == c.thread && y.opId == c.opId)) } }
      let x := d1.basket c.bsk
      match x.opCheck with
      | some e => settleCommits k r (d1.finish c.thread c.opId e 0 0)
      | none =>
        if x.state ≠ .speculating ∨ x.tailLen ≤ c.accept then
          settleCommits k r (d1.finish c.thread c.opId (if x.anchor then .badDesc else .notAnchor) 0 0)
        else
          let w := tailCommit k d1 c.bsk (c.accept + 1)
          let p := x.part
          let d2 := ((w.1.bump (bskCnt p 19) 1).bump (bskCnt p 20) (c.accept + 1)).bump (bskCnt p 22) w.2
          let d3 := if c.accept = 0 then d2.bump (bskCnt p 21) 1 else d2
          settleCommits k r (d3.finish c.thread c.opId .ok (c.accept + 1) w.2)

/-- The row entries of a `sail.delta` in its LIST, as (Basket, rows) (R334). -/
def deltaList (d : Data) (x : Desc) : List (Nat × Nat) :=
  (List.range (df x 0 10 6)).map (fun i => let v := d.rd (df x 8 0 48 + 4 * i) 4; (bitsOf v 0 20, bitsOf v 20 7))

/-- The Baskets that a `sail.delta` of thread `t` names: as its engine has read them, or as its list stands before that. -/
def deltaNames (d : Data) (t : Nat) (o : Op) : List Nat :=
  if o.eng ≠ 2 ∨ o.op ≠ 3 ∨ o.done.isSome then []
  else match d.adp.deltas.find? (fun x => x.1.1 == t && x.1.2.1 == o.id) with
  | some x => x.2.2
  | none => if o.started then [] else (deltaList d o.desc).map (fun e => e.1)

/-- `spec.commit` (R340, R341): it waits for the operations of its Basket issued before it. -/
def runSpecCommit : EngRun := engRun (fun k d t id th o =>
  let x := o.desc
  let b := df x 0 0 20
  let y := d.basket b
  checked d t id
    [failIf (!descOk x [(0, 0, 20), (0, 20, 7)] || decide (63 < df x 0 20 7)) .badDesc, k.bskCheck th b,
     failIf (!k.up (b % 4) 21 || !k.up (b % 4) 18) .domainOff, y.opCheck, failIf (!y.anchor || y.held) .notAnchor]
    (let before := d.fyl.threads.flatMap (fun e =>
       (e.2.ops.filter (fun z => (z.bsk == some b || (deltaNames d e.1 z).contains b) && !(e.1 == t && z.id == id))).map (fun z => (e.1, z.id)))
     let c : SpecOp := ⟨t, id, b, df x 0 20 7, before⟩
     settleCommits k [c] { d.start t id with adp := { d.adp with commits := d.adp.commits ++ [c] } }))

/-- `spec.commit`: the issue. -/
def execSpecCommit (t : Nat) (p : BitVec 2) (ts : BitVec 5) (ds : BitVec 4) (s : State) : Host.Outcome State Fault Refusal :=
  onData (issue 0xA 12 descBsk runSpecCommit t p ts ds) s

/-! ### Reclamation by epoch -/

/-- RECLAIM_PERIOD in ticks (R149). -/
def Ctl.reclaimTicks (k : Ctl) : Nat := usTicks (k.fld 0x1200040 0 16)

/-- The engine operations outstanding on a tile. -/
def tileOps (d : Data) (tile : Nat) : List (Nat × Nat) :=
  (d.fyl.threads.filter (fun e => tileOf e.1 == tile)).flatMap (fun e => (e.2.ops.filter (fun o => o.done.isNone)).map (fun o => (e.1, o.id)))

/-- A sweep reaches a tile. -/
def sweepAt (d : Data) (tile : Nat) : Data :=
  { d with kvw := { d.kvw with sweep := some ⟨tile, tileOps d tile, false⟩ } }

/-- Every RECLAIM_PERIOD the walkers start a sweep; one still running delays it, and none is skipped (R147, R150). -/
def execReclaimSweep (s : State) : Host.Outcome State Fault Refusal :=
  onData (fun k d =>
    if k.ticks < d.kvw.nextSweep then d
    else
      let d1 := { d with kvw := { d.kvw with nextSweep := k.ticks + k.reclaimTicks } }
      match d1.kvw.sweep with
      | none => sweepAt d1 0
      | some w =>
        { d1.setSts 0x1200080 4 with kvw := { d1.kvw with owedSweeps := d1.kvw.owedSweeps + 1, sweep := some { w with late := true } } }) s

/-- The frame records of a model instance. -/
def frecList (k : Ctl) (m : Nat) : List Nat :=
  (List.range (k.mdlFrames m * (if k.mdlTier m = 0 then 2048 else 1))).map (fun f => k.mdlFrec m + 8 * f)

/-- The epoch advances: frames retired two epochs before return to their free lists (R147), and watermarks follow (R354). Which walker counts them is not stated (DESIGN
CHOICE, log entry 181). -/
def advanceEpoch (k : Ctl) (d : Data) : Data :=
  let e := d.kvw.epoch + 1
  let d1 := { d with kvw := { d.kvw with epoch := e } }
  let ms := (List.range 4096).filter (fun m => k.mdlOn m)
  let d2 := ms.foldl (fun acc m => (frecList k m).foldl (fun a r =>
    if frecState a r = 2 ∧ 2 ≤ (e + 65536 - bitsOf (a.rd r 8) 32 16) % 65536 then (a.wr r 8 0).bump (cntAddr 0x12 (r / 8 % 4) 5) 1
    else a) acc) d1
  (List.range 16).foldl (fun a p => wmCheck k a p) d2

/-- A tile passes the sweep once the operations issued on it before the sweep reached it have completed or hold their pins; after tile 15
the epoch advances, and a delayed sweep starts (R147). An operation that holds no pin, as one that reads no shared frame, keeps the sweep until it has completed (DESIGN
CHOICE, log entry 183). -/
def execTilePassSweep (tile : Nat) (s : State) : Host.Outcome State Fault Refusal :=
  onData (fun k d =>
    match d.kvw.sweep with
    | none => d
    | some w =>
      if w.tile ≠ tile then d
      else if w.ops.any (fun x => d.live x.1 x.2 && !d.kvw.pins.any (fun y => y.1 == x.1 && y.2.1 == x.2)) then d
      else if tile < 15 then sweepAt d (tile + 1)
      else
        let d1 := advanceEpoch k { d with kvw := { d.kvw with sweep := none } }
        if d1.kvw.owedSweeps = 0 then d1
        else sweepAt { d1 with kvw := { d1.kvw with owedSweeps := d1.kvw.owedSweeps - 1 } } 0) s

end Sys2Proof.Machine
end

