-- ==== Sys2Proof/Machine/Spool.lean ====
section
/-!
DEFINITION. The Spool's pushes (R216 to R244): `push.layer`, `push.end`, runs and their checks, credit, landing and its answers.
-/
namespace Sys2Proof.Machine

/-- Sets a bit of SPL_STS (R254). -/
def Data.splSts (d : Data) (i : Nat) : Data := d.setSts 0x1300080 i

/-! ### Runs -/

/-- Pages of a run at most: RUN_PAGES and 1 MiB of raw data, but at least one (R227). -/
def Ctl.runPages (k : Ctl) (bytes : Nat) : Nat := Nat.max 1 (Nat.min (k.fld 0x1300040 16 5) (1048576 / Nat.max 1 bytes))

/-- The page check (R228). -/
def pageCheck (l p : Nat) (raw : List Byte) : Nat := crc32c (bytesLE 4 (l % 256 + p % 2 ^ 24 * 256) ++ raw)

/-- The sum of the page checks of pages from `p` on. -/
def checkSum (l : Nat) : Nat → List (List Byte) → Nat
  | _, [] => 0
  | p, r :: rest => pageCheck l p r + checkSum l (p + 1) rest

/-- The pages of a run as raw bytes. -/
def RunTx.pages (d : Data) (r : RunTx) : List (List Byte) := r.frames.map (fun f => memBytes d.mem f r.bytes)

/-- The body of a run: the raw pages, or one Envelope object of them (R229). -/
def RunTx.body (k : Ctl) (d : Data) (r : RunTx) : List Byte :=
  let raw := (r.pages d).flatten
  if r.coded then (envPack (k.codeTable r.part r.table) r.table (k.mdlFmt r.model) false raw).1 else raw

/-- The units of credit that a run needs (R232). -/
def RunTx.need (k : Ctl) (d : Data) (r : RunTx) : Nat := unitsOf (r.body k d).length

/-- The message of a run (R225, R227). -/
def RunTx.msg (k : Ctl) (d : Data) (r : RunTx) : List Byte :=
  let body := r.body k d
  splHdr r.type 0 0 r.sendB r.recvB r.epoch ++ bytesLE 1 r.layer ++
    bytesLE 1 (b2n r.last + 2 * b2n r.final + 4 * b2n r.coded + 8 * b2n r.frames.isEmpty + 16 * r.table) ++
    bytesLE 1 r.frames.length ++ bytesLE 1 (b2n r.first) ++ bytesLE 4 r.posFirst ++ bytesLE 4 r.ntok ++ bytesLE 4 r.pageFirst ++
    bytesLE 4 body.length ++ bytesLE 4 (checkSum r.layer r.pageFirst (r.pages d)) ++ bytesLE 8 0 ++ body

/-- Cuts frames of consecutive pages into groups of at most `n`, each with its first page. -/
def cutFrames (n : Nat) : Nat → Nat → List Nat → List (Nat × List Nat)
  | 0, _, _ => []
  | fuel + 1, p, l => if l.isEmpty then [] else (p, l.take n) :: cutFrames n fuel (p + n) (l.drop n)

/-- Queues runs to be sent; prompt work waits from then on (R239, R254). -/
def queueRuns (k : Ctl) (d : Data) (rs : List RunTx) : Data :=
  { d with spl := { d.spl with
    sendq := d.spl.sendq ++ rs
    promptSince := if k.role = 4 ∧ (d.spl.promptSince.isNone ∨ d.spl.sendq.isEmpty) ∧ !rs.isEmpty then some k.ticks else d.spl.promptSince } }

/-- The Spool that sends a run: that of its Basket, or for a served pull the one its credit is counted for. -/
def RunTx.from (r : RunTx) : Nat := match r.owner with | .serve _ => r.spool | _ => r.sendB % 4

/-- The message PULL_END of a serve (R246): entries served, and the pull it ends. -/
def pullEndMsg (s : PullServe) : List Byte :=
  splHdr 0x12 s.status.code 0 s.sendB 0xFFFFF 0 ++ bytesLE 4 s.served ++ bytesLE 4 s.page ++ bytesLE 4 s.layer

/-- A pull whose last run has been sent is ended (R246); a serve with nothing left to be answered is forgotten. -/
def endServe (d : Data) (i : Nat) : Data :=
  match d.spl.serves.find? (fun s => s.id == i) with
  | none => d
  | some s =>
    let left := d.spl.sendq.any (fun r => r.owner == .serve i)
    let air := d.spl.flight.any (fun r => r.owner == .serve i)
    let d1 := if left || s.ended then d
      else ({ d with spl := { d.spl with serves := d.spl.serves.map (fun (y : PullServe) => if y.id = i then { y with ended := true } else y) } }).sendSpool
        s.qp s.cls (pullEndMsg s) .nobody
    if left || air then d1 else { d1 with spl := { d1.spl with serves := d1.spl.serves.filter (fun y => y.id != i) } }

/-- Sends a run (R232): its units leave the counter, it awaits its LANDED. -/
def sendRun (k : Ctl) (d : Data) (r : RunTx) : Data :=
  let key := 4 * r.qp + r.spool
  let n := r.need k d
  let rest := d.spl.sendq.erase r
  let d1 := { d with spl := { d.spl with
    sendq := rest
    flight := d.spl.flight ++ [{ r with units := n }]
    credit := Tab.put 0 d.spl.credit key (Tab.getD d.spl.credit key 0 - n)
    promptSince := if rest.isEmpty then none else d.spl.promptSince.map (fun _ => k.ticks) } }
  let d2 := ((d1.sendSpool r.qp r.cls (r.msg k d) .nobody).bump (splCnt r.from 0) 1).bump (splCnt r.from 2) (r.body k d).length
  let d3 := if r.coded then
      countSegs d2 (r.sendB % 4) 1 0
        (envPack (k.codeTable r.part r.table) r.table (k.mdlFmt r.model) false (r.pages d).flatten).2
    else d2
  match r.owner with
  | .serve i => endServe d3 i
  | _ => d3

/-- The runs that may be next on their QPs: none precedes them for the same credit counter, and none of a push precedes a run of a push (R24). `seen` holds 5 × QP + the
counter, and 5 × QP + 4 for pushes. -/
def headRuns : List RunTx → List Nat → List RunTx
  | [], _ => []
  | r :: rest, seen =>
    let key := 5 * r.qp + r.spool
    if seen.contains key || (r.type == 1 && seen.contains (5 * r.qp + 4)) then
      headRuns rest (if r.type = 1 then key :: (5 * r.qp + 4) :: seen else key :: seen)
    else r :: headRuns rest (if r.type = 1 then key :: (5 * r.qp + 4) :: seen else key :: seen)

/-- The credit that a run would use. -/
def RunTx.credit (d : Data) (r : RunTx) : Nat := Tab.getD d.spl.credit (4 * r.qp + r.spool) 0

/-- Whether a run is prompt work (R239). -/
def RunTx.prompt (k : Ctl) (d : Data) (r : RunTx) : Bool :=
  match r.owner with
  | .offer _ => k.role == 4
  | .serve _ => false
  | _ => promptBsk k d r.sendB

/-- The runs that Spool `s` could send: next on a READY QP, with their units in the counter (R232). -/
def readyRuns (k : Ctl) (d : Data) (s : Nat) : List RunTx :=
  (headRuns d.spl.sendq []).filter (fun r => r.from == s && (d.qp r.qp).state == .ready && decide (r.need k d ≤ r.credit d))

/-- The first run of the lowest QP. -/
def leastQp : List RunTx → Option RunTx
  | [] => none
  | r :: l =>
    match leastQp l with
    | some x => if x.qp < r.qp then some x else some r
    | none => some r

/-- The run that the arbiter of Spool `s` picks, with its class (R38): by class with generation work before prompt work (R20, R240), and within a class the QPs take
turns. -/
def runPick (k : Ctl) (d : Data) (s : Nat) : Option RunTx :=
  let rs := readyRuns k d s
  let some? := fun (pr : Bool) (c : Nat) => rs.filter (fun r => r.cls == c && r.prompt k d == pr)
  match pickRank d.spl.tags s (fun c => !(some? false c).isEmpty) (fun c => !(some? true c).isEmpty) with
  | none => none
  | some (c, pr) =>
    let mine := some? pr c
    match leastQp (mine.filter (fun r => decide (Tab.getD d.spl.turns (8 * s + c) 0 ≤ r.qp))) with
    | some r => some r
    | none => leastQp mine

/-- The arbiter of a run's Spool after it has been picked: the class's tag and the QP's turn. -/
def runPicked (k : Ctl) (d : Data) (r : RunTx) : Data :=
  { d with spl := { d.spl with
    tags := serveClass k d.spl.tags r.from r.cls (r.msg k d).length
    turns := Tab.set d.spl.turns (8 * r.from + r.cls) (r.qp + 1) } }

/-- A QP's next run goes out where its counter holds the run's units and its Spool's arbiter picks it, unless the power cap or the throttle withholds the grant (R683, R685); a run without its units has one CREDIT request sent for its
shortfall (R232). -/
def runSend (k : Ctl) (d : Data) (q : Nat) : Data :=
  if (d.qp q).state ≠ .ready then d
  else
    match (List.range 4).findSome? (fun s => (runPick k d s).filter (fun r => r.qp == q)) with
    | some r =>
      let g := capGrant k d (84 + r.from) r.cls (d.qp q).part false
      if g.2 then sendRun k (runPicked k g.1 r) r else g.1
    | none =>
      match (headRuns d.spl.sendq []).find? (fun r => r.qp == q && !r.asked && decide (r.credit d < r.need k d)) with
      | none => d
      | some r =>
        Data.sendSpool { d with spl := { d.spl with sendq := d.spl.sendq.map (fun (y : RunTx) => if y = r then { y with asked := true } else y) } }
          q r.cls (splHdr 0x03 0 0 r.sendB r.recvB r.epoch ++ bytesLE 2 (r.need k d - r.credit d) ++ bytesLE 1 0) .nobody

/-- RUN_SEND on a QP (R232). -/
def execRunSend (qp : Nat) (s : State) : Host.Outcome State Fault Refusal := onData (fun k d => runSend k d qp) s

/-! ### Credit messages -/

/-- A CREDIT request (R233): the Spool grants the shortfall from free units, or keeps the QP waiting for them. -/
def creditRequest (k : Ctl) (d : Data) (q : Nat) (m : List Byte) : Data :=
  let key := 4 * q + msgRecv m % 4
  let n := mfld m 16 2
  let d1 := { d with spl := { d.spl with
    asked := if d.spl.asked.contains key then d.spl.asked else key :: d.spl.asked
    waiting := d.spl.waiting.filter (fun x => x.1 != key) ++ [(key, n, msgRecv m)] } }
  serveWaiting k d1

/-- CREDIT_REQUEST: a CREDIT of KIND 0 at the head of a QP. -/
def execCreditRequest (qp : Nat) (s : State) : Host.Outcome State Fault Refusal :=
  onData (fun k d =>
    match d.peekSpool qp 0x03 with
    | some m => if mfld m 18 1 % 2 = 0 then creditRequest k (takeMsg k d qp) qp m else d
    | none => d) s

/-- A counter is granted units; the runs that wait for it may ask again (R232). -/
def addCredit (d : Data) (key n : Nat) : Data :=
  if n = 0 then d
  else { d with spl := { d.spl with
    credit := Tab.put 0 d.spl.credit key (Tab.getD d.spl.credit key 0 + n)
    sendq := d.spl.sendq.map (fun (r : RunTx) => if 4 * r.qp + r.spool = key then { r with asked := false } else r) } }

/-- CREDIT_GRANT: a CREDIT of KIND 1 at the head of a QP (R232). -/
def execCreditGrant (qp : Nat) (s : State) : Host.Outcome State Fault Refusal :=
  onData (fun k d =>
    match d.peekSpool qp 0x03 with
    | some m => if mfld m 18 1 % 2 = 1 then addCredit (takeMsg k d qp) (4 * qp + msgRecv m % 4) (mfld m 16 2) else d
    | none => d) s

/-! ### push.end -/

/-- The `push.end` that is accepted and waits leaves the context. -/
def dropEnd (d : Data) (b : Nat) : Data :=
  match d.ctx b with
  | some c => d.setCtx b { c with endOp := none }
  | none => d

/-- `push.end` once no layer push of the Basket is outstanding (R234, R235, R238): END goes out and the Basket enters HANDING, or a local
push ends in ANCHOR. -/
def runEnd (k : Ctl) (d : Data) (b t id : Nat) (lp : Bool) : Data :=
  let x := d.basket b
  match d.ctx b with
  | none => d.finish t id .badDesc 0 0
  | some c =>
    let n := k.mdlLayers x.model
    let seq := (c.layer 0).next
    if !(List.range n).all (fun l => (c.layer l).fin && (c.layer l).next == seq) || lp != c.localPush then
      (dropEnd d b).finish t id .badDesc 0 0
    else if lp then
      (closeCtx (d.onBasket b (fun y => { (y.enter k .anchor true none) with seqLen := seq })) b).finish t id .ok c.pages 0
    else
      match (d.qp x.qp).refusal with
      | some st => (dropEnd d b).finish t id st 0 0
      | none =>
        let r : EndRec := ⟨n, seq, c.pages, c.check % 2 ^ 64⟩
        let d1 := (d.setCtx b { c with endOp := some (t, id), endRec := some r }).onBasket b (fun y =>
          { (y.enter k .handing false (some (k.ticks + k.handoffTmo))) with retries := 0 })
        d1.sendSpool x.qp (opCls d t id) (offerMsg 0x04 0 b x r) .nobody

/-- A waiting `push.end` goes on when the last layer push of its Basket has completed (R234). -/
def settleEnd (k : Ctl) (d : Data) (b : Nat) : Data :=
  match d.ctx b with
  | none => d
  | some c =>
    match c.endOp with
    | none => d
    | some (t, id) =>
      if !c.ops.isEmpty || c.endRec.isSome then d
      else
        match c.failed with
        | some st => endCut k d b st
        | none => runEnd k d b t id (match d.op t id with | some o => df o.desc 0 0 1 == 1 | none => false)

/-- Every waiting `push.end`. -/
def settleEnds (k : Ctl) (d : Data) : Data := d.spl.ctxs.foldl (fun e c => settleEnd k e c.1) d

/-- `push.end` (R234, R237, R241). One that finds another waiting for the layer pushes of its Basket waits too, and is then judged by the
state it finds. -/
def runPushEnd : EngRun := engRun (fun k d t id th o =>
  let b := th.bsk.getD 0
  let x := d.basket b
  checked d t id
    [failIf (!descOk o.desc [(0, 0, 1)] || th.bsk.isNone) .badDesc, k.bskCheck th b, failIf (!k.promptRole) .perm,
     k.offCheck (b % 4) 19, x.opCheck,
     failIf (x.state == .admitted || x.state == .inPrefix || x.state == .prefill) .badDesc,
     failIf (x.state == .anchor && x.held) .notAnchor,
     failIf (x.state != .pushing || x.receiver) x.noRule]
    (match d.ctx b with
     | none => d.finish t id .badDesc 0 0
     | some c => if c.endOp.isSome then d else settleEnd k ((d.start t id).setCtx b { c with endOp := some (t, id) }) b))

/-- `push.end`: the issue. -/
def execPushEnd (t : Nat) (p : BitVec 2) (ts : BitVec 5) (ds : BitVec 4) (s : State) : Host.Outcome State Fault Refusal :=
  onData (issue 1 1 thrBsk runPushEnd t p ts ds) s

/-! ### push.layer -/

/-- The state rules of `push.layer` (R94, R96, R242). -/
def Basket.pushCheck (x : Basket) : Option Status :=
  match x.opCheck with
  | some e => some e
  | none =>
    if x.state = .anchor ∧ x.held then some .notAnchor
    else if x.receiver ∨ x.state = .decoding ∨ x.state = .speculating ∨ x.state = .parked ∨ (x.state = .anchor ∧ x.decoded) then
      some .badDesc
    else if x.state = .admitted ∨ x.state = .prefill ∨ x.state = .pushing ∨ x.state = .anchor then
      failIf (!x.nodeKnown || !x.qpKnown || !x.basketKnown) .badDesc
    else some x.noRule

/-- The pages of a layer push that are transmitted, with their frames (R222, R223). -/
def pushPages (k : Ctl) (d : Data) (b l pos ntok : Nat) : Nat × List Nat :=
  let m := (d.basket b).model
  let tt := Nat.max 1 (k.mdlT m)
  let top := ceilDiv (pos + ntok) tt
  let p0 := if k.isReel m l then Nat.max (pos / tt) (top - k.reelLen m) else pos / tt
  (p0, (List.range (top - p0)).map (fun i => pageFrame k d b l (p0 + i)))

/-- The runs of a layer push, of the pages below position `upto` alone where the origin could get no further (R222). -/
def pushRuns (k : Ctl) (d : Data) (b l : Nat) (o : Op) (part pos ntok : Nat) (upto : Option Nat := none) : List RunTx :=
  let x := d.basket b
  let m := x.model
  let bytes := k.pageBytes m
  let pg := pushPages k d b l pos ntok
  let fs := match upto with | some u => pg.2.take (u / Nat.max 1 (k.mdlT m) - pg.1) | none => pg.2
  let mk := fun (i n : Nat) (g : Nat × List Nat) =>
    ({ qp := x.qp, cls := o.cls, owner := .push b l, type := 0x01, sendB := b, recvB := x.peerBasket, epoch := x.epoch.toNat,
       spool := x.peerBasket % 4, layer := l, first := i == 0, last := i + 1 == n && upto.isNone, final := df o.desc 0 8 1 == 1,
       coded := df o.desc 0 14 1 == 1 && !g.2.isEmpty, table := df o.desc 0 15 4, posFirst := pos, ntok := ntok, pageFirst := g.1,
       frames := g.2, bytes := bytes, part := part, model := m, asked := false, units := 0 } : RunTx)
  if ntok = 0 then [mk 0 1 (pos / Nat.max 1 (k.mdlT m), [])]
  else
    let gs := cutFrames (k.runPages bytes) fs.length pg.1 fs
    (List.range gs.length).zip gs |>.map (fun e => mk e.1 gs.length e.2)

/-- Whether the staged K or V of tokens `t0` to `t1` of a slot at `a` of `s` positions, `w` bytes of K a token, is marked (R217). -/
def stagedBad (d : Data) (a s w t0 t1 : Nat) : Bool := d.bad (a + t0 * w) ((t1 - t0) * w) || d.bad (a + s * w + t0 * w) ((t1 - t0) * w)

/-- A completion of `push.layer` by a check: its slot returns, but with BAD_DESC (R218, R220). -/
def pushFail (k : Ctl) (d : Data) (t id part : Nat) (o : Op) (st : Status) : Data :=
  (if st = .badDesc then d else slotBack k d part o).finish t id st 0 0

/-- `push.layer` (R219 to R224, R238). Page by page in order: where the origin cannot read or place a page, the pages before it go out all the same, and the operation
completes with that status when they have landed. -/
def runPushLayer : EngRun := engRun (fun k d t id th o =>
  let x := o.desc
  let b := th.bsk.getD 0
  let y := d.basket b
  let m := y.model
  let tt := Nat.max 1 (k.mdlT m)
  let l := df x 0 0 8
  let fin := df x 0 8 1 == 1
  let lp := df x 0 9 1 == 1
  let pos := df x 4 0 32
  let ntok := df x 8 0 21
  let staged := df x 12 0 21
  let w := df x 16 0 16
  let slot := df x 18 0 8
  let stop := pos + ntok
  let new := stop - staged
  let sb := k.winSlotBytes w
  let wide := 2 * k.mdlKh m * k.mdlD m
  let ctx := (d.ctx b).getD (ctx0 lp)
  let lc := ctx.layer l
  let oldP := (List.range (ceilDiv new tt - pos / tt)).map (fun i => pos / tt + i)
  let newP := if staged = 0 then [] else (List.range (ceilDiv stop tt - new / tt)).map (fun i => new / tt + i)
  let gone := fun p => k.isReel m l && decide (p + k.reelLen m ≤ Tab.getD d.kvw.reelTop (layerKey b l) 0)
  match firstOf
    [failIf (!descOk x [(0, 0, 19), (4, 0, 32), (8, 0, 21), (12, 0, 21), (16, 0, 24)] || decide (1048576 < ntok) || decide (ntok < staged) ||
        df x 0 10 4 == 0 || decide (12 < df x 0 10 4) || (lp && df x 0 14 1 == 1) || th.bsk.isNone) .badDesc,
     k.bskCheck th b, failIf (!k.promptRole || (lp && k.role != 4)) .perm,
     if staged = 0 then none else k.winCheck th.part w false false,
     failIf (!k.up (b % 4) 19 || !k.up (b % 4) 11 || !k.up (b % 4) 18) .domainOff, if staged = 0 then none else winOff k d w,
     y.pushCheck, if lp then none else ctx.failed,
     failIf (decide (k.mdlLayers m ≤ l) || pos != lc.next || pos % tt != 0 || new % tt != 0 || (!fin && stop % tt != 0) || lc.fin ||
        ctx.ops.any (fun q => q.layer == l) || lp != ctx.localPush || (df x 0 14 1 == 1 && isSpar (k.mdlFmt m)) ||
        (lp && k.mdlTier m != 0) || decide (pageMax * tt < stop)) .badDesc,
     failIf (oldP.any (fun p => !mapped k d b l p && !gone p) || newP.any (fun p => !mapOpen k d b l p)) .badDesc,
     failIf (staged != 0 && (decide (k.winSlots w ≤ slot) || decide (sb < 2 * staged * wide))) .badDesc,
     if lp then none else (d.qp y.qp).refusal] with
  | some st => pushFail k d t id th.part o st
  | none =>
    if (d.ctx b).isNone && !ctxFree d b then pushFail k (d.splSts 0) t id th.part o .noSpace
    else
      let shared := (oldP.filter (fun p => pteShared (pageEntry k d b l p))).map (fun p => pageFrame k d b l p)
      if !lp && pinFull k d m shared then d.setSts 0x1200080 3
      else
        let d0 := translates (if y.state = .pushing then d else d.onBasket b (fun z => z.enter k .pushing true none)) b (oldP.map (fun p => (l, p)))
        let put := fun (e : Data) (nx : Nat) (fi : Bool) (q : List PushOp) (pg : Nat) =>
          e.setCtx b { ctx with layers := Tab.set ctx.layers l { lc with next := nx, fin := fi }, ops := ctx.ops ++ q, pages := ctx.pages + pg }
        let a := k.winAddr w + slot * sb
        let old := if lp then none else (framesStop k d0 b l oldP).map (fun z => (z.1 * tt, z.2))
        let d1 := if lp then d0 else (touchFrames k .read b l oldP d0).1
        let mark := newP.find? (fun p => stagedBad d1 a staged wide (p * tt - new) (Nat.min stop ((p + 1) * tt) - new))
        let most := if old.isSome then 0 else match mark with | some p => p * tt - new | none => staged
        let r := appendPages k b l false (k.winFp16 w) a staged (staged + 1) new 0 most d1
        let z := touchFrames k .write b l (newP.filter (fun p => decide (p * tt < new + r.2.1))) r.1
        let halt : Option (Nat × Status) :=
          match old, z.2 with
          | some h, _ => some h
          | none, some p => some (p * tt, .uncorrectable)
          | none, none => if r.2.1 < most then some (new + r.2.1, .noSpace) else mark.map (fun p => (p * tt, .poison))
        let d2 := (if staged = 0 then z.1 else (releaseSlot k z.1 w slot).1).countConv (b % 4) r.2.2
        let done := match z.2 with | some p => p * tt - new | none => r.2.1
        let key := layerKey b l
        let d3 := if done = 0 then d2
          else { d2 with kvw := { d2.kvw with filled := Tab.set d2.kvw.filled key (Nat.max (new + done) (Tab.getD d2.kvw.filled key 0)) } }
        match halt with
        | none =>
          if lp then (put d3 stop fin [] (ceilDiv staged tt)).finish t id .ok (ceilDiv staged tt) 0
          else
            let d4 := shared.foldl (fun e f => takePin e t id (k.frecOf m f)) d3
            let rs := pushRuns k d4 b l o th.part pos ntok
            queueRuns k (put (d4.start t id) stop lc.fin [⟨t, id, l, pos, ntok, rs.length, 0, pos, none, none⟩] 0) rs
        | some (h, st) =>
          if lp then (put d3 h false [] (ceilDiv done tt)).finish t id st (ceilDiv done tt) 0
          else
            let rs := pushRuns k d3 b l o th.part pos ntok (some h)
            if rs.isEmpty then (put d3 pos false [] 0).finish t id st 0 0
            else
              let d4 := shared.foldl (fun e f => takePin e t id (k.frecOf m f)) d3
              queueRuns k (put (d4.start t id) stop lc.fin [⟨t, id, l, pos, ntok, rs.length, 0, pos, none, some st⟩] 0) rs)

/-- `push.layer`: the issue. -/
def execPushLayer (t : Nat) (p : BitVec 2) (ts : BitVec 5) (ds : BitVec 4) (s : State) : Host.Outcome State Fault Refusal :=
  onData (issue 1 0 thrBsk runPushLayer t p ts ds) s

/-! ### Answers to runs -/

/-- A layer push with no run left unanswered completes (R224); a waiting `push.end` then goes on. -/
def settlePush (k : Ctl) (d : Data) (b l : Nat) : Data :=
  match d.ctx b with
  | none => d
  | some c =>
    match c.ops.find? (fun o => o.layer == l) with
    | none => d
    | some o =>
      if o.open_ ≠ 0 then d
      else
        let lc := c.layer l
        let fin := match d.op o.thread o.opId with | some y => df y.desc 0 8 1 == 1 | none => false
        let fail := match o.fail with | some st => some st | none => o.short
        let lc1 := match fail with
          | none => { lc with fin := fin }
          | some _ => { lc with next := o.upTo }
        let d1 := d.setCtx b { c with ops := c.ops.filter (fun y => y.layer != l), layers := Tab.set c.layers l lc1 }
        settleEnd k (d1.finish o.thread o.opId (fail.getD .ok) o.landed 0) b

/-- A run of a layer push is answered (R224, R228, R241). After a failure the runs still held are not sent. -/
def pushLanded (k : Ctl) (d : Data) (r : RunTx) (b l n : Nat) (st : Status) : Data :=
  match d.ctx b with
  | none => d
  | some c =>
    match c.ops.find? (fun o => o.layer == l) with
    | none => d
    | some o =>
      if st = .notAnchor ∨ st = .staleEpoch then cutAndEnd k d b st
      else
        let tt := Nat.max 1 (k.mdlT (d.basket b).model)
        let isMine := fun (y : RunTx) => y.owner == .push b l
        let good := st == .ok && o.fail.isNone
        let o1 : PushOp := if good then
            { o with open_ := o.open_ - 1, landed := o.landed + n,
                     upTo := if r.last then r.posFirst + r.ntok else (r.pageFirst + n) * tt }
          else { o with open_ := (d.spl.flight.filter isMine).length, fail := some (o.fail.getD st) }
        let c1 := { c with ops := c.ops.map (fun y => if y.layer = l then o1 else y) }
        let c2 := if st = .ok then { c1 with pages := c1.pages + n, check := (c1.check + checkSum l r.pageFirst (r.pages d)) % 2 ^ 64 } else c1
        let d1 := d.setCtx b c2
        settlePush k (if good then d1 else { d1 with spl := { d1.spl with sendq := d1.spl.sendq.filter (fun y => !isMine y) } }) b l

/-- A run is answered whose layer push has ended while its push goes on: its pages count in the push, and extend what has landed of the
layer where they follow it (R224, R228); NOT_ANCHOR and STALE_EPOCH cut the push off (R241). -/
def strayLanded (k : Ctl) (d : Data) (r : RunTx) (b n : Nat) (st : Status) : Data :=
  match d.ctx b with
  | none => d
  | some c =>
    if (st = .notAnchor ∨ st = .staleEpoch) ∧ c.failed.isNone then cutAndEnd k d b st
    else if st ≠ .ok then d
    else
      let tt := Nat.max 1 (k.mdlT (d.basket b).model)
      let lc := c.layer r.layer
      let follows := !c.ops.any (fun o => o.layer == r.layer) && lc.next / tt == r.pageFirst
      let lc1 : LayerCtx := if !follows then lc
        else if r.last then { lc with next := r.posFirst + r.ntok, fin := r.final } else { lc with next := (r.pageFirst + n) * tt }
      d.setCtx b { c with
        pages := c.pages + n
        check := (c.check + checkSum r.layer r.pageFirst (r.pages d)) % 2 ^ 64
        layers := Tab.set c.layers r.layer lc1 }

/-! ### Landing -/

/-- LAYER of a run header (R227). -/
def rhLayer (m : List Byte) : Nat := mfld m 16 1
/-- A bit of byte 17: 0 LAST, 1 FINAL, 2 CODED, 3 HDR_ONLY. -/
def rhFlag (m : List Byte) (i : Nat) : Bool := bitsOf (mfld m 17 1) i 1 == 1
/-- NPAGES. -/
def rhPages (m : List Byte) : Nat := bitsOf (mfld m 18 1) 0 5
/-- FIRST. -/
def rhFirst (m : List Byte) : Bool := mfld m 19 1 % 2 == 1
/-- PAGE_FIRST. -/
def rhPage (m : List Byte) : Nat := bitsOf (mfld m 28 4) 0 24
/-- BODY_BYTES. -/
def rhBody (m : List Byte) : Nat := mfld m 32 4

/-- Cuts bytes into pages of `n` bytes. -/
def cutBytes (n : Nat) : Nat → List Byte → List (List Byte)
  | 0, _ => []
  | c + 1, l => l.take n :: cutBytes n c (l.drop n)

/-- Whether NPAGES and BODY_BYTES agree with the frame data size (R230). -/
def runSizeOk (m : List Byte) (bytes : Nat) : Bool :=
  decide (rhPages m ≤ 16) && m.length == 48 + rhBody m &&
  (if rhFlag m 3 then rhPages m == 0 && rhBody m == 0
   else decide (0 < rhPages m) && (rhFlag m 2 || rhBody m == rhPages m * bytes))

/-- The raw pages of a run whose body and checks are good (R228, R229). -/
def runRaw (k : Ctl) (m : List Byte) (part bytes : Nat) : Option (List (List Byte)) :=
  let body := m.drop 48
  let raw := if rhFlag m 2 && !rhFlag m 3 then envUnpack (k.codeTable part) body else some body
  match raw with
  | none => none
  | some r =>
    if r.length ≠ rhPages m * bytes then none
    else
      let ps := cutBytes bytes (rhPages m) r
      if checkSum (rhLayer m) (rhPage m) ps % 2 ^ 32 = mfld m 36 4 then some ps else none

/-- Lands pages from `p` on in page order, private under R132, or shared with one reference (R246); stops where one cannot be had. The
pages mapped are counted. -/
def landPages (k : Ctl) (b l : Nat) (sh : Bool) : List (List Byte) → Nat → Data → Data × Nat
  | [], _, d => (d, 0)
  | raw :: rest, p, d =>
    let m := (d.basket b).model
    let r := if sh then
        (match frameAlloc k d b l p with
         | (d1, none) => (d1, none)
         | (d1, some f) =>
           match mapShared k (d1.wr (k.frecOf m f) 2 0) b l p f with
           | (d2, true) => (d2, some f)
           | (d2, false) => (wmCheck k (d2.wr (k.frecOf m f) 8 0) (k.mdlPart m), none))
      else openPage k d b l p false
    match r with
    | (d1, none) => (d1, 0)
    | (d1, some f) =>
      let w := landPages k b l sh rest (p + 1) (d1.wrBytes f raw)
      (w.1, w.2 + 1)

/-- Lands a run whole or not at all (R230): false where a frame or page-table unit is missing, the pages already mapped being unmapped. -/
def landRun (k : Ctl) (d : Data) (b l : Nat) (sh : Bool) (ps : List (List Byte)) (p : Nat) : Data × Bool :=
  let r := landPages k b l sh ps p d
  if r.2 = ps.length then (r.1, true)
  else ((List.range r.2).foldl (fun e i => dropPage k e b l (p + i)) r.1, false)

/-- The frames of `n` landed pages from `p` on hold the positions below `top` (R157). -/
def noteLanded (k : Ctl) (b l p n top : Nat) (d : Data) : Data :=
  let tt := k.mdlT (d.basket b).model
  (List.range n).foldl (fun e i => e.setWritten (pageFrame k e b l (p + i)) (Nat.min tt (top - (p + i) * tt))) d

/-- Answers a run after its units have returned to the buffer (R233). A refusal is counted where the run is discarded (R255). -/
def answerRun (k : Ctl) (d : Data) (q s c : Nat) (m : List Byte) (st : Status) (n : Nat) : Data :=
  let d1 := if st = .ok then (d.bump (splCnt c 1) 1).bump (splCnt c 3) (rhBody m) else d.bump (splCnt c 5) 1
  let d2 := if st = .noSpace then d1.splSts 1 else if st = .checkFail then d1.splSts 2 else d1
  sendLanded k (returnUnits k d2 q s (unitsOf (rhBody m))) q s m st n

/-- The receiver's check of a LAYER run, up to its data (R230): the context after it, the layer and the answer. -/
def layerCheck (k : Ctl) (d : Data) (b : Nat) (m : List Byte) (c : PushCtx) : Option Status :=
  let md := (d.basket b).model
  let tt := Nat.max 1 (k.mdlT md)
  let l := rhLayer m
  let lc := c.layer l
  let pos := mfld m 20 4
  let ntok := mfld m 24 4
  let top := ceilDiv (pos + ntok) tt
  let p0 := if rhFlag m 3 then pos / tt else if k.isReel md l then Nat.max (pos / tt) (top - k.reelLen md) else pos / tt
  let p := rhPage m
  let n := rhPages m
  if k.mdlLayers md ≤ l then some .badDesc
  else if !rhFirst m && lc.refused.isSome then lc.refused
  else
    failIf (!runSizeOk m (k.pageBytes md) || lc.fin || decide (pageMax < top) ||
      (if rhFirst m then pos != lc.next || p != p0 else pos != lc.first || ntok != lc.ntok || p != lc.page) ||
      (n != 0 && decide (top < p + n)) || (rhFlag m 0 && n != 0 && p + n != top) || (rhFlag m 3 && ntok != 0) ||
      (List.range n).any (fun i => mapped k d b l (p + i))) .badDesc

/-- RX_LANES (R252). -/
def Ctl.rxLanes (k : Ctl) : Nat := k.fld 0x1300040 24 4

/-- The expander lanes of Spool `s` read a coded run of a partition: its segments are counted, one that fails R172 too (R183, R184, R229). -/
def countRun (k : Ctl) (d : Data) (s part : Nat) (m : List Byte) : Data :=
  if rhFlag m 2 && !rhFlag m 3 then
    let r := envRead (k.codeTable part) (m.drop 48)
    let d1 := countExp d s k.rxLanes 0 r.1
    if r.2 then d1 else countFail d1 s k.rxLanes r.1.length
  else d

/-- Whether a refusal answers the layer push that a run belongs to. -/
def Refused.of (x : Refused) (q : Nat) (m : List Byte) : Bool :=
  x.qp == q && x.sendB == msgSend m && x.recvB == msgRecv m && x.epoch == msgEpoch m && x.layer == rhLayer m

/-- A run is refused that no push context remembers: the later runs of its layer push are answered as it is (R230). -/
def refuseLayer (d : Data) (q : Nat) (m : List Byte) (st : Status) : Data :=
  { d with spl := { d.spl with
    refused := d.spl.refused.filter (fun x => !x.of q m) ++ [⟨q, msgSend m, msgRecv m, msgEpoch m, rhLayer m, st⟩] } }

/-- The receiving Spool handles a LAYER run (R230, R231). -/
def landLayer (k : Ctl) (d' : Data) (q : Nat) (m : List Byte) : Data :=
  let d := if rhFirst m then { d' with spl := { d'.spl with refused := d'.spl.refused.filter (fun x => !x.of q m) } } else d'
  let b := msgRecv m
  let x := d.basket b
  let s := b % 4
  let l := rhLayer m
  let say := fun (e : Data) st n => answerRun k e q s s m st n
  let late := !(x.receiver && (x.state == .admitted || x.state == .pushing) && peerMatch d q (msgSend m) x && x.epoch == BitVec.ofNat 32 (msgEpoch m))
  match d.spl.refused.find? (fun y => y.of q m) with
  | some y => say (if late && k.genRole then countLate d q else d) y.status 0
  | none =>
  if !k.genRole then say (refuseLayer d q m .perm) .perm 0
  else if late then
    let st : Status := if x.state = .free then .notAnchor else .staleEpoch
    say (refuseLayer (countLate d q) q m st) st 0
  else if (d.ctx b).isNone && !ctxFree d b then say (refuseLayer (d.splSts 0) q m .noSpace) .noSpace 0
  else
    let c := (d.ctx b).getD (ctx0 false)
    let refuse := fun (e : Data) (st : Status) =>
      say (e.setCtx b { c with layers := Tab.set c.layers l { c.layer l with refused := some st } }) st 0
    match layerCheck k d b m c with
    | some st => if k.mdlLayers x.model ≤ l then say (refuseLayer (d.setCtx b c) q m st) st 0 else refuse d st
    | none =>
      let d0 := countRun k d s x.part m
      match runRaw k m x.part (k.pageBytes x.model) with
      | none => refuse d0 .checkFail
      | some ps =>
        match landRun k d0 b l false ps (rhPage m) with
        | (d1, false) => refuse d1 .noSpace
        | (d1', true) =>
          let ns := (List.range (rhPages m)).map (fun i => rhPage m + i)
          let (d1, hit) := touchFrames k .write b l ns d1'
          if hit.isSome then refuse (ns.foldl (fun e p => dropPage k e b l p) d1) .uncorrectable
          else
          let tt := k.mdlT x.model
          let last := rhFlag m 0
          let n := rhPages m
          let nx := if last then mfld m 20 4 + mfld m 24 4 else if n = 0 then (c.layer l).next else (rhPage m + n) * tt
          let fin := last && rhFlag m 1
          let lc : LayerCtx := ⟨nx, fin, none, mfld m 20 4, mfld m 24 4, rhPage m + n⟩
          let d2 := (noteLanded k b l (rhPage m) n (mfld m 20 4 + mfld m 24 4) d1).setCtx b { c with
            layers := Tab.set c.layers l lc
            pages := c.pages + n
            check := (c.check + checkSum l (rhPage m) ps) % 2 ^ 64 }
          let key := layerKey b l
          let d3 := { d2 with kvw := { d2.kvw with filled := Tab.set d2.kvw.filled key (Nat.max nx (Tab.getD d2.kvw.filled key 0)) } }
          let d4 := d3.onBasket b (fun y =>
            let z := if y.state = .admitted then y.enter k .pushing false none else y
            { z with deadline := some (k.ticks + k.pushTmo), layersIn := z.layersIn + b2n fin })
          say d4 .ok n

/-- LAYER (R230). -/
def execLayer (qp : Nat) (s : State) : Host.Outcome State Fault Refusal := onData (onMsg 0x01 landLayer qp) s

end Sys2Proof.Machine
end

