-- ==== Sys2Proof/Machine/SpoolPull.lean ====
section
/-!
DEFINITION. Prefix pulls (R245 to R247), the feeding of accelerators (R248), prefix offers (R249, R250), the answers to runs, and the failure
of a QP as the engines that ride on it see it. The spec gives no layout of PULL_REQ, PULL_END, OFFER_Q, OFFER_A and PREFIX_DONE beyond the
common header and what they carry; the layouts here are the model's.
-/
namespace Sys2Proof.Machine

/-! ### Pulling: the prompt node -/

/-- The message PULL_REQ: MODEL, layer range, PAGE_FIRST, COUNT and result entries. -/
def pullReqMsg (b m l0 ln page : Nat) (es : List Nat) : List Byte :=
  splHdr 0x10 0 0 b 0xFFFFF 0 ++ bytesLE 2 m ++ bytesLE 2 l0 ++ bytesLE 2 ln ++ bytesLE 2 es.length ++ bytesLE 4 page ++ bytesLE 4 0 ++
    es.flatMap (fun e => bytesLE 8 e)

/-- `pull.pages` (R245, R246). -/
def runPullPages : EngRun := engRun (fun k d t id th o =>
  let x := o.desc
  let b := th.bsk.getD 0
  let y := d.basket b
  let rs := df x 0 0 48
  let n := df x 8 0 13
  let q := df x 10 0 14
  let page := df x 12 0 24
  let l0 := df x 16 0 8
  let ln := df x 17 0 9
  checked d t id
    [failIf (!descOk x [(0, 0, 48), (8, 0, 13), (10, 0, 14), (12, 0, 24), (16, 0, 8), (17, 0, 9)] || decide (4096 < n) ||
        decide (256 < ln) || pageBad page n || th.bsk.isNone) .badDesc,
     k.bskCheck th b, failIf (!k.promptRole || k.qpPart q != some th.part) .perm, k.dpaCheck th.part rs (8 * n) false,
     failIf (!k.up (b % 4) 19 || !k.up (b % 4) 18) .domainOff, y.opCheck,
     failIf (y.receiver || !(y.state == .admitted || y.state == .inPrefix || y.state == .prefill)) y.noRule,
     failIf (decide (k.mdlLayers y.model < l0 + ln) ||
       (List.range ln).any (fun l => (List.range n).any (fun i => !mapOpen k d b (l0 + l) (page + i)))) .badDesc,
     failIf (n == 0 || ln == 0) .ok, (d.qp q).refusal, failIf (d.bad rs (8 * n)) .poison]
    (let es := (List.range n).map (fun i => d.rd (rs + 8 * i) 8)
     let d1 := (enterPrefix k (d.start t id) (some b)).sendSpool q o.cls (pullReqMsg b y.model l0 ln page es) .nobody
     { d1 with spl := { d1.spl with pulls := d1.spl.pulls ++ [⟨t, id, b, q, page, l0, ln, n, [], none⟩] } }))

/-- `pull.pages`: the issue. -/
def execPullPages (t : Nat) (p : BitVec 2) (ts : BitVec 5) (ds : BitVec 4) (s : State) : Host.Outcome State Fault Refusal :=
  onData (issue 1 2 thrBsk runPullPages t p ts ds) s

/-- Entries 0 to k − 1 that have landed in every layer of a pull. -/
def PullOp.whole (o : PullOp) : Nat :=
  ((List.range o.count).find? (fun i => !(List.range o.layers).all (fun l => o.landed.contains (2 ^ 13 * (o.layer0 + l) + i)))).getD o.count

/-- A pull completes (R247): pages of later entries that did land are unmapped. -/
def finishPull (k : Ctl) (d : Data) (o : PullOp) (st : Status) : Data :=
  let c := o.whole
  let later := o.landed.filter (fun x => decide (c ≤ x % 2 ^ 13))
  let d1 := later.foldl (fun e x => dropPage k e o.bsk (x / 2 ^ 13) (o.page + x % 2 ^ 13)) d
  Data.finish { d1 with spl := { d1.spl with pulls := d1.spl.pulls.filter (fun y => !(y.thread == o.thread && y.opId == o.opId)) } }
    o.thread o.opId st c 0

/-- Changes a pull. -/
def setPull (d : Data) (o : PullOp) : Data :=
  { d with spl := { d.spl with pulls := d.spl.pulls.map (fun y => if y.thread = o.thread ∧ y.opId = o.opId then o else y) } }

/-- The prompt node lands a PULL_DATA run with shared frames (R246). A run for which no pull waits is answered as a late layer push is
(R111). -/
def landPull (k : Ctl) (d : Data) (q : Nat) (m : List Byte) : Data :=
  let b := msgSend m
  let x := d.basket b
  let l := rhLayer m
  let p := rhPage m
  let n := rhPages m
  let say := fun (e : Data) st c => answerRun k e q 3 (b % 4) m st c
  match d.spl.pulls.find? (fun o => o.qp == q && o.bsk == b && decide (o.layer0 ≤ l) && decide (l < o.layer0 + o.layers) &&
      decide (o.page ≤ p) && decide (p < o.page + o.count)) with
  | none => say (countLate d q) (if x.state = .free then .notAnchor else .staleEpoch) 0
  | some o =>
    let refuse := fun (e : Data) (st : Status) => say (setPull e { o with fail := some (o.fail.getD st) }) st 0
    if !runSizeOk m (k.pageBytes x.model) || rhFlag m 3 || decide (o.page + o.count < p + n) ||
        (List.range n).any (fun i => !mapOpen k d b l (p + i)) then refuse d .badDesc
    else
      let d0 := countRun k d (b % 4) x.part m
      match runRaw k m x.part (k.pageBytes x.model) with
      | none => refuse d0 .checkFail
      | some ps =>
        match landRun k d0 b l true ps p with
        | (d1, false) => refuse d1 .noSpace
        | (d1', true) =>
          let ns := (List.range n).map (fun i => p + i)
          let (d1, hit) := touchFrames k .write b l ns d1'
          if hit.isSome then refuse (ns.foldl (fun e q => dropPage k e b l q) d1) .uncorrectable
          else
          say (setPull (noteLanded k b l p n ((p + n) * k.mdlT x.model) d1) { o with landed := o.landed ++ (List.range n).map (fun i => 2 ^ 13 * l + (p - o.page + i)) }) .ok n

/-- PULL_DATA (R246). -/
def execPullData (qp : Nat) (s : State) : Host.Outcome State Fault Refusal := onData (onMsg 0x11 landPull qp) s

/-- The prompt node takes PULL_END (R247). -/
def pullEnd (k : Ctl) (d : Data) (q : Nat) (m : List Byte) : Data :=
  match d.spl.pulls.find? (fun o => o.qp == q && o.bsk == msgSend m && o.page == mfld m 20 4 && o.layer0 == mfld m 24 4) with
  | none => d
  | some o =>
    let st := (Status.ofCode? (msgStatus m)).getD .checkFail
    let done := o.whole == o.count && mfld m 16 4 == o.count
    finishPull k d o (if done then .ok else match o.fail with | some f => f | none => st)

/-- PULL_END (R247). -/
def execPullEnd (qp : Nat) (s : State) : Host.Outcome State Fault Refusal := onData (onMsg 0x12 pullEnd qp) s

/-! ### Pulling: the cache node -/

/-- Whether a result entry can be served (R246): the QP's partition owns its record, GEN and MODEL agree, and every requested layer has a
frame. -/
def serveCheck (k : Ctl) (d : Data) (part m l0 ln e : Nat) : Option Status :=
  let a := bitsOf e 0 42 * 64
  firstOf
    [(match k.dpaCheck part a 64 false with | some _ => some .perm | none => none), failIf (d.bad a 64) .poison,
     failIf (recPart d a != part) .perm, failIf (recGen d a != bitsOf e 42 16) .staleGen,
     failIf (recModel d a != m || decide (recLayers d a < l0 + ln)) .badDesc,
     failIf ((List.range ln).any (fun l => !pteValid (recEntry d a (l0 + l)))) .badDesc]

/-- Entries that pass, from the first on, and the status of the first that fails. -/
def serveList (k : Ctl) (d : Data) (part m l0 ln : Nat) : List Nat → List Nat × Status
  | [] => ([], .ok)
  | e :: r =>
    match serveCheck k d part m l0 ln e with
    | some st => ([], st)
    | none =>
      let w := serveList k d part m l0 ln r
      (bitsOf e 0 42 * 64 :: w.1, w.2)

/-- Takes a read pin that a run holds until it is answered (R246). -/
def pinRun (d : Data) (a : Nat) : Data := d.wr (a + 2) 2 (pinCnt d a + 1)

/-- The cache node serves a PULL_REQ (R246). A frame whose PINS is at 65,535 keeps the request waiting (R144). -/
def servePull (k : Ctl) (d : Data) (q : Nat) (m : List Byte) : Data :=
  let part := (d.qp q).part
  let md := mfld m 16 2
  let l0 := mfld m 18 2
  let ln := mfld m 20 2
  let page := mfld m 24 4
  let es := (List.range (mfld m 22 2)).map (fun i => mfld m (32 + 8 * i) 8)
  let r := if !k.cacheRole then ([], Status.perm) else serveList k d part md l0 ln es
  let bytes := k.pageBytes md
  let frame := fun a l => pteFrame (recEntry d a l)
  let all := r.1.flatMap (fun a => (List.range ln).map (fun l => frame a (l0 + l)))
  if pinFull k d md all then d.setSts 0x1200080 3
  else
    let d0 := takeMsg k d q
    let cls := (d0.qp q).rxCls
    let i := d0.spl.nextId
    let d1 := all.foldl (fun e f => pinRun e (k.frecOf md f)) d0
    let runs := (List.range ln).flatMap (fun l =>
      (cutFrames (k.runPages bytes) r.1.length page (r.1.map (fun a => frame a (l0 + l)))).map (fun g =>
        ({ qp := q, cls := cls, owner := .serve i, type := 0x11, sendB := msgSend m, recvB := 0xFFFFF, epoch := 0, spool := 3,
           layer := l0 + l, first := false, last := false, final := false, coded := false, table := 0, posFirst := 0, ntok := 0,
           pageFirst := g.1, frames := g.2, bytes := bytes, part := part, model := md, asked := false, units := 0 } : RunTx)))
    let d2 := { d1 with spl := { d1.spl with
      nextId := i + 1
      serves := d1.spl.serves ++ [⟨i, q, cls, msgSend m, page, l0, r.1.length, r.2, false⟩] } }
    endServe (queueRuns k d2 runs) i

/-- PULL_REQ (R246). -/
def execPullReq (qp : Nat) (s : State) : Host.Outcome State Fault Refusal :=
  onData (fun k d =>
    match d.peekSpool qp 0x10 with
    | none => d
    | some m => if (d.qp qp).state = .ready then servePull k d qp m else takeMsg k d qp) s

/-- A served run is answered: its frames' pins are dropped (R246). -/
def serveLanded (k : Ctl) (d : Data) (r : RunTx) (i : Nat) : Data :=
  endServe (r.frames.foldl (fun e f => unpin e (k.frecOf r.model f)) d) i

/-! ### Feeding the accelerators -/

/-- The elements of a feed, K or V, of pages of frames: their codes in the window's format (R217, R248). -/
def feedPart (d : Data) (s : Shape) (fp v : Bool) (fs : List Nat) : List (Nat × ConvFlags) :=
  fs.flatMap (fun a => (List.range (s.t * s.kh * s.dim)).map (fun i =>
    let c := i % s.dim
    let h := i / s.dim % s.kh
    let t := i / (s.dim * s.kh)
    if v then unstagedVal fp s.fmt (readV d s a h c t) (elemGet d s (a + s.area) (s.vIx h c t))
    else unstagedVal fp s.fmt (readK d s a h c t) (elemGet d s a (s.kIx h c t))))

/-- `feed.layer` (R248). It reads the pages of an origin Basket in any state but FREE, ORPHANED and RELEASING, and never during decode (R31; DEDUCED, log entry 189). -/
def runFeedLayer : EngRun := engRun (fun k d t id th o =>
  let x := o.desc
  let b := th.bsk.getD 0
  let y := d.basket b
  let m := y.model
  let s := k.shape m
  let l := df x 0 0 8
  let p := df x 4 0 24
  let n := df x 8 0 13
  let w := df x 10 0 16
  let slot := df x 12 0 8
  let ps := (List.range n).map (fun i => p + i)
  let fs := ps.map (fun q => pageFrame k d b l q)
  let shared := (ps.filter (fun q => pteShared (pageEntry k d b l q))).map (fun q => pageFrame k d b l q)
  checked d t id
    [failIf (!descOk x [(0, 0, 8), (1, 0, 4), (4, 0, 24), (8, 0, 13), (10, 0, 16), (12, 0, 8), (14, 0, 16)] || df x 1 0 4 == 0 ||
        decide (12 < df x 1 0 4) || decide (4096 < n) || pageBad p n || th.bsk.isNone) .badDesc,
     k.bskCheck th b, failIf (!k.promptRole) .perm, k.winCheck th.part w true false,
     failIf (!k.up (b % 4) 19 || !k.up (b % 4) 11 || !k.up (b % 4) 18) .domainOff, winOff k d w, y.opCheck,
     failIf (y.receiver || y.state == .decoding || y.state == .speculating) y.noRule,
     failIf (decide (k.mdlLayers m ≤ l) || ps.any (fun q => let e := pageEntry k d b l q; !pteValid e || pteTent e) ||
       decide (k.winSlots w ≤ slot) || decide (k.winSlotBytes w < 4 * n * s.t * s.kh * s.dim)) .badDesc,
     failIf (n == 0) .okEmpty]
    (if pinFull k d m shared then d.setSts 0x1200080 3
     else match framesStop k d b l ps with
     | some h => (touchFrames k .read b l ps (translates d b (ps.map (fun q => (l, q))))).1.finish t id h.2 0 0
     | none =>
       let d1 := shared.foldl (fun e f => takePin e t id (k.frecOf m f)) (touchFrames k .read b l ps (translates d b (ps.map (fun q => (l, q))))).1
       let cs := feedPart d s (k.winFp16 w) false fs ++ feedPart d s (k.winFp16 w) true fs
       let d2 := d1.countConv (b % 4) (cs.foldl (fun a c => a.plus c.2) ⟨0, 0⟩)
       output k d2 t id th.part w (k.pieces w (slot * k.winSlotBytes w) (cs.flatMap (fun c => bytesLE 2 c.1))) (df x 14 0 16) .ok 0 0))

/-- `feed.layer`: the issue. -/
def execFeedLayer (t : Nat) (p : BitVec 2) (ts : BitVec 5) (ds : BitVec 4) (s : State) : Host.Outcome State Fault Refusal :=
  onData (issue 1 3 thrBsk runFeedLayer t p ts ds) s

/-! ### Offering a prefix: the prompt node -/

/-- Whether a mapped page holds T committed positions (R249): a private page is full up to SEQ_LEN, or to what a push or a landing has
written in the layer; a shared page is full. -/
def pageFull (k : Ctl) (d : Data) (b l p : Nat) : Bool :=
  let e := pageEntry k d b l p
  let x := d.basket b
  let full := Nat.max x.seqLen (Tab.getD d.kvw.filled (layerKey b l) 0)
  pteValid e && !pteTent e && (pteShared e || decide ((p + 1) * k.mdlT x.model ≤ full))

/-- The offer of a Basket on a QP that a message answers. -/
def Data.offerOf (d : Data) (q b : Nat) : Option OfferOp := d.spl.offers.find? (fun o => o.qp == q && o.bsk == b)

/-- `push.prefix` (R249, R250). An offer is a push operation for R94. -/
def runPushPrefix : EngRun := engRun (fun k d t id th o =>
  let x := o.desc
  let b := th.bsk.getD 0
  let y := d.basket b
  let hs := df x 0 0 48
  let n := df x 8 0 13
  let q := df x 10 0 14
  let page := df x 12 0 24
  let pages := (List.range (k.mdlLayers y.model)).flatMap (fun l => (List.range n).map (fun i => (l, page + i)))
  let shared := (pages.filter (fun q => pteShared (pageEntry k d b q.1 q.2))).map (fun q => pageFrame k d b q.1 q.2)
  checked d t id
    [failIf (!descOk x [(0, 0, 48), (8, 0, 13), (10, 0, 14), (12, 0, 24)] || decide (4096 < n) || pageBad page n || th.bsk.isNone) .badDesc,
     k.bskCheck th b, failIf (!k.promptRole || k.qpPart q != some th.part) .perm, k.dpaCheck th.part hs (8 * n) false,
     failIf (!k.up (b % 4) 19 || !k.up (b % 4) 18) .domainOff, y.opCheck, failIf (y.state == .anchor && y.held) .notAnchor,
     failIf (y.receiver || !(y.state == .prefill || y.state == .pushing || y.state == .anchor || y.state == .decoding)) y.noRule,
     failIf (pages.any (fun z => !pageFull k d b z.1 z.2)) .badDesc,
     failIf (n == 0) .ok, (d.qp q).refusal, failIf (d.bad hs (8 * n)) .poison,
     pages.findSome? (fun z => (framesStop k d b z.1 [z.2]).map (fun h => h.2))]
    (if pinFull k d y.model shared then d.setSts 0x1200080 3
     else
       let hl := (List.range n).map (fun i => d.rd (hs + 8 * i) 8)
       let d1 := shared.foldl (fun e f => takePin e t id (k.frecOf y.model f)) (translates (d.start t id) b pages)
       let wait := (d1.offerOf q b).isSome
       let d2 := if wait then d1 else d1.sendSpool q o.cls (offerQMsg b y.model hl) .nobody
       { d2 with spl := { d2.spl with
         nextId := d2.spl.nextId + 1
         offers := d2.spl.offers ++ [⟨d2.spl.nextId, t, id, b, q, page, n, hl, none, wait⟩] } }))

/-- `push.prefix`: the issue. -/
def execPushPrefix (t : Nat) (p : BitVec 2) (ts : BitVec 5) (ds : BitVec 4) (s : State) : Host.Outcome State Fault Refusal :=
  onData (issue 1 4 thrBsk runPushPrefix t p ts ds) s

/-- An offer completes; its runs still held are not sent, and the next offer of its Basket on its QP begins. -/
def finishOfferOp (d : Data) (o : OfferOp) (st : Status) (count detail : Nat) : Data :=
  let rest := d.spl.offers.filter (fun y => y.id != o.id)
  nextOffers rest (Data.finish { d with spl := { d.spl with
    offers := rest
    sendq := d.spl.sendq.filter (fun r => !(r.owner == .offer o.id)) } } o.thread o.opId st count detail)

/-- The prompt node takes OFFER_A: it queues the pages of each absent entry, entry by entry with all layers of one before the next (R250). -/
def offerA (k : Ctl) (d : Data) (q : Nat) (m : List Byte) : Data :=
  match d.offerOf q (msgSend m) with
  | none => d
  | some o =>
    let st := (Status.ofCode? (msgStatus m)).getD .checkFail
    if st ≠ .ok then finishOfferOp d o st 0 0
    else
      let md := (d.basket o.bsk).model
      let absent := (List.range o.count).filter (fun i => bitsOf (mfld m (16 + i / 8) 1) (i % 8) 1 == 1)
      queueRuns k d (absent.flatMap (fun i => (List.range (k.mdlLayers md)).map (fun l =>
        ({ qp := q, cls := opCls d o.thread o.opId, owner := .offer o.id, type := 0x1A, sendB := o.bsk, recvB := 0xFFFFF, epoch := 0,
           spool := 3, layer := l, first := false, last := false, final := false, coded := false, table := 0, posFirst := 0, ntok := 0,
           pageFirst := i, frames := [pageFrame k d o.bsk l (o.page + i)], bytes := k.pageBytes md, part := (d.basket o.bsk).part,
           model := md, asked := false, units := 0 } : RunTx))))

/-- OFFER_A (R250). -/
def execOfferA (qp : Nat) (s : State) : Host.Outcome State Fault Refusal := onData (onMsg 0x19 offerA qp) s

/-- PREFIX_DONE (R250): COUNT the entries inserted, DETAIL those already present. -/
def execPrefixDone (qp : Nat) (s : State) : Host.Outcome State Fault Refusal :=
  onData (onMsg 0x1B (fun _ d q m =>
    match d.offerOf q (msgSend m) with
    | none => d
    | some o => finishOfferOp d o ((Status.ofCode? (msgStatus m)).getD .checkFail) (mfld m 16 4) (mfld m 20 4)) qp) s

/-- A run of an offer is answered: after a failure the runs still held are not sent. -/
def offerLanded (d : Data) (i : Nat) (st : Status) : Data :=
  if st = .ok then d else { d with spl := { d.spl with sendq := d.spl.sendq.filter (fun r => !(r.owner == .offer i)) } }

/-! ### Offering a prefix: the cache node -/

/-- The message PREFIX_DONE: status, entries inserted, entries already present. -/
def prefixDone (d : Data) (o : OfferServe) : Data :=
  Data.replySpool { d with spl := { d.spl with offerServes := d.spl.offerServes.filter (fun y => !(y.qp == o.qp && y.sendB == o.sendB)) } }
    o.qp (splHdr 0x1B o.status.code 0 o.sendB 0xFFFFF 0 ++ bytesLE 4 o.done ++ bytesLE 4 o.present)

/-- Replaces an offer being served. -/
def setOffer (d : Data) (o : OfferServe) : Data :=
  { d with spl := { d.spl with offerServes := d.spl.offerServes.map (fun y => if y.qp = o.qp ∧ y.sendB = o.sendB then o else y) } }

/-- Refuses an offer before it is served: by role, by model, or for want of a record pool (R250). -/
def offerCheck (k : Ctl) (part m : Nat) : Option Status :=
  firstOf
    [failIf (!k.cacheRole) .perm, failIf (!k.mdlOn m) .badDesc, failIf (k.mdlPart m != part) .perm,
     failIf ((k.recPool part).2.2 == 0 || decide ((k.recPool part).2.1 < 64 + 8 * k.mdlLayers m)) .cfgInvalid]

/-- Looks up offered hashes, each a search of its home bank (R200, R213). -/
def lookAll (k : Ctl) (m p : Nat) : List Nat → Data → Data
  | [], d => d
  | h :: r, d =>
    match k.homeBank h with
    | none => lookAll k m p r d
    | some b =>
      let d1 := (compareParity k d b (BitVec.ofNat 8 (h / 2 ^ 56)) 0xFF#8).bump (matCnt b 0) 1
      lookAll k m p r (if (findPrefix k d1 h m p).isSome then d1.bump (matCnt b 1) 1 else d1)

/-- An offered entry's frames are freed again. -/
def freeEntry (k : Ctl) (d : Data) (o : OfferServe) : Data :=
  wmCheck k (o.frames.foldl (fun e f => e.wr (k.frecOf o.model f.2) 8 0) d) o.part

/-- The cache node answers OFFER_Q with the bitmap of absent hashes (R250); an offer with none absent is done at once. -/
def offerQ (k : Ctl) (d : Data) (q : Nat) (m : List Byte) : Data :=
  let part := (d.qp q).part
  let md := mfld m 16 2
  let hs := (List.range (mfld m 18 2)).map (fun i => mfld m (24 + 8 * i) 8)
  let b := msgSend m
  if (d.qp q).state ≠ .ready then d
  else
    match offerCheck k part md with
    | some st => d.replySpool q (splHdr 0x19 st.code 0 b 0xFFFFF 0)
    | none =>
      let d0 := lookAll k md part hs ((d.spl.offerServes.filter (fun y => y.qp == q && y.sendB == b)).foldl (fun e y => freeEntry k e y) d)
      let absent := (List.range hs.length).filter (fun i => (findPrefix k d0 (hs.getD i 0) md part).isNone)
      let bits := absent.foldl (fun a i => a + 2 ^ i) 0
      let d1 := d0.replySpool q (splHdr 0x19 0 0 b 0xFFFFF 0 ++ bytesLE (ceilDiv hs.length 8) bits)
      let o : OfferServe := ⟨q, b, part, md, hs, absent, [], 0, hs.length - absent.length, .ok⟩
      let d2 := { d1 with spl := { d1.spl with
        offerServes := d1.spl.offerServes.filter (fun y => !(y.qp == q && y.sendB == b)) ++ [o] } }
      if absent.isEmpty then prefixDone d2 o else d2

/-- OFFER_Q (R250). -/
def execOfferQ (qp : Nat) (s : State) : Host.Outcome State Fault Refusal := onData (onMsg 0x18 offerQ qp) s

/-- Takes a frame of a model's plain pool with REFCNT 0 for an offered page (R133, R250). -/
def poolFrame (k : Ctl) (d : Data) (m : Nat) : Data × Option Nat :=
  match lowestFree d (k.mdlFrec m) (k.mdlFrames m) with
  | none => (d.setSts 0x1200080 0, none)
  | some f => (wmCheck k (d.wr (k.frecAt m 0 f) 8 (2 ^ 48)) (k.mdlPart m), some (k.frameDpa m 0 f))

/-- The lowest free record slot of a partition. -/
def freeSlot (k : Ctl) (d : Data) (p : Nat) : Option Nat := Tab.freeIn d.spl.slots (p * 2 ^ 32) (k.recPool p).2.2

/-- Writes an entry's record into a slot (R201, R250): GEN is kept, LEASE_END is the current KTIME. -/
def writeRecord (k : Ctl) (d : Data) (o : OfferServe) (a h : Nat) : Data :=
  let n := k.mdlLayers o.model
  let d1 := d.wr a 8 h
  let d2 := d1.wr (a + 8) 8 (o.model + o.part * 2 ^ 12 + recGen d a * 2 ^ 16 + n * 2 ^ 32)
  let d3 := (((d2.wr (a + 16) 8 0).wr (a + 24) 8 k.ns).wr (a + 32) 8 0).clear (a + 40) 24
  o.frames.foldl (fun e f => e.wr (a + 64 + 8 * f.1) 8 (pte false false (k.mdlTier o.model) f.2)) d3

/-- An entry whose layers have all landed is inserted (R250). -/
def insertOffered (k : Ctl) (d : Data) (o : OfferServe) (i : Nat) : Data × OfferServe :=
  let o1 := { o with left := o.left.drop 1, frames := [] }
  match freeSlot k d o.part with
  | none => (freeEntry k (d.splSts 4) o, { o1 with status := .noSpace })
  | some u =>
    let a := (k.recPool o.part).1 + (k.recPool o.part).2.1 * (u - o.part * 2 ^ 32)
    let d1 := writeRecord k { d with spl := { d.spl with slots := Tab.set d.spl.slots u 1 } } o a (o.hashes.getD i 0)
    let r := prefixInsert k d1 o.part (o.hashes.getD i 0) o.model a
    if r.2.1 = .ok ∧ r.2.2 = 0 then (r.1, { o1 with done := o.done + 1 })
    else
      let d2 := freeRecSlot k (freeEntry k r.1 o) o.part a
      if r.2.1 = .ok then (d2, { o1 with present := o.present + 1 }) else (d2, { o1 with status := r.2.1 })

/-- The cache node lands a PREFIX_DATA run (R250). -/
def landOffer (k : Ctl) (d : Data) (q : Nat) (m : List Byte) : Data :=
  let say := fun (e : Data) st n => answerRun k e q 3 3 m st n
  match d.spl.offerServes.find? (fun o => o.qp == q && o.sendB == msgSend m) with
  | none => say (countLate d q) .notAnchor 0
  | some o =>
    let stop := fun (e : Data) (st : Status) => prefixDone (say (freeEntry k e o) st 0) { o with status := st }
    let l := rhLayer m
    if !runSizeOk m (k.pageBytes o.model) || rhPages m != 1 || o.left.head? != some (rhPage m) || l != o.frames.length then
      stop d .badDesc
    else
      let d0 := countRun k d 3 o.part m
      match runRaw k m o.part (k.pageBytes o.model) with
      | none => stop d0 .checkFail
      | some ps =>
        match poolFrame k d0 o.model with
        | (d1, none) => stop d1 .noSpace
        | (d1, some f) =>
          let d2 := (d1.wrBytes f ps.flatten).setWritten f (k.mdlT o.model)
          let o1 := { o with frames := Tab.set o.frames l f }
          if l + 1 < k.mdlLayers o.model then say (setOffer d2 o1) .ok 1
          else
            let r := insertOffered k d2 o1 (rhPage m)
            let d3 := say (setOffer r.1 r.2) .ok 1
            if r.2.status ≠ .ok ∨ r.2.left.isEmpty then prefixDone d3 r.2 else d3

/-- PREFIX_DATA (R250). -/
def execPrefixData (qp : Nat) (s : State) : Host.Outcome State Fault Refusal := onData (onMsg 0x1A landOffer qp) s

/-! ### Answers to runs -/

/-- A LANDED takes effect on the oldest unanswered run that it answers (R224, R226, R232). -/
def takeLanded (k : Ctl) (d : Data) (q : Nat) (m : List Byte) : Data :=
  match d.spl.flight.find? (fun r => r.qp == q && r.sendB == msgSend m && r.recvB == msgRecv m && r.epoch == msgEpoch m) with
  | none => d
  | some r =>
    let st := (Status.ofCode? (msgStatus m)).getD .checkFail
    let d1 := addCredit { d with spl := { d.spl with flight := d.spl.flight.erase r } } (4 * q + r.spool) (mfld m 20 2)
    match r.owner with
    | .push b l => pushLanded k d1 r b l (mfld m 16 4) st
    | .stray b => strayLanded k d1 r b (mfld m 16 4) st
    | .gone => d1
    | .serve i => serveLanded k d1 r i
    | .offer i => offerLanded d1 i st

/-- LANDED (R224). -/
def execLanded (qp : Nat) (s : State) : Host.Outcome State Fault Refusal := onData (onMsg 0x02 takeLanded qp) s

/-- Prompt work of a role P+G Kratal that has waited 10 ms without a grant (R239, R254). -/
def execPromptStarved (s : State) : Host.Outcome State Fault Refusal :=
  onData (fun k d =>
    match d.spl.promptSince with
    | some t => if k.role = 4 ∧ !d.spl.sendq.isEmpty ∧ t + 5000000 ≤ k.ticks then d.splSts 3 else d
    | none => d) s

/-! ### The failure of a QP -/

/-- What the engines hold for a QP ends with it (R79, R206, R224, R247, R331): pulls, offers, queries and forwarded lookups on it complete with the status, served pulls
let go of their frames, and credit is void. -/
def enginesQpEnd (k : Ctl) (d1 : Data) (q : Nat) (st : Status) : Data :=
  let d2 := (d1.spl.pulls.filter (fun o => o.qp == q)).foldl (fun e o => finishPull k e o (o.fail.getD st)) d1
  let d3 := (d2.spl.offers.filter (fun o => o.qp == q)).foldl (fun e o => finishOfferOp e o st 0 0) d2
  let d4 := (d3.spl.queries.filter (fun x => x.2.2.1 == q)).foldl (fun e x => e.finish x.1 x.2.1 st 0 0) d3
  let d40 := (d4.adp.fetches.filter (fun x => x.2.2.1 == q)).foldl (fun e x => e.finish x.1 x.2.1 st 0 0) d4
  let d5 := (d40.mat.lookups.filter (fun x => x.qp == q)).foldl (fun e x => e.finish x.thread x.opId st 0 0) d40
  let held := (d5.spl.sendq ++ d5.spl.flight).filter (fun r => r.qp == q)
  let d6 := held.foldl (fun e r =>
    match r.owner with
    | .serve _ => r.frames.foldl (fun e2 f => unpin e2 (k.frecOf r.model f)) e
    | _ => e) d5
  let d7 := (d6.spl.offerServes.filter (fun o => o.qp == q)).foldl (fun e o => freeEntry k e o) d6
  let d8 := { d7 with
    spl := { d7.spl with
      sendq := d7.spl.sendq.filter (fun r => r.qp != q)
      flight := d7.spl.flight.filter (fun r => r.qp != q)
      serves := d7.spl.serves.filter (fun s => s.qp != q)
      offerServes := d7.spl.offerServes.filter (fun o => o.qp != q)
      queries := d7.spl.queries.filter (fun x => x.2.2.1 != q)
      refused := d7.spl.refused.filter (fun x => x.qp != q)
      credit := Tab.keep d7.spl.credit (fun key _ => key / 4 != q)
      granted := Tab.keep d7.spl.granted (fun key _ => key / 4 != q)
      asked := d7.spl.asked.filter (fun key => key / 4 != q)
      waiting := d7.spl.waiting.filter (fun x => x.1 / 4 != q) }
    adp := { d7.adp with fetches := d7.adp.fetches.filter (fun x => x.2.2.1 != q) }
    mat := { d7.mat with lookups := d7.mat.lookups.filter (fun x => x.qp != q) }
    ttx := { d7.ttx with inbox := d7.ttx.inbox.filter (fun m => m.qp != q) } }
  serveWaiting k d8

/-- A QP has failed with a status, or is destroyed (R107, R224): pushes on it are cut off, and what the engines hold for it ends. -/
def enginesQpFail (k : Ctl) (d : Data) (q : Nat) (st : Status) : Data := enginesQpEnd k (pushQpFail k d q st) q st

end Sys2Proof.Machine
end

