-- ==== Sys2Proof/Machine/Adapters.lean ====
section
/-!
DEFINITION. Adapter versions (R321 to R331) and their placement in the Sail banks (R333).
-/
namespace Sys2Proof.Machine

/-- STATE of a version record: 0 FREE, 1 PUBLISHED, 2 RETIRING (R322). -/
def avState (d : Data) (a : Nat) : Nat := bitsOf (d.rd a 8) 32 2
/-- PLACED. -/
def avPlaced (d : Data) (a : Nat) : Bool := bitsOf (d.rd a 8) 34 1 == 1
/-- Adapted projections per layer. -/
def avProj (d : Data) (a : Nat) : Nat := bitsOf (d.rd a 8) 35 2 + 1
/-- The rank r. -/
def avRank (d : Data) (a : Nat) : Nat := bitsOf (d.rd a 8) 37 8 + 1
/-- MODEL. -/
def avModel (d : Data) (a : Nat) : Nat := bitsOf (d.rd a 8) 45 12
/-- ELEM. -/
def avElem (d : Data) (a : Nat) : Nat := bitsOf (d.rd a 8) 57 1
/-- PINS. -/
def avPins (d : Data) (a : Nat) : Nat := d.rd (a + 8) 4
/-- ALPHA. -/
def avAlpha (d : Data) (a : Nat) : Nat := d.rd (a + 12) 4
/-- OBJ. -/
def avObj (d : Data) (a : Nat) : Nat := bitsOf (d.rd (a + 16) 8) 0 48
/-- FIRST_A. -/
def avFirstA (d : Data) (a : Nat) : Nat := bitsOf (d.rd (a + 24) 8) 0 11
/-- FIRST_B. -/
def avFirstB (d : Data) (a : Nat) : Nat := bitsOf (d.rd (a + 24) 8) 11 11
/-- AREA. -/
def avArea (d : Data) (a : Nat) : Nat := bitsOf (d.rd (a + 24) 8) 22 28
/-- K_IN of projection `j`. -/
def avKin (d : Data) (a j : Nat) : Nat := d.rd (a + 32 + 4 * j) 2
/-- N_OUT of projection `j`. -/
def avNout (d : Data) (a j : Nat) : Nat := d.rd (a + 34 + 4 * j) 2

/-- S_L: the segments of a layer of a library object (R324). -/
def layerSegs (r : Nat) (dims : List (Nat × Nat)) : Nat := ceilDiv (dims.foldl (fun n x => n + r * (x.1 + x.2) * 2) 0) 4096

/-- The live versions of an ID: its VALID directory words' records, newest first. -/
def liveVersions (k : Ctl) (d : Data) (p id : Nat) : List Nat := (List.range 4).filterMap (fun w => adpWord k d p id w)

/-- The table has not been committed (R321). -/
def Ctl.adpTable (k : Ctl) (p : Nat) : Option Status := failIf (k.adpCount p == 0) .cfgInvalid

/-- `adp.publish` (R325). Only the header and the index are read; the object that they describe must lie in the partition's plain range (R350). -/
def runAdpPublish : EngRun := engRun (fun k d t id th o =>
  let x := o.desc
  let p := th.part
  let ident := df x 0 0 16
  let ver := df x 0 16 16
  let m := df x 4 0 12
  let np := df x 4 12 2 + 1
  let r := df x 6 0 8 + 1
  let obj := df x 16 0 48
  let dims := (List.range np).map (fun j => (df x (32 + 4 * j) 0 16, df x (34 + 4 * j) 0 16))
  let live := liveVersions k d p ident
  let want := k.mdlLayers m * layerSegs r dims
  checked d t id
    [failIf (!descOk x [(0, 0, 32), (4, 0, 15), (6, 0, 8), (8, 0, 32), (16, 0, 48), (32, 0, 64), (40, 0, 64)] || ident == 0xFFFF ||
        dims.any (fun y => y.1 % 512 != 0 || decide (y.1 < 512) || decide (16384 < y.1) || y.2 % 32 != 0 || decide (y.2 < 32) ||
          decide (16384 < y.2))) .badDesc,
     failIf (k.role == 0) .perm, k.dpaCheck p obj 8 false, k.offCheck (regionOf t) 21, k.adpTable p,
     failIf (!k.mdlOn m || k.mdlPart m != p) .badDesc, failIf (d.bad obj 8) .poison,
     failIf (match objHeader (d.rd obj 8) with | some (n, last, e) => n != want || last != 4096 || e != df x 4 14 1 | none => true) .badDesc,
     k.dpaCheck p obj (8 + 4 * (want + 1)) false, failIf (d.bad obj (8 + 4 * (want + 1))) .poison,
     k.dpaCheck p obj (segStart d obj want) false,
     failIf (live.any (fun a => decide (ver ≤ bitsOf (d.rd a 8) 16 16))) .badDesc]
    (let slot := (List.range (k.adpCount p)).find? (fun i => avState d (k.adpRecs p + 64 * i) == 0)
     match slot with
     | none => (d.setSts 0x1100100 0).finish t id .noSpace 0 0
     | some i =>
       if live.length = 4 then (d.setSts 0x1100100 0).finish t id .noSpace 0 0
       else
         let a := k.adpRecs p + 64 * i
         let w0 := ident + ver * 2 ^ 16 + 2 ^ 32 + (np - 1) * 2 ^ 35 + (r - 1) * 2 ^ 37 + m * 2 ^ 45 + df x 4 14 1 * 2 ^ 57
         let d1 := ((((d.clear a 64).wr a 8 w0).wr (a + 12) 4 (df x 8 0 32)).wr (a + 16) 8 obj).wr (a + 48) 8 k.ns
         let d2 := (d1.wr (a + 32) 8 (df x 32 0 64)).wr (a + 40) 8 (df x 40 0 64)
         let dir := k.adpDir p + 16 * ident
         let old := ((List.range 4).map (fun j => d.rd (dir + 4 * j) 4)).filter (fun v => bitsOf v 31 1 == 1)
         let d3 := d2.wrBytes dir (((i + 2 ^ 31) :: old ++ [0, 0, 0]).take 4 |>.flatMap (fun v => bytesLE 4 v))
         (d3.bump (cntAddr 0x11 p 17) 1).finish t id .ok 0 i))

/-- `adp.publish`: the issue. -/
def execAdpPublish (t : Nat) (p : BitVec 2) (ts : BitVec 5) (ds : BitVec 4) (s : State) : Host.Outcome State Fault Refusal :=
  onData (issue 0xA 6 noBsk runAdpPublish t p ts ds) s

/-- `adp.pin` (R326, R327). -/
def runAdpPin : EngRun := engRun (fun k d t id th o =>
  let h := df o.desc 0 0 32
  checked d t id
    [failIf (!descOk o.desc [(0, 0, 32)]) .badDesc, k.offCheck (regionOf t) 21, k.adpTable th.part,
     failIf (adpFind k d th.part h).isNone .badDesc, failIf (decide (8 ≤ (d.adp.pins.filter (fun x => x.1 == t)).length)) .noSpace]
    (let d1 := adpPin k d th.part h
     Data.finish { d1 with adp := { d1.adp with pins := d1.adp.pins ++ [(t, th.part, h)] } } t id .ok 0 0))

/-- `adp.pin`: the issue. -/
def execAdpPin (t : Nat) (p : BitVec 2) (ts : BitVec 5) (ds : BitVec 4) (s : State) : Host.Outcome State Fault Refusal :=
  onData (issue 0xA 7 noBsk runAdpPin t p ts ds) s

/-- `adp.unpin` (R326, R327): a version the thread has not pinned gives BAD_DESC. -/
def runAdpUnpin : EngRun := engRun (fun k d t id th o =>
  let h := df o.desc 0 0 32
  checked d t id
    [failIf (!descOk o.desc [(0, 0, 32)]) .badDesc, k.offCheck (regionOf t) 21, k.adpTable th.part,
     failIf (!d.adp.pins.contains (t, th.part, h)) .badDesc]
    ((adpUnpin k { d with adp := { d.adp with pins := d.adp.pins.erase (t, th.part, h) } } th.part h).finish t id .ok 0 0))

/-- `adp.unpin`: the issue. -/
def execAdpUnpin (t : Nat) (p : BitVec 2) (ts : BitVec 5) (ds : BitVec 4) (s : State) : Host.Outcome State Fault Refusal :=
  onData (issue 0xA 8 noBsk runAdpUnpin t p ts ds) s

/-- `adp.retire` (R323, R328). -/
def runAdpRetire : EngRun := engRun (fun k d t id th o =>
  let h := df o.desc 0 0 32
  let wait := df o.desc 4 0 1 == 1
  checked d t id
    [failIf (!descOk o.desc [(0, 0, 32), (4, 0, 1)]) .badDesc, k.offCheck (regionOf t) 21, k.adpTable th.part,
     failIf (adpFind k d th.part h).isNone .badDesc]
    (match adpFind k d th.part h with
     | none => d
     | some (a, w) =>
       let n := avPins d a
       let d1 := if avState d a = 1 ∧ n ≠ 0 then d.wr a 8 (d.rd a 8 + 2 ^ 32) else d
       if wait then
         let d2 := (d1.start t id)
         let d3 := { d2 with adp := { d2.adp with retires := d2.adp.retires ++ [(t, id, th.part, h)] } }
         if n = 0 then adpFree k d3 th.part h a w else d3
       else (if n = 0 then adpFree k d1 th.part h a w else d1).finish t id .ok n 0))

/-- `adp.retire`: the issue. -/
def execAdpRetire (t : Nat) (p : BitVec 2) (ts : BitVec 5) (ds : BitVec 4) (s : State) : Host.Outcome State Fault Refusal :=
  onData (issue 0xA 9 noBsk runAdpRetire t p ts ds) s

/-! ### Fetching -/

/-- `adp.fetch` (R331). Its request to the peer, whose layout the spec leaves open: kind 1, handle, DST_BYTES. -/
def runAdpFetch : EngRun := engRun (fun k d t id th o =>
  let x := o.desc
  let q := df x 4 0 14
  let dst := df x 8 0 48
  let n := df x 16 0 40
  checked d t id
    [failIf (!descOk x [(0, 0, 32), (4, 0, 14), (8, 0, 48), (16, 0, 40)] || dst % 8 != 0) .badDesc,
     failIf (k.role == 0 || k.role == 3 || k.qpPart q != some th.part) .perm, k.dpaCheck th.part dst n false,
     k.offCheck (regionOf t) 21, k.adpTable th.part, (d.qp q).refusal]
    (let d1 := (d.start t id).sendEngine q 2 o.cls (bytesLE 4 1 ++ bytesLE 4 (df x 0 0 32) ++ bytesLE 8 n) .nobody
     { d1 with adp := { d1.adp with fetches := d1.adp.fetches ++ [(t, id, q, dst)] } }))

/-- `adp.fetch`: the issue. -/
def execAdpFetch (t : Nat) (p : BitVec 2) (ts : BitVec 5) (ds : BitVec 4) (s : State) : Host.Outcome State Fault Refusal :=
  onData (issue 0xA 10 noBsk runAdpFetch t p ts ds) s

/-- The cache node answers a fetch (R331): kind 2 with the status in [15:8], the segments, and the object's stored bytes. -/
def serveFetch (k : Ctl) (d : Data) (q : Nat) (m : List Byte) : Data :=
  let p := (d.qp q).part
  let say := fun (st : Status) n bytes =>
    d.sendEngine q 2 (d.qp q).rxCls (bytesLE 4 (2 + st.code * 256) ++ bytesLE 4 n ++ bytes) .nobody
  if (d.qp q).state ≠ .ready then d
  else if !k.cacheRole then say .perm 0 []
  else
    match adpFind k d p (mfld m 4 4) with
    | none => say .badDesc 0 []
    | some (a, _) =>
      let obj := avObj d a
      match objHeader (d.rd obj 8) with
      | none => say .badDesc 0 []
      | some (n, _, _) =>
        let size := 8 * d.rd (obj + 8 + 4 * n) 4
        if mfld m 8 8 < size then say .noSpace 0 []
        else if d.bad obj size then say .poison 0 []
        else say .ok n (memBytes d.mem obj size)

/-- ADAPTER_FETCH_SERVE: a fetch request at the head of a QP. -/
def execAdapterFetchServe (qp : Nat) (s : State) : Host.Outcome State Fault Refusal :=
  onData (fun k d =>
    match d.peekMsg qp 2 (fun m => mfld m.bytes 0 1 == 1) with
    | some m => serveFetch k (takeMsg k d qp) qp m.bytes
    | none => d) s

/-- The answer to the oldest fetch on a QP completes it (R331). -/
def fetchAnswer (d : Data) (q : Nat) (m : List Byte) : Data :=
  match d.adp.fetches.find? (fun x => x.2.2.1 == q) with
  | none => d
  | some x =>
    let st := (Status.ofCode? (mfld m 1 1)).getD .checkFail
    let d1 := { d with adp := { d.adp with fetches := d.adp.fetches.erase x } }
    if st = .ok then (d1.wrBytes x.2.2.2 (m.drop 8)).finish x.1 x.2.1 .ok (mfld m 4 4) 0 else d1.finish x.1 x.2.1 st 0 0

/-! ### Placement -/

/-- The DPA of byte `o` of bank `g` of the 2,048, banks alternating over the four stacks (R131). -/
def globalBank (g o : Nat) : Nat := bankDpa (g % 2048 % 4) (g % 2048 / 4) o

/-- Whether the bank ranges [a, a + n) and [b, b + m) meet, modulo 2,048. -/
def banksMeet (a n b m : Nat) : Bool := (List.range n).any (fun i => decide (((a + i) % 2048 + 2048 - b % 2048) % 2048 < m))

/-- Whether a range of offsets within the banks meets a valid TIER 0 pool (R333). -/
def Ctl.meetsPool (k : Ctl) (o n : Nat) : Bool :=
  (List.range 4096).any (fun m => k.mdlOn m && k.mdlTier m == 0 && overlaps o n (k.mdlPool m) (k.mdlFrames m * k.frameBytes m))

/-- Writes the slices of one projection of one layer from raw bytes at `raw` (R324, R333). -/
def placeProj (d : Data) (fa fb area s r kin nout : Nat) (raw : List Byte) : Data :=
  let d1 := (List.range (kin / 512)).foldl (fun e p =>
    e.wrBytes (globalBank (fa + p) (area + s * 1024 * r)) ((raw.drop (1024 * r * p)).take (1024 * r))) d
  (List.range (nout / 32)).foldl (fun e b =>
    e.wrBytes (globalBank (fb + b) (area + s * 64 * r))
      ((List.range r).flatMap (fun i => (raw.drop (kin * r * 2 + (i * nout + 32 * b) * 2)).take 64))) d1

/-- The projections of a layer one after another. -/
def placeLayer (fa fb area r : Nat) : Nat → List (Nat × Nat) → List Byte → Data → Data
  | _, [], _, d => d
  | s, (kin, nout) :: rest, raw, d =>
    placeLayer fa fb area r (s + 1) rest (raw.drop (r * (kin + nout) * 2)) (placeProj d fa fb area s r kin nout raw)

/-- The Sail ranges that the slices of one projection take, as (address, bytes) (R333). -/
def projRanges (fa fb area s r : Nat) (y : Nat × Nat) : List (Nat × Nat) :=
  (List.range (y.1 / 512)).map (fun p => (globalBank (fa + p) (area + s * 1024 * r), 1024 * r)) ++
  (List.range (y.2 / 32)).map (fun b => (globalBank (fb + b) (area + s * 64 * r), 64 * r))

/-- The Sail stacks of `n` banks from `a` on (R131). -/
def stacksOf (a n : Nat) : List Nat := (List.range 4).filter (fun i => (List.range (Nat.min n 4)).any (fun j => (a + j) % 4 == i))

/-- `adp.place` (R333). An object with a damaged segment leaves the banks as they were; a write that the link fails leaves PLACED 0 (R282). -/
def runAdpPlace : EngRun := engRun (fun k d t id th o =>
  let x := o.desc
  let h := df x 0 0 32
  let fa := df x 4 0 11
  let fb := df x 6 0 11
  let area := df x 8 0 28
  let lanes := df x 12 0 4
  let found := (adpFind k d th.part h).map (fun y => y.1)
  let a := found.getD 0
  let np := avProj d a
  let r := avRank d a
  let ln := k.mdlLayers (avModel d a)
  let dims := (List.range np).map (fun j => (avKin d a j, avNout d a j))
  let pa := dims.foldl (fun n y => Nat.max n (y.1 / 512)) 0
  let pb := dims.foldl (fun n y => Nat.max n (y.2 / 32)) 0
  let size := ln * np * 1024 * r
  checked d t id
    [failIf (!descOk x [(0, 0, 32), (4, 0, 11), (6, 0, 11), (8, 0, 28), (12, 0, 4)] || lanes == 0 || decide (12 < lanes) || area % 1024 != 0) .badDesc,
     failIf (!k.genRole) .perm, failIf (found.isSome && !inside area size (k.sailBase th.part) (k.sailSize th.part)) .perm,
     failIf (!k.up (regionOf t) 21 || !k.up (regionOf t) 11 || (found.isSome && (stacksOf fa pa ++ stacksOf fb pb).any (fun i => !k.up i 10))) .domainOff,
     k.adpTable th.part, failIf found.isNone .badDesc, failIf (avState d a != 1 || avPlaced d a) .badDesc,
     failIf (banksMeet fa pa fb pb || decide (bankBytes < area + size) || k.meetsPool area size) .badDesc]
    (let obj := avObj d a
     match objHeader (d.rd obj 8) with
     | none => d.finish t id .badDesc 0 0
     | some (n, last, e) =>
       let w := expand k d th.part obj n last e n 0
       let d0 := countExp d (regionOf t) lanes 0 w.1
       match w.2 with
       | some (i, .checkFail) => ((countFail d0 (regionOf t) lanes i).setSts 0x1100100 2).finish t id .checkFail 0 i
       | some (i, .uncorrectable) =>
         (hbmLink k d0 .read (obj + segStart d obj i) (segStart d obj (i + 1) - segStart d obj i)).1.finish t id .uncorrectable 0 0
       | some (_, st) => d0.finish t id st 0 0
       | none =>
         let raw := w.1.flatMap (fun y => y.1)
         let sl := layerSegs r dims * 4096
         let rs := (List.range ln).flatMap (fun l => (List.range np).flatMap (fun j => projRanges fa fb area (l * np + j) r (dims.getD j (0, 0))))
         let f := rs.foldl (fun (y : Data × Bool) z => let u := hbmLink k y.1 .write z.1 z.2; (u.1, y.2 || u.2)) (d0, false)
         let d1 := (List.range ln).foldl (fun e2 l => placeLayer fa fb area r (l * np) dims (raw.drop (l * sl)) e2) f.1
         if f.2 then d1.finish t id .uncorrectable 0 0
         else ((d1.wr a 8 (d1.rd a 8 + 2 ^ 34)).wr (a + 24) 8 (fa + fb * 2 ^ 11 + area * 2 ^ 22)).finish t id .ok 0 0))

/-- `adp.place`: the issue. -/
def execAdpPlace (t : Nat) (p : BitVec 2) (ts : BitVec 5) (ds : BitVec 4) (s : State) : Host.Outcome State Fault Refusal :=
  onData (issue 0xA 11 noBsk runAdpPlace t p ts ds) s

end Sys2Proof.Machine
end

