-- ==== Sys2Proof/Machine/SailNum.lean ====
section
/-!
DEFINITION. The arithmetic of the Sail units and the Merge engines (R162, R163, R266, R269, R309): exp2, the conversion of vectors to E4M3, scores and
weighted sums, products of vectors with a matrix, and folds.
-/
namespace Sys2Proof.Machine

/-- Whether a value is a NaN. -/
def Val.isNan : Val → Bool
  | .nan _ => true
  | _ => false

/-- The floor of a finite value, and whether the value is an integer. -/
def Val.floor : Val → Int × Bool
  | .fin n m e => if 0 ≤ e then (sgn n m * 2 ^ e.toNat, true) else (sgn n m / 2 ^ (-e).toNat, sgn n m % 2 ^ (-e).toNat == 0)
  | _ => (0, true)

/-- The 2^i-th roots of two for i from 1 to 40, in units of 2^-64. -/
def exp2Roots : List Nat :=
  [
   26087635650665564424, 21936999301089678046, 20116317054877281741, 19263451207323153961,
   18850675170876015534, 18647615946650685158, 18546908069882975960, 18496758270674070881,
   18471734244850835105, 18459234930309000272, 18452988445124272033, 18449865995240371898,
   18448304968436414829, 18447524504564044945, 18447134285009651015, 18446939178327825412,
   18446841625760745902, 18446792849670663276, 18446768461673986097, 18446756267687738521,
   18446750170697637485, 18446747122203342655, 18446745597956384161, 18446744835832952145,
   18446744454771247944, 18446744264240398796, 18446744168974974960, 18446744121342263226,
   18446744097525907405, 18446744085617729507, 18446744079663640560, 18446744076686596088,
   18446744075198073851, 18446744074453812733, 18446744074081682174, 18446744073895616895,
   18446744073802584255, 18446744073756067935, 18446744073732809775, 18446744073721180695]

/-- 2^F in units of 2^-64, for the first 40 bits of a fraction F, in units of 2^-40. -/
def exp2Frac (n : Nat) : Nat :=
  (exp2Roots.zip ((List.range 40).map (fun i => 39 - i))).foldl (fun p y => if n / 2 ^ y.2 % 2 = 1 then p * y.1 / 2 ^ 64 else p) (2 ^ 64)

/-- Of the FP32 significands within 2 units in the last place of 2^F, the one that the hardware gives (R163), which the spec leaves free (log entry 15). -/
def exp2Sig (n code : Nat) : Nat := Nat.min (2 ^ 24) (Nat.max (2 ^ 23) (exp2Frac n / 2 ^ 41 + Config.exp2 code % 4 - 1))

/-- exp2 on inputs from −126 to 0 (R163): exact at an integer, else a value within 2 units in the last place; 0 below −126. -/
def exp2 (x : Val) : Val :=
  match x with
  | .nan n => .nan n
  | .inf n => if n then val0 else .inf false
  | .fin neg m e =>
    if Val.lt x (.fin true 126 0) then val0
    else
      let f := x.floor
      if f.2 then .fin false 1 f.1
      else
        let a := (if 0 ≤ e + 40 then m * 2 ^ (e + 40).toNat else m / 2 ^ (-(e + 40)).toNat) % 2 ^ 40
        .fin false (exp2Sig (if neg then 2 ^ 40 - 1 - (a - 1) else a) (fp32.result x)) (f.1 - 23)

/-- A magnitude below 2^−126 becomes zero (R163). -/
def flush (x : Val) : Val :=
  match x with
  | .fin n m e => if Val.lt (.fin false m e) (.fin false 1 (-126)) then .fin n 0 0 else x
  | v => v

/-- Whether every element of a head, divided by 2^j and rounded in E4M3, has magnitude at most 448 (R162). -/
def e4m3Fits (vs : List Val) (j : Int) : Bool :=
  vs.all (fun v => match v with | .fin _ m e => decide (e4m3.roundCode m (e - j) ≤ e4m3.maxCode) | _ => true)

/-- A vector in E4M3 with its exponent j (R162): all zero takes j = 0; with a non-finite element every element is a NaN. -/
def toE4m3 (vs : List Val) : Int × List Nat :=
  if vs.any (fun v => !v.isFinite) then (0, vs.map (fun _ => e4m3.nanCode))
  else
    let j : Int :=
      if vs.all (fun v => match v with | .fin _ m _ => m == 0 | _ => false) then 0
      else match (List.range 254).find? (fun (i : Nat) => e4m3Fits vs (Int.ofNat i - 126)) with
        | some i => Int.ofNat i - 126
        | none => 127
    (j, vs.map (fun v => (e4m3.store (v.scale (-j))).1))

/-- A signed byte. -/
def sByte (b : Nat) : Int := if b < 128 then (b : Int) else (b : Int) - 256
/-- The byte of a signed number. -/
def byteOf (x : Int) : Byte := BitVec.ofInt 8 x

/-- The sum of exact terms in order, in FP32 (R163). -/
def sum32 (l : List Val) : Val := l.foldl add32 val0

/-- The score of a query row of exponent `j` against one K vector (R163, R266). -/
def score (scale : Val) (j : Int) (q k : List Val) : Val :=
  mul32 scale (sum32 ((q.zip k).map (fun x => flush ((x.1.mul x.2).scale j))))

/-- The running maximum, sum and output of a row (R266). -/
structure ARow where
  m : Val
  l : Val
  o : List Val

/-- A row with no position (R267). -/
def ARow.empty (dim : Nat) : ARow := ⟨negInf, val0, List.replicate dim val0⟩
/-- A row made NaN. -/
def ARow.nan (dim : Nat) : ARow := ⟨.nan false, .nan false, List.replicate dim (.nan false)⟩

/-- One position of a row (R266); `bad` for a position of a non-finite Spar group. -/
def ARow.step (x : ARow) (s : Val) (bad : Bool) (v : List Val) : ARow :=
  if s.isNan || bad || x.m.isNan then ARow.nan x.o.length
  else
    let up := Val.lt x.m s
    let f := exp2 (add32 x.m s.neg)
    let m := if up then s else x.m
    let l := if up then mul32 x.l f else x.l
    let o := if up then x.o.map (fun y => mul32 y f) else x.o
    let e := exp2 (add32 s m.neg)
    ⟨m, add32 l e, (o.zip v).map (fun y => r32 (y.1.add (e.mul y.2)))⟩

/-- The bytes of a partial row (R267). -/
def ARow.bytes (x : ARow) (pfmt : Bool) : List Byte :=
  bytesLE 4 (fp32.result x.m) ++ bytesLE 4 (fp32.result x.l) ++
    x.o.flatMap (fun y => if pfmt then bytesLE 2 (bf16.result y) else bytesLE 4 (fp32.result y))

/-- y_n for one vector against a matrix of `n` columns (R269): the sum in k order, then the scaling by 2^j. -/
def gemvRow (j : Int) (v : List Val) (col : Nat → List Val) (n : Nat) : List Val :=
  (List.range n).map (fun c => r32 ((sum32 ((v.zip (col c)).map (fun x => x.1.mul x.2))).scale j))

/-- A sum of exact products rounded once (R309). -/
def sumOnce (l : List Val) : Val := r32 (l.foldl Val.add val0)

/-- The larger of two values; a NaN wins. -/
def Val.max (a b : Val) : Val := if a.isNan then a else if b.isNan then b else if Val.lt a b then b else a

/-- Whether two values are the same maximum. -/
def sameVal (a b : Val) : Bool := !Val.lt a b && !Val.lt b a && !a.isNan && !b.isNan

/-- Folds one or two partials into an accumulator (R309), and whether the maximum moved. -/
def foldRows (acc : ARow) (ps : List ARow) : ARow × Bool :=
  let mn := ps.foldl (fun y p => Val.max y p.m) acc.m
  let moved := !sameVal acc.m mn
  let sa := if moved then exp2 (add32 acc.m mn.neg) else val1
  let ss := ps.map (fun p => exp2 (add32 p.m mn.neg))
  let at_ := fun (f : ARow → Val) => sumOnce ((f acc).mul sa :: (ps.zip ss).map (fun x => (f x.1).mul x.2))
  (⟨mn, at_ (fun r => r.l), (List.range acc.o.length).map (fun c => at_ (fun r => r.o.getD c val0))⟩, moved)

end Sys2Proof.Machine
end

