-- ==== Sys2Proof/Machine/Sail.lean ====
section
/-!
DEFINITION. The commands of the Sail units (R265 to R275, R283, R284): their work at a bank, the strokes in which they are performed and refresh (R276 to
R278, R288), units out of service (R285) and the completion of issues (R264).
-/
namespace Sys2Proof.Machine

/-! ### What a command reads -/

/-- The DPA of offset 0 of a global bank. -/
def bankBase (g : Nat) : Nat := bankDpa (g % 4) (g / 4) 0
/-- The DPA of a unit's result area. -/
def resultBase (g : Nat) : Nat := resultDpa (g % 4) (g / 4)
/-- Bytes per element of a floating FORMAT. -/
def fmtBytes (f : Nat) : Nat := if f < 2 then 2 else 1
/-- MAC of a unit in a CLK_SAL cycle (R152). -/
def macRate (f : Nat) : Nat := if f < 2 then 128 else if f < 5 then 256 else 512

/-- The lowest marked 32-byte word of a range. -/
def badWord (d : Data) (a n : Nat) : Option Nat :=
  (d.poison.filter (fun w => overlaps (32 * w) 32 a n)).foldl (fun b w => match b with | some x => some (Nat.min x w) | none => some w) none

/-- What a unit reports of a marked word of its bank (R283): the status and DETAIL[31:12]. -/
def badStatus (d : Data) (g w : Nat) : Status × Nat :=
  (if d.rawUe.contains w then .uncorrectable else .poison, (32 * w - bankBase g) / 8192)

/-- The shape of an ATTN_PARTIAL's frames (R265). -/
def attnShape (x : Desc) : Shape := ⟨df x 16 0 3, 16 * 2 ^ df x 16 3 2, df x 17 0 5, 64 * 2 ^ df x 16 5 2⟩

/-- The frame list of an ATTN_PARTIAL: frame offset in the bank, T_LO, T_HI. -/
def attnFrames (x : Desc) (op : List Byte) : List (Nat × Nat × Nat) :=
  (List.range (df x 22 0 10)).map (fun i =>
    let e := mfld op (df x 28 0 13 + 8 * i) 8
    (bitsOf e 0 18 * 1024, bitsOf e 18 7, bitsOf e 25 7))

/-- The addresses that a frame list entry covers: K, V and exponents of its heads and slots. -/
def attnAddrs (s : Shape) (a h0 hc lo hi : Nat) : List Nat :=
  (List.range hc).flatMap (fun h => (List.range (hi - lo)).flatMap (fun t => (List.range s.dim).flatMap (fun c =>
    [a + s.kIx (h0 + h) c (lo + t) * s.elemBits / 8, a + s.area + s.vIx (h0 + h) c (lo + t) * s.elemBits / 8] ++
      (if isSpar s.fmt then [a + s.kExp (h0 + h) c (lo + t), a + s.vExp (h0 + h) c (lo + t)] else []))))

/-- The first marked word that an ATTN_PARTIAL reads, frame by frame. -/
def attnBad (d : Data) (g : Nat) (x : Desc) (op : List Byte) : Option Nat :=
  let s := attnShape x
  (attnFrames x op).findSome? (fun f =>
    let a := bankBase g + f.1
    if !d.bad a (3 * s.area) then none
    else ((attnAddrs s a (df x 18 0 4) (df x 19 0 5) f.2.1 f.2.2).filter (fun y => d.bad y 1)).foldl
      (fun b y => match b with | some w => some (Nat.min w (y / 32)) | none => some (y / 32)) none)

/-- The words that an ATTN_PARTIAL reads, frame by frame up to the first marked one, pass the in-die code (R281). -/
def attnRead (k : Ctl) (g : Nat) (x : Desc) : List (Nat × Nat × Nat) → Data → Data
  | [], d => d
  | f :: r, d =>
    let s := attnShape x
    let a := bankBase g + f.1
    if (flawed d .one a (3 * s.area)).isEmpty && !d.bad a (3 * s.area) then attnRead k g x r d
    else
      let ws := ((attnAddrs s a (df x 18 0 4) (df x 19 0 5) f.2.1 f.2.2).map (fun y => y / 32)).eraseDups
      match (ws.filter (fun w => d.bad (32 * w) 32)).foldl (fun b w => match b with | some z => some (Nat.min z w) | none => some w) none with
      | some w => (ws.filter (fun y => decide (y < w))).foldl (fun e y => sailRead k e (32 * y) 32) d
      | none => attnRead k g x r (ws.foldl (fun e y => sailRead k e (32 * y) 32) d)

/-- A bank range that a unit reads in ascending order, up to its first marked word (R281, R283). -/
def unitRead (k : Ctl) (d : Data) (a n : Nat) : Data :=
  sailRead k d a (match badWord d a n with | some w => 32 * w - a | none => n)

/-- The rows of an ATTN_PARTIAL (R266, R267). -/
def attnRows (d : Data) (g : Nat) (x : Desc) (op : List Byte) : List (List Byte) :=
  let s := attnShape x
  let scale := fp32.decode (df x 24 0 32)
  let gr := Nat.max 1 (df x 20 0 5)
  (List.range (df x 19 0 5 * gr)).map (fun i =>
    let h := df x 18 0 4 + i / gr
    let q := (List.range s.dim).map (fun c => e4m3.decode (mfld op (df x 30 0 13 + i * s.dim + c) 1))
    let j := sByte (mfld op (df x 32 0 13 + i) 1)
    let r := (attnFrames x op).foldl (fun (acc : ARow) f =>
      let a := bankBase g + f.1
      (List.range (f.2.2 - f.2.1)).foldl (fun (acc2 : ARow) t =>
        let kv := (List.range s.dim).map (fun c => readK d s a h c (f.2.1 + t))
        let vv := (List.range s.dim).map (fun c => readV d s a h c (f.2.1 + t))
        acc2.step (score scale j q kv) (isSpar s.fmt && (kv.any Val.isNan || vv.any Val.isNan)) vv) acc) (ARow.empty s.dim)
    r.bytes (df x 16 7 1 == 1))

/-- The matrices of a GEMV or DELTA: MAT, first row, rows, and the code of ALPHA where there is one (R268, R270). -/
def matGroups (op : Nat) (x : Desc) (opnd : List Byte) : List (Nat × Nat × Nat × Option Nat) :=
  if op = 3 then [(df x 16 0 28, 0, df x 21 0 7, none)]
  else (List.range (df x 32 0 4)).map (fun i =>
    let o := df x 34 0 13 + 16 * i
    (bitsOf (mfld opnd o 4) 0 28, bitsOf (mfld opnd (o + 4) 1) 0 6, bitsOf (mfld opnd (o + 5) 1) 0 7, some (mfld opnd (o + 8) 4)))

/-- The offsets of the vectors and of their exponents in a command's operand bytes (R268). -/
def SCmd.vecOffs (c : SCmd) : Nat × Nat := c.offs.getD (df c.desc 26 0 13, df c.desc 28 0 13)

/-- The results of one group: (row, values). -/
def groupRows (d : Data) (g : Nat) (cm : SCmd) (m : Nat × Nat × Nat × Option Nat) : List (Nat × List Val) :=
  let x := cm.desc
  let f := df x 20 0 3
  let kk := df x 22 0 13
  let n := df x 24 0 11
  let col := fun c => (List.range kk).map (fun r =>
    (fmtFloat f).decode (d.rd (bankBase g + m.1 + (r * n + c) * fmtBytes f) (fmtBytes f)))
  (List.range m.2.2.1).map (fun i =>
    let r := m.2.1 + i
    let v := (List.range kk).map (fun c => e4m3.decode (mfld cm.opnd (cm.vecOffs.1 + r * kk + c) 1))
    let y := gemvRow (sByte (mfld cm.opnd (cm.vecOffs.2 + r) 1)) v col n
    (r, match m.2.2.2 with
      | some al => y.map (fun z => mul32 z (fp32.decode al))
      | none => y))

/-- Every group's rows in order, up to the first whose matrix has a marked word; from there on the rows are poisoned. -/
def gemvRows (d : Data) (g : Nat) (c : SCmd) :
    List (Nat × Nat × Nat × Option Nat) → Option Nat → List (Nat × List Val × Bool) × Option Nat
  | [], w => ([], w)
  | m :: r, w =>
    let x := c.desc
    let w1 := match w with
      | some y => some y
      | none => badWord d (bankBase g + m.1) (df x 22 0 13 * df x 24 0 11 * fmtBytes (df x 20 0 3))
    let rest := gemvRows d g c r w1
    ((if w1.isSome then (List.range m.2.2.1).map (fun i => (m.2.1 + i, [], true))
      else (groupRows d g c m).map (fun y => (y.1, y.2, false))) ++ rest.1, rest.2)

/-! ### Where results go (R272) -/

/-- Writes result bytes, or marks the place of poisoned ones. -/
def putResult (d : Data) (a n : Nat) (l : List Byte) (bad : Bool) : Data :=
  if bad then d.setPoison (markPoison d.poison a n) else d.wrBytes a l

/-- The rows that a stream receives for result bytes: cut in rows of `rb` bytes. -/
def cutRows (iss rank rb : Nat) (bad : Bool) : Nat → Nat → List Byte → List WItem
  | 0, _, _ => []
  | n + 1, r, l => .row iss r rank (l.take rb) bad :: cutRows iss rank rb bad n (r + 1) (l.drop rb)

/-- The bytes of a local partial row of a stream (R267). -/
def MStream.rowBytes (m : MStream) : Nat := 8 + (if m.pfmt then 2 else 4) * m.dim

/-- Whether a command's results go to a Merge stream (DEST_KIND, R259). -/
def SCmd.toMrg (c : SCmd) : Bool := df c.desc 60 0 1 == 1
/-- The Merge stream of DEST, as 64 × engine + stream (R259). -/
def destStream (x : Desc) : Nat := 64 * df x 48 0 4 + df x 48 4 12

/-- Sends a range of the result area to the destination of a command: a DPA, or a Merge stream in rows of its width; what is left of the rows of a stream
that has closed goes there as one, to be counted late (R272, R314). -/
def sendResult (d : Data) (c : SCmd) (l : List Byte) (n : Nat) (bad : Bool) : Data :=
  if !c.toMrg then putResult d (df c.desc 48 0 48 + c.idx * df c.desc 56 0 32) n l bad
  else
    match d.mstream (destStream c.desc) with
    | some m => d.toStream (destStream c.desc) (cutRows c.iss c.idx m.rowBytes bad m.rows 0 l)
    | none => d.toStream (destStream c.desc) (cutRows c.iss c.idx n bad 1 0 l)

/-- Sends the results of a GEMV or DELTA with FLUSH, given as (row, bytes, poisoned) with rows of `n` bytes. A stream gets each of its rows whose bytes have
all been computed; where it has closed, the rows of the command are counted late (R272, R314). -/
def sendRows (d : Data) (c : SCmd) (n : Nat) (l : List (Nat × List Byte × Bool)) : Data :=
  if !c.toMrg then
    l.foldl (fun e y => putResult e (df c.desc 48 0 48 + c.idx * df c.desc 56 0 32 + y.1 * n) n y.2.1 y.2.2) d
  else
    let s := destStream c.desc
    match d.mstream s with
    | none => d.toStream s (l.map (fun y => WItem.row c.iss y.1 c.idx y.2.1 y.2.2))
    | some m =>
      let rb := m.rowBytes
      d.toStream s ((List.range m.rows).filterMap (fun i =>
        let j := i * rb / n
        let own := (List.range ((i * rb + rb - 1) / n + 1 - j)).map (fun t => l.find? (fun y => y.1 == j + t))
        if own.any Option.isNone then none
        else
          let ys := own.filterMap id
          some (WItem.row c.iss i c.idx (((ys.flatMap (fun y => y.2.1)).drop (i * rb - j * n)).take rb) (ys.any (fun y => y.2.2)))))

/-! ### The work of a command -/

/-- GEMV and DELTA (R269, R270). -/
def doGemv (d : Data) (g : Nat) (c : SCmd) : Data × Status × Nat :=
  let x := c.desc
  let n := df x 24 0 11
  let fl := df x 0 38 1 == 1
  let r := gemvRows d g c (matGroups c.op x c.opnd) none
  let res := fun (row : Nat) => resultBase g + df x 30 0 12 + 4 * row * n
  let val := fun (e : Data) (y : Nat × List Val × Bool) =>
    if df x 20 4 1 = 1 then
      ((List.range n).zip y.2.1).map (fun z => add32 (fp32.decode (e.rd (res y.1 + 4 * z.1) 4)) z.2)
    else y.2.1
  let code := fun (l : List Val) => l.flatMap (fun z => bytesLE 4 (fp32.result z))
  let d1 :=
    if fl then sendRows d c (4 * n) (r.1.map (fun y => (y.1, code y.2.1, y.2.2)))
    else r.1.foldl (fun (e : Data) y => putResult e (res y.1) (4 * n) (code (val e y)) y.2.2) d
  match r.2 with
  | some w => (d1, badStatus d g w)
  | none => (d1, .ok, 0)

/-- SCALE_COPY (R271): values before the first marked source word are converted; the rest of the destination is marked. -/
def doScaleCopy (d : Data) (g : Nat) (c : SCmd) : Data × Status × Nat :=
  let x := c.desc
  let src := bankBase g + df x 16 0 28
  let dst := bankBase g + df x 20 0 28
  let fi := df x 28 0 3
  let fo := df x 29 0 3
  let n := df x 24 0 28 / fmtBytes fi
  let sh := sByte (df x 30 0 8)
  let w := badWord d src (df x 24 0 28)
  let good := match w with
    | some y => Nat.min n ((32 * y - src) / fmtBytes fi)
    | none => n
  let out := (List.range good).map (fun i =>
    let raw := d.rd (src + i * fmtBytes fi) (fmtBytes fi)
    let v := (fmtFloat fi).decode raw
    Staged.store ⟨v.scale sh, raw, fi == fo && sh == 0⟩ fo)
  let cf := out.foldl (fun a y => ConvFlags.plus a y.2) ⟨0, 0⟩
  let d1 := putResult d dst (good * fmtBytes fo) (out.flatMap (fun y => bytesLE (fmtBytes fo) y.1)) false
  let d2 := (d1.bump (salCnt (g % 4) 7) cf.sat).bump (salCnt (g % 4) 8) cf.nonfinite
  match w with
  | some y => (putResult d2 (dst + good * fmtBytes fo) ((n - good) * fmtBytes fo) [] true, badStatus d g y)
  | none => (d2, .ok, 0)

/-- FILL (R271). -/
def doFill (d : Data) (g : Nat) (c : SCmd) : Data :=
  d.wrBytes (bankBase g + df c.desc 16 0 28)
    ((List.replicate (df c.desc 20 0 28 / 8) (bytesLE 8 (df c.desc 24 0 64))).flatten)

/-- The words that a SCRUB finds uncorrectable: marked and not found before (R284). -/
def scrubFinds (d : Data) (g : Nat) (c : SCmd) : List Nat :=
  d.rawUe.filter (fun w => d.poison.contains w && inside (32 * w) 32 (bankBase g + df c.desc 16 0 28) (df c.desc 20 0 28))

/-- The words that a SCRUB corrects and writes back (R284). -/
def scrubFixes (d : Data) (g : Nat) (c : SCmd) : List Nat := flawed d .one (bankBase g + df c.desc 16 0 28) (df c.desc 20 0 28)

/-- SCRUB (R284): corrected words are counted and written back, words found uncorrectable hold the poison syndrome. -/
def doScrub (k : Ctl) (d0 : Data) (g : Nat) (c : SCmd) : Data × Status × Nat :=
  let fix := scrubFixes d0 g c
  let e := sailRead k d0 (bankBase g + df c.desc 16 0 28) (df c.desc 20 0 28)
  let d := { e with flaws := e.flaws.filter (fun y => !(y.2 == .one && fix.contains y.1)) }
  let ws := scrubFinds d g c
  let d1 := { d with rawUe := d.rawUe.filter (fun w => !ws.contains w) }
  match ws.foldl (fun b w => match b with | some x => some (Nat.min x w) | none => some w) none with
  | none => (d1, .ok, 0)
  | some w => (((d1.setSts (salSts (g % 4)) 0).bump (salCnt (g % 4) 5) ws.length).rasUe ws.length, .uncorrectable, (32 * w - bankBase g) / 8192)

/-- RESULT_FLUSH (R271, R272); for `sail.delta` the bytes are gathered for the OUT window, and go nowhere once it has ended. A marked word of the result area is
sent poisoned. -/
def doFlush (d : Data) (g : Nat) (c : SCmd) : Data × Status × Nat :=
  let a := resultBase g + df c.desc 16 0 12
  let n := df c.desc 18 0 13
  let l := memBytes d.mem a n
  let bad := d.bad a n
  match d.sissue c.iss with
  | some x =>
    match x.out with
    | some o =>
      if bad then (d, .poison, 0)
      else (d.onIssue c.iss (fun y => { y with got := Tab.set y.got (c.idx + o.2.2.2 - x.n) l }), .ok, 0)
    | none => (sendResult d c l n bad, if bad then .poison else .ok, 0)
  | none => (if c.offs.isSome then d else sendResult d c l n bad, if bad then .poison else .ok, 0)

/-- The rows of an ATTN_PARTIAL that fails are sent poisoned (R283, R304). -/
def poisonRows (c : SCmd) : List WItem := c.rows.map (fun r => .row c.iss r.1 r.2 [] true)

/-- What a GEMV or DELTA reads of its bank passes the in-die code, matrix by matrix up to the first with a marked word (R281). -/
def gemvRead (k : Ctl) (g : Nat) (c : SCmd) : List (Nat × Nat × Nat × Option Nat) → Data → Data
  | [], d => d
  | m :: r, d =>
    let n := df c.desc 22 0 13 * df c.desc 24 0 11 * fmtBytes (df c.desc 20 0 3)
    if (badWord d (bankBase g + m.1) n).isSome then unitRead k d (bankBase g + m.1) n else gemvRead k g c r (unitRead k d (bankBase g + m.1) n)

/-- The work of a command, done when its last stroke ends: its status and DETAIL[31:12]. -/
def perform (k : Ctl) (d0 : Data) (g : Nat) (c : SCmd) : Data × Status × Nat :=
  let d := match c.op with
    | 1 => attnRead k g c.desc (attnFrames c.desc c.opnd) d0
    | 2 => gemvRead k g c (matGroups c.op c.desc c.opnd) d0
    | 3 => gemvRead k g c (matGroups c.op c.desc c.opnd) d0
    | 4 => unitRead k d0 (bankBase g + df c.desc 16 0 28) (df c.desc 24 0 28)
    | _ => d0
  match c.op with
  | 1 =>
    let send := fun (l : List WItem) => match (d.sissue c.iss).bind (fun x => x.stream) with | some s => d.toStream s l | none => d
    match attnBad d g c.desc c.opnd with
    | some w => (send (poisonRows c), badStatus d g w)
    | none => (send ((c.rows.zip (attnRows d g c.desc c.opnd)).map (fun r => WItem.row c.iss r.1.1 r.1.2 r.2 false)), .ok, 0)
  | 2 => doGemv d g c
  | 3 => doGemv d g c
  | 4 => doScaleCopy d g c
  | 5 => (doFill d g c, .ok, 0)
  | 6 => doScrub k d g c
  | 7 => doFlush d g c
  | _ => (d, .ok, 0)

/-- The CLK_SAL cycles of bank work of a command (R288). -/
def cmdWork (d : Data) (g : Nat) (c : SCmd) : Nat :=
  let x := c.desc
  match c.op with
  | 1 =>
    let s := attnShape x
    let hc := df x 19 0 5
    let gr := df x 20 0 5
    24 + (attnFrames x c.opnd).foldl (fun n f =>
      let t := f.2.2 - f.2.1
      let b := t * hc * s.dim * 2 * s.elemBits / 8 +
        (if isSpar s.fmt then hc * s.dim * (ceilDiv f.2.2 32 - f.2.1 / 32) + t * hc * (s.dim / 32) else 0)
      n + Nat.max (ceilDiv b 32) (ceilDiv (2 * t * hc * s.dim * gr) (macRate s.fmt))) 0 +
      ceilDiv ((8 + (if df x 16 7 1 = 1 then 2 else 4) * s.dim) * gr) 32
  | 2 | 3 =>
    let kn := df x 22 0 13 * df x 24 0 11
    24 + (matGroups c.op x c.opnd).foldl (fun n m =>
      n + Nat.max (ceilDiv (kn * fmtBytes (df x 20 0 3)) 32) (ceilDiv (m.2.2.1 * kn) (macRate (df x 20 0 3)))) 0 +
      ceilDiv (4 * df x 21 0 7 * df x 24 0 11) 32 * (1 + df x 20 4 1)
  | 4 => 24 + ceilDiv (df x 24 0 28) 32 + ceilDiv (df x 24 0 28 / fmtBytes (df x 28 0 3) * fmtBytes (df x 29 0 3)) 32
  | 5 => 24 + ceilDiv (df x 20 0 28) 32
  | 6 => 24 + ceilDiv (df x 20 0 28) 32 + (scrubFinds d g c).length + (scrubFixes d g c).length
  | 7 => 24 + ceilDiv (df x 18 0 13) 32
  | _ => 40

/-! ### Completion (R264) -/

/-- Whether rows of an issue are still on their way to a stream. -/
def rowsOut (d : Data) (iss : Nat) : Bool :=
  d.mrg.wire.any (fun e => e.2.any (fun i => match i with | .row x _ _ _ _ => x == iss | .mark _ => false))

/-- The lowest index of a list of failures. -/
def lowestFail : List (Nat × Status × Nat) → Option (Nat × Status × Nat)
  | [] => none
  | x :: r =>
    match lowestFail r with
    | some y => if y.1 < x.1 then some y else some x
    | none => some x

/-- Completes an issue whose commands have finished and whose rows have arrived (R264, R304); the rows of a `sail.delta` are counted (R345). -/
def settleIssue (k : Ctl) (d : Data) (iss : Nat) : Data :=
  match d.sissue iss with
  | none => d
  | some x =>
    if x.left ≠ 0 ∨ rowsOut d iss then d
    else
      let d1 := { d with sal := { d.sal with issues := d.sal.issues.filter (fun y => y.id != iss) } }
      let d2 := if x.op = 8 then x.owed.foldl (fun (e : Data) i => e.bump (salCnt i 6) 1) d1 else d1
      match lowestFail x.res with
      | some (i, st, det) => d2.finish x.thread x.opId st (x.n - (x.res.map (fun y => y.1)).eraseDups.length) (i + det * 4096)
      | none =>
        let det := 0xFFF + x.detail * 4096
        match x.out with
        | none => d2.finish x.thread x.opId .ok x.n det
        | some (w, off, door, pb) =>
          outputs k (d2.bump (cntAddr 0x11 x.part 16) x.vecs) x.thread x.opId x.part
            [(w, k.pieces w off ((List.range pb).flatMap (fun b => Tab.getD x.got b [])), door)] .ok x.n det

/-- A command of an issue has finished with a status (R264, R292): noted in the issue. -/
def cmdNote (d : Data) (g : Nat) (c : SCmd) (st : Status) (det : Nat) : Data :=
  let d1 := d.bump (salCnt (g % 4) 0) 1
  let d2 := if st = .uncorrectable ∧ c.op ≠ 6 ∧ !(d.sunit g).lost then ((d1.setSts (salSts (g % 4)) 0).bump (salCnt (g % 4) 5) 1).rasUe 1 else d1
  d2.onIssue c.iss (fun x => { x with
    left := x.left - 1
    res := if st.good then x.res else x.res ++ [(c.idx, st, det)]
    stages := match c.op, c.need with
      | 2, none => c.idx :: x.stages
      | _, _ => x.stages })

/-- The markers that are due are sent, and the issue completes where nothing of it is left. -/
def markIssue (k : Ctl) (d : Data) (iss : Nat) : Data := settleIssue k (sendMarks d iss) iss

/-- A command has run and finished, and with it perhaps its issue; how long the controller's accesses waited for gaps of its strokes is not stated (CTRL_WAIT, R292). -/
def cmdDone (k : Ctl) (d : Data) (g : Nat) (c : SCmd) (st : Status) (det : Nat) : Data :=
  markIssue k (cmdNote (d.bumpFree (salCnt (g % 4) 3)) g c st det) c.iss

/-- A command at a unit out of service finishes at once with UNCORRECTABLE, its rows poisoned (R285, R304); one that a reset aborts sends none (R286). A
`sail.attn` still reports its partials of a row (R303). -/
def cmdRefused (d : Data) (g : Nat) (c : SCmd) (st : Status) : Data :=
  let d1 := match c.op, (d.sissue c.iss).bind (fun x => x.stream) with
    | 1, some s => if st = .aborted then d else d.toStream s (poisonRows c)
    | _, _ => d
  cmdNote d1 g c st (match d.sissue c.iss with | some x => if x.op = 1 then x.detail else 0 | none => 0)

/-- Commands that end together with a status, with their units; the markers of their issues follow the last row (R302). -/
def refuseCmds (k : Ctl) (d : Data) (l : List (Nat × SCmd)) (st : Status) : Data :=
  ((l.map (fun y => y.2.iss)).eraseDups).foldl (markIssue k) (l.foldl (fun e y => cmdRefused e y.1 y.2 st) d)

/-- A unit accepts a command into its queue and records its partition (R275). -/
def SUnit.accept (u : SUnit) (c : SCmd) : SUnit := { u with queue := u.queue ++ [c], part := some c.part }

/-- Gives commands to their units in order; a unit out of service finishes them with UNCORRECTABLE. -/
def giveCmds : List (Nat × SCmd) → Data → Data
  | [], d => d
  | (g, c) :: r, d =>
    if (d.sunit g).lost then giveCmds r (cmdRefused d g c .uncorrectable)
    else giveCmds r (d.setUnit g ((d.sunit g).accept c))

/-- The commands that stack controller `i` holds for units whose queues of 16 are full (R263), were the units of `gs` given one more each. -/
def stackHeld (d : Data) (gs : List Nat) (i : Nat) : Nat :=
  (((d.sal.units.map (fun e => e.1)) ++ gs).eraseDups.filter (fun g => g % 4 == i)).foldl
    (fun n g => n + ((d.sunit g).queue.length + (gs.filter (fun y => y == g)).length - 16)) 0

/-- An issue to units waits while its commands would bring a stack controller above 256 held, but for one whose units have empty queues
(R263; DESIGN CHOICE, log entry 192). -/
def stackFull (d : Data) (gs : List Nat) (i : Nat) : Bool :=
  decide (256 < stackHeld d gs i) && d.sal.units.any (fun e => e.1 % 4 == i && !e.2.queue.isEmpty)

/-! ### Strokes and refresh -/

/-- The refresh interval of a stack in CLK_SAL cycles, of one tick each (R278). -/
def refreshI (d : Data) (i : Nat) : Nat := if d.sal.hot.contains i then 975 else 1950
/-- The longest stroke (R276). -/
def strokeMax (k : Ctl) (d : Data) (i : Nat) : Nat :=
  let s := k.fld (0x1410040 + 0x1000 * i) 0 11
  if d.sal.hot.contains i then Nat.min s 950 else s

/-- The unit after a refresh of its bank (R277, R278). -/
def SUnit.refreshed (u : SUnit) (now i : Nat) : SUnit :=
  { u with refresh := false, due := if u.due + i ≤ now then now + i else u.due + i }

/-- A gap begins: the rows close, a refresh that is due is issued, and the rows reopen (R277). -/
def beginGap (d : Data) (g now : Nat) (u : SUnit) : Data :=
  if u.refresh || decide (u.due ≤ now) then
    (d.setUnit g { (u.refreshed now (refreshI d (g % 4))) with since := now + 96 }).bump (salCnt (g % 4) 2) 1
  else d.setUnit g { u with since := now + 16 }

/-- The operand half of a stage-B command of `sail.delta`: its vectors converted from FP32 behind the group table (R335). -/
def fillVec (d : Data) (c : SCmd) (a : Nat) : List Byte :=
  let rows := df c.desc 21 0 7
  let kk := df c.desc 22 0 13
  let vs := (List.range rows).map (fun r => toE4m3 ((List.range kk).map (fun i => fp32.decode (d.rd (a + 4 * (r * kk + i)) 4))))
  c.opnd ++ vs.flatMap (fun v => v.2.map (fun y => BitVec.ofNat 8 y)) ++ vs.map (fun v => byteOf v.1)

/-- The class of a command of a unit: that of its operation (R484). -/
def SCmd.cls (d : Data) (c : SCmd) : Nat :=
  match d.sissue c.iss with
  | some x => opCls d x.thread x.opId
  | none => 0

/-- A unit starts the next command in its queue (R261, R263), where the power cap lets its stack controller admit it (R683). -/
def execUnitCommand (unit : Nat) (s : State) : Host.Outcome State Fault Refusal :=
  onData (fun k d0 =>
    let u := d0.sunit unit
    match u.cur, u.queue with
    | none, c :: r =>
      let cap := capGrant k d0 (80 + unit % 4) (c.cls d0) c.part false
      if !k.up (unit % 4) 10 || (match c.need, d0.sissue c.iss with | some p, some x => !x.stages.contains p | _, _ => false) then d0
      else if !cap.2 then cap.1
      else
        let d := cap.1
        let other := match u.ran with | some p => p != c.part | none => false
        let d1 := if other then d.clear (resultBase unit) 4096 else d
        let d2 := (d1.bumpFree (salCnt (unit % 4) 3)).setUnit unit { u with queue := r, ran := some c.part }
        let bytes := 4 * df c.desc 21 0 7 * df c.desc 22 0 13
        match c.vec with
        | some a =>
          if d2.bad a bytes then cmdDone k d2 unit c .poison 0
          else
            let c1 := { c with opnd := fillVec d2 c a }
            d2.setUnit unit { u with
              queue := r
              ran := some c.part
              cur := some c1
              left := cmdWork d2 unit c1
              since := Nat.max u.since k.ticks + (if other then 160 else 0) }
        | none =>
          d2.setUnit unit { u with
            queue := r
            ran := some c.part
            cur := some c
            left := cmdWork d2 unit c
            since := Nat.max u.since k.ticks + (if other then 160 else 0) }
    | _, _ => d0) s

/-- A stroke ends with its command, at STROKE_MAX or at a refresh (R276), and a gap begins (R277). -/
def execStrokeEnd (unit : Nat) (s : State) : Host.Outcome State Fault Refusal :=
  onData (fun k d =>
    let u := d.sunit unit
    match u.cur with
    | none => d
    | some c =>
      if k.ticks < u.since then d
      else if u.left ≤ k.ticks - u.since then
        let r := perform k (beginGap d unit k.ticks { u with cur := none, left := 0 }) unit c
        cmdDone k r.1 unit c r.2.1 r.2.2
      else if strokeMax k d (unit % 4) ≤ k.ticks - u.since ∨ u.refresh ∨ u.due ≤ k.ticks then
        (beginGap d unit k.ticks { u with left := u.left - (k.ticks - u.since) }).bump (salCnt (unit % 4) 1) 1
      else d) s

/-- A bank's refresh falls due (R278): issued at once where the unit performs nothing, else in the next gap. -/
def execRefreshDue (unit : Nat) (s : State) : Host.Outcome State Fault Refusal :=
  onData (fun k d =>
    let u := d.sunit unit
    if 2048 ≤ unit ∨ k.ticks < u.due ∨ !k.up (unit % 4) 10 then d
    else if u.cur.isSome then d.setUnit unit { u with refresh := true }
    else
      (d.setUnit unit { (u.refreshed k.ticks (refreshI d (unit % 4))) with since := Nat.max u.since (k.ticks + 80) }).bump
        (salCnt (unit % 4) 2) 1) s

/-- A unit goes out of service (R285): its commands finish with UNCORRECTABLE. The ERROR record names their partition and the Basket of the command in
progress (R626). -/
def unitLost (k : Ctl) (d : Data) (unit source : Nat) (syn : Option Nat) : Data :=
  let u := d.sunit unit
  if 2048 ≤ unit ∨ u.lost then d
  else
    let mine := (match u.cur with | some c => [c] | none => []) ++ u.queue
    let bsk := (u.cur.bind (fun c => d.sissue c.iss)).bind (fun x => (d.op x.thread x.opId).bind (fun o => o.bsk))
    let d1 := (d.setUnit unit { u with queue := [], cur := none, left := 0, lost := true }).setSts (salSts (unit % 4)) 2
    let d2 := reportUe k d1 (locCell (unit % 4) 10 (unit / 4))
      ⟨source, 4, .uncorrectable, (match (mine.map (fun c => c.part)).eraseDups with | [p] => p | _ => 0xF), none, syn, bsk, mine.length⟩
    wmAll k (refuseCmds k d2 (mine.map (fun c => (unit, c))) .uncorrectable)

/-- A unit takes itself out of service for a parity error of its accumulator file (R285). -/
def execSailUnitLost (unit : Nat) (s : State) : Host.Outcome State Fault Refusal :=
  onData (fun k d => unitLost k d unit 0x0B none) s

/-- A block reset of a Sail stack controller, or its S1 exit (R286): queued commands complete with a status, result areas and recorded partitions are
cleared, and with `back` units out of service return. -/
def stackReset (k : Ctl) (d : Data) (i : Nat) (st : Status) (back : Bool) : Data :=
  let mine := d.sal.units.filter (fun e => e.1 % 4 == i)
  let cmds := mine.flatMap (fun e => ((match e.2.cur with | some c => [c] | none => []) ++ e.2.queue).map (fun c => (e.1, c)))
  let d1 := mine.foldl (fun (e : Data) x => e.setUnit x.1 { x.2 with
    queue := []
    cur := none
    left := 0
    part := none
    ran := none
    lost := if back then false else x.2.lost }) d
  wmAll k ((refuseCmds k d1 cmds st).clear (resultDpa i 0) 0x200000)

end Sys2Proof.Machine
end

