-- ==== Sys2Proof/Machine/Ballast.lean ====
section
/-!
DEFINITION. The Ballast tier (R370 to R397): channels, slots and the map, stripes, the single-bit buffer, folding and garbage collection, the journal, rebuild,
and the operations `bls.*`.
-/
namespace Sys2Proof.Machine

/-! ### Channels -/

/-- Dies found on a channel (R395). -/
def NandFound.dies (f : NandFound) : Nat := f.ids.length

/-- A channel with no die. -/
def fchanReset : FChan :=
  { found := ⟨[], 0, 0, 0, 0, 0, 0, 0, 0, 0⟩, lost := false, slots := [], units := [], eraseBase := 0, header := none, copy := [], log := [], copyPos := 0, diskSeq := 0,
    dead := [], seq := 0, single := none, native := none, stripes := [], nextStripe := 1, journal := [], jSince := none, marked := [], cursor := 0 }
/-- Channel `c`. -/
def Data.chan8 (d : Data) (c : Nat) : FChan := Tab.getD d.bls.chans c fchanReset
/-- Sets channel `c`. -/
def Data.setChan8 (d : Data) (c : Nat) (x : FChan) : Data := { d with bls := { d.bls with chans := Tab.put fchanReset d.bls.chans c x } }
/-- A counter of BLS_CNT of a channel (R397): 0 READ, 1 WRITE, 2 MOVED, 3 RETRIES, 4 SOFT, 5 REBUILT. -/
def blsCnt (c i : Nat) : Nat := cntAddr 0x19 c i
/-- BLS_STS (R394). -/
def blsSts : Nat := 0x1900080
/-- Whether a channel has dies. -/
def FChan.present (x : FChan) : Bool := x.found.dies != 0
/-- Whether a channel is in service (R371, R389): present, fit, and its cell in service. -/
def chanOk (k : Ctl) (d : Data) (c : Nat) : Bool :=
  (d.chan8 c).present && !(d.chan8 c).lost && !k.cells.contains (1024 * (64 * (c / 2) + 20) + c % 2)
/-- D: slots of an erase unit in native mode (R375). -/
def FChan.dSlots (x : FChan) : Nat := x.found.p * x.found.q
/-- Pages of an erase unit in a mode. -/
def FChan.pages (x : FChan) (native : Bool) : Nat := if native then x.found.p else x.found.p / Nat.max 1 x.found.bpc
/-- The die of an erase unit: unit e of die i is number i × E + e (R372). -/
def FChan.dieOf (x : FChan) (u : Nat) : Nat := u / Nat.max 1 x.found.e
/-- Erase units retired on dies not lost (R389). -/
def FChan.retired (x : FChan) : Nat := (x.units.filter (fun y => y.2.use == 4 && !x.dead.contains (x.dieOf y.1))).length
/-- Erase units of dies not lost, the retired ones apart: GOOD (R375, R389). -/
def FChan.good (x : FChan) : Nat := x.found.e * (x.found.dies - x.dead.length) - x.retired
/-- MAPEU for a number of units of the tier (R375). -/
def FChan.mapEu (x : FChan) (logical : Nat) : Nat := ceilDiv (9 * (logical / 8) * 4) (4 * Nat.max 1 (x.pages false * x.found.q * 16384))
/-- REQ (R375). -/
def FChan.req (x : FChan) (logical stripe op : Nat) : Nat :=
  ceilDiv (logical / 8 * 64) (Nat.max 1 ((64 - op) * (stripe - 1) * x.dSlots)) * stripe + x.mapEu logical + 2 * stripe
/-- The unit `u` of a channel. -/
def FChan.unit (x : FChan) (u : Nat) : FUnit := Tab.getD x.units u ⟨0, 0, 0⟩
/-- Sets a unit. -/
def FChan.setUnit (x : FChan) (u : Nat) (y : FUnit) : FChan := { x with units := Tab.put ⟨0, 0, 0⟩ x.units u y }
/-- Free erased units of die `i`. -/
def FChan.freeOn (x : FChan) (i : Nat) : Nat :=
  if x.dead.contains i then 0
  else x.found.e - (x.units.filter (fun y => x.dieOf y.1 == i && y.2.use != 0)).length
/-- F: free erased units of a channel (R382). -/
def FChan.free (x : FChan) : Nat := x.found.ids.foldl (fun n i => n + x.freeOn i) 0
/-- The erase unit of a slot. -/
def FChan.unitOf (x : FChan) (slot : Nat) : Nat := slot / Nat.max 1 x.dSlots

/-! ### The tier (R376) -/

/-- The format header of the tier: that of its lowest channel that has one. -/
def Data.header (d : Data) : Option FHeader := d.bls.chans.findSome? (fun x => x.2.header)
/-- STATE of BLS_STS. -/
def tierState (k : Ctl) (d : Data) : Nat :=
  if !d.bls.chans.any (fun x => x.2.present) || k.mapGib == 0 then 0
  else
    match d.header with
    | none => 1
    | some h => if d.bls.rebuilding then 2 else if h.readOnly then 4 else 3

/-- What the tier's state answers to reads, writes and trims (R376). -/
def tierCheck (k : Ctl) (d : Data) : Option Status :=
  match tierState k d with
  | 0 => some .cfgInvalid
  | 1 => some .cfgInvalid
  | 2 => some .domainOff
  | _ => none

/-- SPARE of a channel; at 0 or below it is exhausted. -/
def FChan.spare (x : FChan) (h : FHeader) : Nat := x.good - x.req h.logical h.stripe h.op

/-- The whole tier enters READ_ONLY (R390). -/
def tierReadOnly (d : Data) : Data :=
  { d with bls := { d.bls with chans := Tab.mapVals d.bls.chans (fun _ x => { x with
    header := x.header.map (fun h => { h with readOnly := true }) }) } }

/-- A channel that has lost an erase unit or a die brings the tier to READ_ONLY once its SPARE is 0 (R390). -/
def spareGone (d : Data) (c : Nat) : Data :=
  match (d.chan8 c).header with
  | some h => if (d.chan8 c).spare h = 0 then tierReadOnly d else d
  | none => d

/-- BLS_PRANGE of a partition: first unit and units (R393). -/
def Ctl.blsRange (k : Ctl) (p : Nat) : Nat × Nat :=
  (k.fld (0x1940040 + 0x1000 * p) 0 14 * 2 ^ 20, k.fld (0x1940040 + 0x1000 * p) 16 15 * 2 ^ 20)

/-- The DPA of the map entry of unit `n` (R374). -/
def mapAt (n : Nat) : Nat := 0x40000000 + 4 * n
/-- The slot of unit `n` on its channel, where it is mapped. -/
def mapSlot (d : Data) (n : Nat) : Option Nat :=
  let v := d.rd (mapAt n) 4
  if bitsOf v 31 1 = 1 then some (bitsOf v 0 31) else none

/-- Whether a slot of channel `c` holds the current content of a unit. -/
def slotValid (d : Data) (c : Nat) (slot : Nat) (y : FSlot) : Bool :=
  y.kind == 0 && y.lu % 8 == c && mapSlot d y.lu == some slot

/-- The valid slots of an erase unit. -/
def unitValid (d : Data) (c u : Nat) : List (Nat × FSlot) :=
  let x := d.chan8 c
  x.slots.filter (fun y => x.unitOf y.1 == u && slotValid d c y.1 y.2)

/-! ### The journal (R386) -/

/-- Records a map change of unit `n` in its channel's journal buffer. -/
def journalAdd (d : Data) (n : Nat) (slot : Option Nat) : Data :=
  let x := d.chan8 (n % 8)
  d.setChan8 (n % 8) { x with
    journal := x.journal ++ [(n / 8, slot)]
    jSince := some (x.jSince.getD d.tick) }

/-- Sets the map entry of a unit. -/
def mapSet (d : Data) (n : Nat) (slot : Option Nat) : Data :=
  journalAdd (d.wr (mapAt n) 4 (match slot with | some s => s + 2 ^ 31 | none => 0)) n slot

/-- An erase unit after its erase: one whose erase fails is retired (R389). -/
def FChan.erased (x : FChan) (u : Nat) (y : FUnit) : FUnit := if x.fails.contains u then ⟨y.erases, 4, 0⟩ else ⟨y.erases + 1, 0, 0⟩

/-- A source unit with no valid slot is erased once its moves are recorded (R384): no unit of an open stripe, and none while a native page row is open. -/
def eraseEmpty (d : Data) (c : Nat) : Data :=
  let x := d.chan8 c
  let openUnits := (match x.single with | some s => s.units | none => []) ++ (match x.native with | some s => s.units | none => [])
  let busy := match x.native with | some s => s.pos != 0 | none => false
  let done := if busy then [] else (x.units.filter (fun u =>
    (u.2.use == 1 || u.2.use == 2) && !openUnits.contains u.1 && !x.dead.contains (x.dieOf u.1) &&
      (unitValid d c u.1).isEmpty)).map (fun u => u.1)
  let d1 := d.setChan8 c { x with
    units := Tab.mapVals x.units (fun u y => if done.contains u then x.erased u y else y)
    slots := x.slots.filter (fun s => !done.contains (x.unitOf s.1))
    wear := x.wear.filter (fun s => !done.contains (x.unitOf s.1))
    fails := x.fails.filter (fun u => !done.contains u) }
  if done.any x.fails.contains then spareGone (d1.setSts blsSts 4) c else d1

/-- Map entries of a channel with the changes of a journal made (R386). -/
def replay (t : Tab Nat) (j : List (Nat × Option Nat)) : Tab Nat :=
  j.foldl (fun u e => match e.2 with | some s => Tab.set u e.1 s | none => Tab.erase u e.1) t

/-- The map of a channel that its flash holds: the map copy with every journal still needed replayed (R387). -/
def FChan.durable (x : FChan) : Tab Nat := x.log.foldl (fun t e => replay t e.1) x.copy

/-- Whether channel entry `i` is among the `n` that a flush rewrites from `pos` on, in turn over `all`. -/
def inTurn (pos n all i : Nat) : Bool := decide ((i + all - pos % Nat.max 1 all) % Nat.max 1 all < n)

/-- Flushes a channel's journal (R386): its entries are programmed, then the next ⌈4 × J / 64 KiB⌉ × 64 KiB of the map into the rotating copy; a journal since whose
flush every entry has been rewritten is needed no more. The SEQ from which the open rows go on is recorded, and the slots programmed take their SEQ (R373). -/
def flushJournal (d : Data) (c : Nat) : Data :=
  let x := d.chan8 c
  let all := match x.header with | some h => h.logical / 8 | none => 0
  let parts := ceilDiv (32 * x.journal.length) 65536
  let n := 16384 * parts
  let log := x.log ++ [(x.journal, 0)]
  let now := log.foldl (fun t e => replay t e.1) x.copy
  let seq := x.seq + ceilDiv (8 * x.journal.length) 16384 + 4 * parts
  if x.journal.isEmpty then eraseEmpty (d.setChan8 c { x with diskSeq := x.seq, jSince := none }) c
  else
    eraseEmpty (d.setChan8 c { x with
      copy := (now.filter (fun e => inTurn x.copyPos n all e.1)).foldl (fun t e => Tab.set t e.1 e.2)
        (x.copy.filter (fun e => !inTurn x.copyPos n all e.1))
      log := (log.map (fun e => (e.1, e.2 + n))).filter (fun e => decide (e.2 < all))
      copyPos := (x.copyPos + n) % Nat.max 1 all
      seq := seq
      diskSeq := seq
      journal := []
      jSince := none }) c

/-! ### Programming (R383) -/

/-- The first 48 tag bytes of a slot; the CRC follows, and then zeros (R373). -/
def FSlot.tags (y : FSlot) : List Byte :=
  bytesLE 16 (y.lu + y.part * 2 ^ 34 + y.kind * 2 ^ 38) ++ bytesLE 16 y.seq ++ bytesLE 16 (y.fid + y.keychk * 2 ^ 32)
/-- The CRC over the other 60 tag bytes. -/
def FSlot.tagCrc (y : FSlot) : Nat := crc32c (y.tags ++ bytesLE 12 0)
/-- A slot with a valid tag of the current format; any other is treated as never written (R373). -/
def FSlot.tagOk (y : FSlot) (fid : Nat) : Bool := y.crc == y.tagCrc && y.fid == fid

/-- Programs one slot, with the channel's next SEQ and the CRC of its tags. -/
def FChan.program (x : FChan) (slot : Nat) (y : FSlot) : FChan :=
  let z := { y with seq := x.seq }
  { x with slots := Tab.set x.slots slot { z with crc := z.tagCrc }, seq := x.seq + 1 }

/-- The slot of data position `pos` of page row `p` of a stripe; the parity page lies on die position p mod n. -/
def FChan.slotAt (x : FChan) (s : FStripe) (pos : Nat) : Nat :=
  let n := s.units.length
  let j := pos / Nat.max 1 x.found.q
  let die := if j < s.row % Nat.max 1 n then j else j + 1
  (s.units.getD die 0 * x.found.p + s.row) * x.found.q + pos % Nat.max 1 x.found.q

/-- The data slots of a page row. -/
def FChan.rowSlots (x : FChan) (s : FStripe) : Nat := (s.units.length - 1) * x.found.q

/-- Sets the open stripe of a mode. -/
def FChan.setOpen (x : FChan) (native : Bool) (s : Option FStripe) : FChan :=
  if native then { x with native := s } else { x with single := s }
/-- The open stripe of a mode. -/
def FChan.open_ (x : FChan) (native : Bool) : Option FStripe := if native then x.native else x.single

/-- A page row that is full is closed by its parity page; after its last row the stripe is closed. -/
def FChan.closeRow (x : FChan) (s : FStripe) : FChan :=
  let par := (s.units.getD (s.row % Nat.max 1 s.units.length) 0 * x.found.p + s.row) * x.found.q
  let y := (List.range x.found.q).foldl (fun (z : FChan) i =>
    z.program (par + i) ⟨0, 0, 1, 0, (match x.header with | some h => h.fid | none => 0), 0, [], 0⟩) x
  let s1 := { s with row := s.row + 1, pos := 0, since := none }
  y.setOpen s.native (if s1.row < x.pages s.native then some s1 else none)

/-- Writes waiting for a channel's native row go on; a write that waits for none completes with OK (R381). -/
def rowClosed (d : Data) (c : Nat) : Data :=
  let ws := d.bls.waits.map (fun w => { w with chans := w.chans.filter (fun y => y != c) })
  (ws.filter (fun w => w.chans.isEmpty)).foldl (fun e w => e.finish w.thread w.opId .ok w.count 0xFFFFFFFF)
    { d with bls := { d.bls with waits := ws.filter (fun w => !w.chans.isEmpty && d.live w.thread w.opId) } }

/-- The dies that a new stripe takes (R383): those with the most free erase units, the lower die on a tie. -/
def FChan.stripeDies (x : FChan) (stripe : Nat) : List Nat :=
  let ds := (x.found.ids.filter (fun i => decide (0 < x.freeOn i))).mergeSort (fun a b => decide (x.freeOn b ≤ x.freeOn a))
  ds.take stripe

/-- The free erase unit of die `i` with the lowest erase count. -/
def FChan.bestUnit (x : FChan) (i : Nat) : Nat :=
  let us := ((List.range x.found.e).map (fun e => i * x.found.e + e)).filter (fun u => (x.unit u).use == 0)
  match us with
  | [] => i * x.found.e
  | u :: r => r.foldl (fun b v => if (x.unit v).erases < (x.unit b).erases then v else b) u

/-- Forms a stripe of a mode, where at least two dies have a free erase unit. -/
def FChan.newStripe (x : FChan) (stripe : Nat) (native : Bool) : Option FChan :=
  let ds := x.stripeDies stripe
  if ds.length < 2 then none
  else
    let us := ds.map x.bestUnit
    let y := us.foldl (fun (z : FChan) u => z.setUnit u ⟨(z.unit u).erases, if native then 2 else 1, x.nextStripe⟩) x
    some ({ y with stripes := Tab.set y.stripes x.nextStripe us, nextStripe := x.nextStripe + 1 }.setOpen native
      (some ⟨x.nextStripe, us, native, 0, 0, none⟩))

/-- Programs a data slot in an open stripe of a mode; the row closes when it is full. -/
def putSlot (d : Data) (c : Nat) (s : FStripe) (y : FSlot) : Data × Nat :=
  let x := d.chan8 c
  let slot := x.slotAt s s.pos
  let s1 := { s with pos := s.pos + 1, since := some (s.since.getD d.tick) }
  let x1 := (x.program slot y).setOpen s.native (some s1)
  if x.rowSlots s ≤ s.pos + 1 then
    let d1 := d.setChan8 c (x1.closeRow s1)
    (if s.native then rowClosed d1 c else d1, slot)
  else (d.setChan8 c x1, slot)

/-- Fills the rest of an open page row with pad slots, which closes it (R383). -/
def padRow (d : Data) (c : Nat) (native : Bool) : Nat → Data
  | 0 => d
  | n + 1 =>
    let x := d.chan8 c
    match x.open_ native with
    | some s =>
      if s.pos = 0 then d
      else padRow (putSlot d c s ⟨0, 0, 4, 0, (match x.header with | some h => h.fid | none => 0), 0, [], 0⟩).1 c native n
    | none => d

/-- The open stripe of a mode, or a new one where a stripe can be formed. -/
def takeStripe (d : Data) (c : Nat) (h : FHeader) (native : Bool) : Option (Data × FStripe) :=
  let x := d.chan8 c
  match x.open_ native with
  | some s => some (d, s)
  | none => (x.newStripe h.stripe native).bind (fun x1 => (x1.open_ native).map (fun s => (d.setChan8 c x1, s)))

/-- The erase unit whose program fails as the next slot of a stripe is programmed, with the parity page where the row is then full (R389). -/
def FChan.failing (x : FChan) (s : FStripe) : Option Nat :=
  ([x.unitOf (x.slotAt s s.pos)] ++
    (if x.rowSlots s ≤ s.pos + 1 then [s.units.getD (s.row % Nat.max 1 s.units.length) 0] else [])).find? x.fails.contains

/-- A program failure in an open stripe (R389): the erase unit is retired, the stripe takes no more, and PROG_FAIL is set. -/
def progFail (d : Data) (c : Nat) (s : FStripe) (u : Nat) : Data :=
  let x := d.chan8 c
  spareGone ((d.setChan8 c { ((x.setUnit u { x.unit u with use := 4 }).setOpen s.native none) with
    fails := x.fails.filter (fun v => v != u) }).setSts blsSts 4) c

/-- The valid slots that a program failure affects: those of the retired erase unit, and those of the page row that is left without parity. -/
def affected (d : Data) (c : Nat) (s : FStripe) (u : Nat) : List FSlot :=
  let x := d.chan8 c
  ((x.slots.filter (fun y => slotValid d c y.1 y.2 && (x.unitOf y.1 == u ||
    (s.units.contains (x.unitOf y.1) && y.1 % Nat.max 1 x.dSlots / Nat.max 1 x.found.q == s.row)))).map (fun y => y.2))

/-- Programs a data slot in a mode; none where no stripe can be formed. Where an erase unit fails, the affected units are programmed again in a new stripe from the channel's
copy, and the slot behind them (R389). -/
def putIn (c : Nat) (h : FHeader) (native : Bool) : Nat → Data → FSlot → Option (Data × Nat)
  | 0, _, _ => none
  | fuel + 1, d, y =>
    match takeStripe d c h native with
    | none => none
    | some (d1, s) =>
      match (d1.chan8 c).failing s with
      | none => some (putSlot d1 c s y)
      | some u =>
        match (affected d1 c s u).foldl (fun (e : Option Data) z => e.bind (fun f =>
            (putIn c h native fuel f z).map (fun r => mapSet r.1 z.lu (some r.2)))) (some (progFail d1 c s u)) with
        | none => none
        | some d2 => putIn c h native fuel d2 y

/-- Enough attempts for every erase unit of a channel that fails. -/
def FChan.tries (x : FChan) : Nat := x.fails.length + 1

/-! ### Folding and garbage collection (R384) -/

/-- The closed erase unit that the next step empties: a single-bit one with the fewest valid slots, else a native one with the fewest, if it has an invalid
slot. -/
def sourceUnit (d : Data) (c : Nat) : Option Nat :=
  let x := d.chan8 c
  let openUnits := (match x.single with | some s => s.units | none => []) ++ (match x.native with | some s => s.units | none => [])
  let best := fun (l : List Nat) => match l with
    | [] => none
    | u :: r => some (r.foldl (fun b v => if (unitValid d c v).length < (unitValid d c b).length then v else b) u)
  let closed := fun (use : Nat) => (x.units.filter (fun u =>
    u.2.use == use && !openUnits.contains u.1 && !x.dead.contains (x.dieOf u.1))).map (fun u => u.1)
  match best (closed 1) with
  | some u => some u
  | none =>
    match best ((closed 2).filter (fun u => decide ((unitValid d c u).length <
        (x.slots.filter (fun s => x.unitOf s.1 == u && s.2.kind != 1)).length))) with
    | some u => some u
    | none => none

/-- Moves one valid slot into native mode, its KEYCHK unchanged (R373, R384); none where no stripe can be formed. -/
def moveSlot (d : Data) (c : Nat) (h : FHeader) (y : FSlot) : Option Data :=
  match putIn c h true (d.chan8 c).tries d y with
  | some (d1, slot) => some ((mapSet d1 y.lu (some slot)).bump (blsCnt c 2) 1)
  | none => none

/-- One step of folding or relocation: a valid slot of the source unit is moved; an empty source is erased at a journal flush. -/
def moveStep (d : Data) (c : Nat) (h : FHeader) : Option Data :=
  match sourceUnit d c with
  | none => none
  | some u =>
    match unitValid d c u with
    | s :: _ => moveSlot d c h s.2
    | [] => some (flushJournal (padRow d c true ((d.chan8 c).dSlots * 64)) c)

/-- At most `n` steps. -/
def moveSteps (c : Nat) (h : FHeader) : Nat → Data → Data
  | 0, d => d
  | n + 1, d =>
    match moveStep d c h with
    | some d1 => moveSteps c h n d1
    | none => d

/-- Steps until two dies have a free erase unit, or nothing can be freed (R383). -/
def makeRoom (c : Nat) (h : FHeader) : Nat → Data → Data
  | 0, d => d
  | n + 1, d =>
    if 2 ≤ ((d.chan8 c).stripeDies h.stripe).length then d
    else
      match moveStep d c h with
      | some d1 => makeRoom c h n d1
      | none => flushJournal (padRow d c true ((d.chan8 c).dSlots * 64)) c

/-- S_max of a channel (R382). -/
def sMax (k : Ctl) (x : FChan) (h : FHeader) : Nat :=
  if x.free ≤ 2 * h.stripe then 0
  else Nat.min (k.fld 0x1900040 0 8 * x.good / 256) ((x.free - 2 * h.stripe) / 2)

/-- The erase units of the single-bit buffer. -/
def bufferUnits (x : FChan) : Nat := (x.units.filter (fun u => u.2.use == 1)).length

/-- Whether an undirected write goes to the single-bit buffer (R382). -/
def useBuffer (k : Ctl) (x : FChan) (h : FHeader) : Bool := x.single.isSome || decide (bufferUnits x < sMax k x h)

/-- Programs one unit for a write (R382 to R384): the data after the write, and whether it went to native mode; none in READ_ONLY. -/
def writeUnit (k : Ctl) (d : Data) (n p : Nat) (direct : Bool) (data : List Byte) (h : FHeader) : Option (Data × Bool) :=
  let c := n % 8
  let y : FSlot := ⟨n, p, 0, 0, h.fid, Config.keyChk (Tab.getD k.sec.blsKeys p 0) n p, data, 0⟩
  let d1 := if (d.chan8 c).free < 4 * h.stripe then moveSteps c h (1 + ceilDiv (64 - h.op) (Nat.max 1 h.op)) d else d
  let buf := !direct && useBuffer k (d1.chan8 c) h
  let d2 := if ((d1.chan8 c).open_ (!buf)).isSome then d1 else makeRoom c h ((d1.chan8 c).slots.length + 2 * (d1.chan8 c).units.length + 2) d1
  match putIn c h (!buf) (d2.chan8 c).tries d2 y with
  | some (d3, slot) => some ((mapSet d3 n (some slot)).bump (blsCnt c 1) 1, !buf)
  | none => none

/-! ### Reading (R388) -/

/-- What the codewords of a slot have come to. -/
def FChan.wearOf (x : FChan) (slot : Nat) : FWear := Tab.getD x.wear slot ⟨0, 0, false⟩

/-- Whether a slot is rebuilt from its page row (R388, R389): every other page of the row is readable, its die there and its erase unit still of the stripe. -/
def FChan.rebuilds (x : FChan) (slot : Nat) : Bool :=
  let u := x.unitOf slot
  let row := slot % Nat.max 1 x.dSlots / Nat.max 1 x.found.q
  (Tab.getD x.stripes (x.unit u).stripe []).all (fun v => v == u ||
    (!x.dead.contains (x.dieOf v) && (x.unit v).stripe == (x.unit u).stripe &&
      (List.range x.found.q).all (fun i => !(x.wearOf (v * x.dSlots + row * x.found.q + i)).dead)))

/-- Reads a slot for unit `n`: its content where it can be recovered, after the retries, the soft decoding and the rebuild that it needed, which are counted; one that
needed soft decoding or a rebuild is marked for relocation (R388). -/
def readSlot (d : Data) (c n slot : Nat) (y : FSlot) : Data × Option (List Byte) :=
  let x := d.chan8 c
  let w := x.wearOf slot
  let there := !x.dead.contains (x.dieOf (x.unitOf slot))
  let fine := there && !w.dead && y.lu == n && y.tagOk (match x.header with | some h => h.fid | none => 0)
  let d1 := if there then (d.bump (blsCnt c 3) w.retry).bump (blsCnt c 4) w.soft else d
  let d2 := if fine then d1 else if x.rebuilds slot then d1.bump (blsCnt c 5) 1 else d1
  let d3 := if (fine && w.soft == 0) || x.marked.contains n then d2
    else d2.setChan8 c { d2.chan8 c with marked := (d2.chan8 c).marked ++ [n] }
  if fine || (x.rebuilds slot && y.lu == n) then (d3, some y.data) else (d1, none)

/-- Reads a unit: its content, or none where it is UNCORRECTABLE (R373, R379, R388, R389). -/
def readUnit (k : Ctl) (d : Data) (n : Nat) : Data × Option (List Byte) :=
  let c := n % 8
  if !chanOk k d c then (d, none)
  else
    match mapSlot d n with
    | none => (d, some (List.replicate 16384 0#8))
    | some slot =>
      match Tab.get? (d.chan8 c).slots slot with
      | none => (d, none)
      | some y =>
        if y.kind != 0 || y.keychk != Config.keyChk (Tab.getD k.sec.blsKeys y.part 0) n y.part || !Tab.has k.sec.blsKeys y.part then (d, none)
        else readSlot d c n slot y

/-! ### Operations -/

/-- The channels in reset of the units of an operation (R379); in S1 the whole tier is off (R376). -/
def blsOff (k : Ctl) (lu n : Nat) : Option Status :=
  failIf ((List.range (Nat.min n 8)).any (fun i => !k.up ((lu + i) % 8 / 2) 20) || (List.range 4).all (fun r => !k.up r 20)) .domainOff

/-- The checks of R379 in the order of R81. -/
def blsChecks (k : Ctl) (d : Data) (th : Thread) (x : Desc) (trim dirOk : Bool) : List (Option Status) :=
  let n := df x 16 0 17
  [failIf (!descOk x ([(8, 0, 36), (16, 0, 17)] ++ (if trim then [] else [(0, 0, 48)]) ++ (if dirOk then [(20, 0, 1)] else [])) ||
      decide (65536 < n) || (!trim && df x 0 0 48 % 4096 != 0)) .badDesc,
   if trim || n == 0 then none
   else match k.tierOf (df x 0 0 48) (16384 * n) with
     | .unmapped => some .badDesc
     | .sail => some .badDesc
     | .aperture => if dirOk then some .badDesc else none
     | _ => none,
   failIf (decide ((k.blsRange th.part).2 < df x 8 0 36 + n)) .perm,
   if trim || n == 0 then none else k.dpaCheck th.part (df x 0 0 48) (16384 * n) false,
   tierCheck k d, blsOff k ((k.blsRange th.part).1 + df x 8 0 36) n, failIf (n == 0) .okEmpty]

/-- An operation on units whose check fails has no failed unit: DETAIL reads 0xFFFF_FFFF (R378). -/
def blsChecked (d : Data) (t id : Nat) (l : List (Option Status)) (f : Data) : Data :=
  match firstOf l with
  | some st => d.finish t id st 0 0xFFFFFFFF
  | none => f

/-- Reads units in order up to the first that cannot be recovered: the units done. -/
def readUnits (k : Ctl) (lu dpa : Nat) : Nat → Nat → Data → Data × Nat
  | 0, i, d => (d, i)
  | n + 1, i, d =>
    match readUnit k d (lu + i) with
    | (d1, none) => (d1.setSts blsSts 3, i)
    | (d1, some l) => readUnits k lu dpa n (i + 1) ((d1.wrBytes (dpa + 16384 * i) l).bump (blsCnt ((lu + i) % 8) 0) 1)

/-- `bls.read` (R378 to R380). An empty Ballast bucket of the partition leaves it to be started later (R493). -/
def runBlsRead : EngRun := engRun (fun k d t id th o =>
  let x := o.desc
  let n := df x 16 0 17
  blsChecked d t id (blsChecks k d th x false false)
    (if !Data.mayGrant k d th.part 3 then d
     else
       let r := readUnits k ((k.blsRange th.part).1 + df x 8 0 36) (df x 0 0 48) n 0 (Data.charge k d th.part 3 (16384 * n))
       if r.2 = n then r.1.finish t id .ok n 0xFFFFFFFF else r.1.finish t id .uncorrectable r.2 r.2))

/-- Writes units in order: the units done, why it stopped, and the channels with an open native row. -/
def writeUnits (k : Ctl) (p lu dpa : Nat) (direct : Bool) : Nat → Nat → Data → List Nat → Data × Nat × Option Status × List Nat
  | 0, i, d, cs => (d, i, none, cs)
  | n + 1, i, d, cs =>
    match d.header with
    | none => (d, i, some .cfgInvalid, cs)
    | some h =>
      let c := (lu + i) % 8
      if h.readOnly then (d, i, some .readOnly, cs)
      else if d.bad (dpa + 16384 * i) 16384 then (d, i, some .poison, cs)
      else if !chanOk k d c then (d, i, some .uncorrectable, cs)
      else
        match writeUnit k d (lu + i) p direct (memBytes d.mem (dpa + 16384 * i) 16384) h with
        | none => (tierReadOnly d, i, some .readOnly, cs)
        | some (d1, nat) =>
          let openRow := match (d1.chan8 c).native with | some s => s.pos != 0 | none => false
          writeUnits k p lu dpa direct n (i + 1) d1
            (if openRow && nat then (if cs.contains c then cs else c :: cs) else if nat then cs.filter (fun y => y != c) else cs)

/-- `bls.write` (R381 to R384): a write with units in an open native page row completes when the row is closed. -/
def runBlsWrite : EngRun := engRun (fun k d t id th o =>
  let x := o.desc
  let n := df x 16 0 17
  blsChecked d t id (blsChecks k d th x false true ++ [failIf (tierState k d == 4) .readOnly])
    (if !Data.mayGrant k d th.part 3 then d
     else
       let moved := fun (e : Data) => (List.range 8).foldl (fun s c => s + e.cntVal (blsCnt c 2)) 0
       let r := writeUnits k th.part ((k.blsRange th.part).1 + df x 8 0 36) (df x 0 0 48) (df x 20 0 1 == 1) n 0 d []
       let d1 := Data.charge k r.1 th.part 3 (16384 * (r.2.1 + (moved r.1 - moved d)))
       match r.2.2.1 with
       | some st => d1.finish t id st r.2.1 r.2.1
       | none =>
         if r.2.2.2.isEmpty then d1.finish t id .ok n 0xFFFFFFFF
         else { (d1.start t id) with bls := { d1.bls with waits := d1.bls.waits ++ [⟨t, id, n, r.2.2.2⟩] } }))

/-- `bls.trim` (R381). -/
def runBlsTrim : EngRun := engRun (fun k d t id th o =>
  let n := df o.desc 16 0 17
  let lu := (k.blsRange th.part).1 + df o.desc 8 0 36
  blsChecked d t id (blsChecks k d th o.desc true false ++ [failIf (tierState k d == 4) .readOnly])
    (((List.range n).foldl (fun e i => if (mapSlot e (lu + i)).isSome then mapSet e (lu + i) none else e) d).finish t id .ok n 0xFFFFFFFF))

/-- `bls.flush` (R381). -/
def runBlsFlush : EngRun := engRun (fun k d t id _ o =>
  checked d t id [failIf (o.desc != 0#512) .badDesc, tierCheck k d, blsOff k 0 8]
    (((List.range 8).foldl flushJournal d).finish t id .ok 0 0xFFFFFFFF))

/-- The erase units of a channel's dies not lost. -/
def FChan.allUnits (x : FChan) : List Nat :=
  (x.found.ids.filter (fun i => !x.dead.contains i)).flatMap (fun i => (List.range x.found.e).map (fun e => i * x.found.e + e))

/-- The erase units of a channel when every one has been erased (R377): those whose erase fails are retired, as those retired before stay; the map region takes the lowest
of the others. -/
def FChan.formatted (x : FChan) (lg : Nat) : Tab FUnit :=
  let gone := fun (u : Nat) => x.fails.contains u || (x.unit u).use == 4
  (((x.allUnits.filter (fun u => !gone u)).take (x.mapEu lg)).foldl (fun t u => Tab.set t u ⟨(Tab.getD t u ⟨0, 0, 0⟩).erases, 3, 0⟩)
    (x.fails.foldl (fun t u => Tab.set t u ⟨(x.unit u).erases, 4, 0⟩)
      (Tab.mapVals x.units (fun _ z => if z.use = 4 then z else ⟨z.erases, 0, 0⟩))))

/-- `bls.format` (R377). The map region takes the lowest good erase units (R375), and the header is the channel's first slot. A write that waits for its page row has its units programmed before
it, and completes. -/
def runBlsFormat : EngRun := engRun (fun k d t id th o =>
  let x := o.desc
  let lg := df x 0 0 34
  let st := df x 8 0 6
  let op := df x 9 0 6
  let chans := d.bls.chans.filter (fun y => y.2.present && !y.2.lost)
  checked d t id
    [failIf (!descOk x [(0, 0, 34), (8, 0, 6), (9, 0, 6)] || lg == 0 || lg % 8 != 0 || decide (st < 8) || decide (32 < st) || decide (op < 4) ||
        decide (32 < op)) .badDesc,
     failIf (th.part != 0) .perm,
     (match tierState k d with | 0 => some .cfgInvalid | 2 => some .domainOff | _ => none), blsOff k 0 8,
     failIf (decide (k.mapGib * 2 ^ 28 < lg)) .badDesc,
     failIf (chans.any (fun y => decide (y.2.found.dies - y.2.dead.length < st) || decide (y.2.good < y.2.req lg st op + st))) .noSpace]
    (let h : FHeader := ⟨d.bls.nextFid, lg, st, op, false⟩
     let d1 := { d with bls := { d.bls with
       nextFid := d.bls.nextFid + 1
       waits := []
       chans := Tab.mapVals d.bls.chans (fun _ y =>
         if y.present && !y.lost then
           { y with
             slots := []
             units := y.formatted lg
             wear := []
             fails := []
             eraseBase := y.eraseBase + 1
             header := some h
             copy := []
             log := []
             copyPos := 0
             diskSeq := 1
             seq := 1
             single := none
             native := none
             stripes := []
             nextStripe := 1
             journal := []
             jSince := none
             marked := []
             cursor := 0 }
         else { y with header := none }) } }
     let d2 := if chans.any (fun y => !y.2.fails.isEmpty) then (List.range 8).foldl spareGone (d1.setSts blsSts 4) else d1
     d.bls.waits.foldl (fun e w => e.finish w.thread w.opId .ok w.count 0xFFFFFFFF) ((d2.clear 0x40000000 (4 * lg)).finish t id .ok 0 0xFFFFFFFF)))

/-! ### Maintenance (R391) -/

/-- Relocates the valid slots of a list while the budget lasts. -/
def relocate (c : Nat) (h : FHeader) : List FSlot → Data → Nat → Data × Nat
  | [], d, b => (d, b)
  | y :: r, d, b =>
    if b = 0 then (d, 0)
    else
      match moveSlot d c h y with
      | some d1 => relocate c h r d1 (b - 1)
      | none => (d, b)

/-- GC: steps until the channel holds 8 × STRIPE free erase units. -/
def maintGc (c : Nat) (h : FHeader) : Nat → Nat → Data → Data × Nat
  | 0, b, d => (d, b)
  | fuel + 1, b, d =>
    if b = 0 ∨ 8 * h.stripe ≤ (d.chan8 c).free then (d, b)
    else
      match sourceUnit d c with
      | none => (d, b)
      | some u =>
        let empty := (unitValid d c u).isEmpty
        match moveStep d c h with
        | some d1 => maintGc c h fuel (if empty then b else b - 1) d1
        | none => (d, b)

/-- WL: the data of the erase unit with the lowest erase count moves where the spread exceeds WL_DELTA. -/
def maintWl (k : Ctl) (c : Nat) (h : FHeader) (d : Data) (b : Nat) : Data × Nat :=
  let x := d.chan8 c
  let us := x.allUnits.filter (fun u => (x.unit u).use != 4)
  let top := us.foldl (fun n u => Nat.max n (x.unit u).erases) 0
  match us with
  | [] => (d, b)
  | u :: r =>
    let low := r.foldl (fun m v => if (x.unit v).erases < (x.unit m).erases then v else m) u
    if top ≤ (x.unit low).erases + k.fld 0x1900040 8 12 then (d, b) else relocate c h ((unitValid d c low).map (fun y => y.2)) d b

/-- PATROL: reads slots from the cursor on and relocates marked units, none in READ_ONLY (R388, R390, R391). -/
def maintPatrol (c : Nat) (h : FHeader) : Nat → Data → Nat → Data × Nat
  | 0, d, b => (d, b)
  | n + 1, d, b =>
    let x := d.chan8 c
    if b = 0 then (d, 0)
    else
      match x.slots.find? (fun s => decide (x.cursor ≤ s.1)) with
      | none => (d.setChan8 c { x with cursor := 0 }, b)
      | some s =>
        let d0 := d.setChan8 c { x with cursor := s.1 + 1 }
        let d1 := if slotValid d c s.1 s.2 then (readSlot d0 c s.2.lu s.1 s.2).1 else d0
        let y := d1.chan8 c
        if y.marked.contains s.2.lu && slotValid d1 c s.1 s.2 && !h.readOnly && decide (2 ≤ b) then
          match moveSlot d1 c h s.2 with
          | some d2 =>
            maintPatrol c h n (d2.setChan8 c { d2.chan8 c with marked := (d2.chan8 c).marked.filter (fun y => y != s.2.lu) }) (b - 2)
          | none => maintPatrol c h n d1 (b - 1)
        else maintPatrol c h n d1 (b - 1)

/-- REBUILD: every valid slot of a stripe that a lost die belonged to is relocated. -/
def maintRebuild (c : Nat) (h : FHeader) (d : Data) (b : Nat) : Data × Nat :=
  let x := d.chan8 c
  let hit := fun (u : Nat) => (Tab.getD x.stripes (x.unit u).stripe []).any (fun v => x.dead.contains (x.dieOf v))
  relocate c h ((x.slots.filter (fun s => slotValid d c s.1 s.2 && hit (x.unitOf s.1) && (!x.dead.contains (x.dieOf (x.unitOf s.1)) || x.rebuilds s.1))).map (fun s => s.2)) d b

/-- `bls.maint` (R391). -/
def runBlsMaint : EngRun := engRun (fun k d t id th o =>
  let x := o.desc
  let kind := df x 0 0 2
  let b := df x 4 0 32
  checked d t id
    [failIf (!descOk x [(0, 0, 2), (1, 0, 8), (4, 0, 32)]) .badDesc, failIf (th.part != 0) .perm, tierCheck k d,
     failIf (tierState k d == 4 && kind != 2 && b != 0) .readOnly]
    (match d.header with
     | none => d.finish t id .cfgInvalid 0 0
     | some h =>
       let r := (List.range 8).foldl (fun (acc : Data × Nat) c =>
         if bitsOf (df x 1 0 8) c 1 = 0 ∨ !chanOk k acc.1 c ∨ !k.up (c / 2) 20 then acc
         else
           match kind with
           | 0 => maintGc c h ((acc.1.chan8 c).slots.length + 2 * (acc.1.chan8 c).units.length + 2) acc.2 acc.1
           | 1 => maintWl k c h acc.1 acc.2
           | 2 => maintPatrol c h (acc.1.chan8 c).slots.length acc.1 acc.2
           | _ => maintRebuild c h acc.1 acc.2) (d, b)
       r.1.finish t id .ok (b - r.2) 0xFFFFFFFF))

/-- A Ballast row acts on the KIND of its descriptor only. -/
def issueMaint (kind t : Nat) (p : BitVec 2) (ts : BitVec 5) (ds : BitVec 4) (k : Ctl) (d : Data) : Data :=
  match d.thr t with
  | some th => if df (th.dReg ds.toNat) 0 0 2 = kind ∨ !th.pReg p.toNat then issue 8 5 noBsk runBlsMaint t p ts ds k d else d
  | none => d

/-- `bls.read`: the issue. -/
def execBlsRead (t : Nat) (p : BitVec 2) (ts : BitVec 5) (ds : BitVec 4) (s : State) : Host.Outcome State Fault Refusal :=
  onData (issue 8 0 noBsk runBlsRead t p ts ds) s
/-- `bls.write`: the issue. -/
def execBlsWrite (t : Nat) (p : BitVec 2) (ts : BitVec 5) (ds : BitVec 4) (s : State) : Host.Outcome State Fault Refusal :=
  onData (issue 8 1 noBsk runBlsWrite t p ts ds) s
/-- `bls.trim`: the issue. -/
def execBlsTrim (t : Nat) (p : BitVec 2) (ts : BitVec 5) (ds : BitVec 4) (s : State) : Host.Outcome State Fault Refusal :=
  onData (issue 8 2 noBsk runBlsTrim t p ts ds) s
/-- `bls.flush`: the issue. -/
def execBlsFlush (t : Nat) (p : BitVec 2) (ts : BitVec 5) (ds : BitVec 4) (s : State) : Host.Outcome State Fault Refusal :=
  onData (issue 8 3 noBsk runBlsFlush t p ts ds) s
/-- `bls.format`: the issue. -/
def execBlsFormat (t : Nat) (p : BitVec 2) (ts : BitVec 5) (ds : BitVec 4) (s : State) : Host.Outcome State Fault Refusal :=
  onData (issue 8 4 noBsk runBlsFormat t p ts ds) s
/-- `bls.maint` of KIND GC: the issue. -/
def execBlsMaintGc (t : Nat) (p : BitVec 2) (ts : BitVec 5) (ds : BitVec 4) (s : State) : Host.Outcome State Fault Refusal :=
  onData (issueMaint 0 t p ts ds) s
/-- `bls.maint` of KIND WL: the issue. -/
def execBlsMaintWl (t : Nat) (p : BitVec 2) (ts : BitVec 5) (ds : BitVec 4) (s : State) : Host.Outcome State Fault Refusal :=
  onData (issueMaint 1 t p ts ds) s
/-- `bls.maint` of KIND PATROL: the issue. -/
def execBlsMaintPatrol (t : Nat) (p : BitVec 2) (ts : BitVec 5) (ds : BitVec 4) (s : State) : Host.Outcome State Fault Refusal :=
  onData (issueMaint 2 t p ts ds) s
/-- `bls.maint` of KIND REBUILD: the issue. -/
def execBlsMaintRebuild (t : Nat) (p : BitVec 2) (ts : BitVec 5) (ds : BitVec 4) (s : State) : Host.Outcome State Fault Refusal :=
  onData (issueMaint 3 t p ts ds) s

/-! ### Events of the channels -/

/-- A channel flushes its journal when it holds 4 MiB of entries, or 50 ms after the first (R386). -/
def execJournalFlush (chan : Nat) (s : State) : Host.Outcome State Fault Refusal :=
  onData (fun k d =>
    let x := d.chan8 chan
    match x.jSince with
    | none => d
    | some t => if 524288 ≤ x.journal.length ∨ t + usTicks 50000 ≤ k.ticks then flushJournal d chan else d) s

/-- A page row still open 50 ms after its first program is closed with pad slots (R383). -/
def execOpenRowPad (chan : Nat) (native : Bool) (s : State) : Host.Outcome State Fault Refusal :=
  onData (fun k d =>
    match ((d.chan8 chan).open_ native).bind (fun s => s.since) with
    | none => d
    | some t => if t + usTicks 50000 ≤ k.ticks then padRow d chan native ((d.chan8 chan).dSlots * 64) else d) s

/-- A die stops responding (R389): its erase units are no longer good; with no spare left the tier enters READ_ONLY (R390). -/
def execDieLost (chan die : Nat) (s : State) : Host.Outcome State Fault Refusal :=
  onData (fun _ d =>
    let x := d.chan8 chan
    if !x.found.ids.contains die ∨ x.dead.contains die then d
    else spareGone ((d.setChan8 chan { x with dead := x.dead ++ [die] }).setSts blsSts 5) chan) s

/-- The map of one channel loaded and rebuilt (R387): the map copy, the journals replayed, then every data slot programmed since the last flush, the highest SEQ of a unit
last; open rows are closed and the journal is flushed. -/
def rebuildChan (d : Data) (c : Nat) : Data :=
  let x := d.chan8 c
  match x.header with
  | none => d
  | some h =>
    let fresh := (x.slots.filter (fun s => s.2.kind == 0 && s.2.tagOk h.fid && !(x.wearOf s.1).dead && decide (x.diskSeq ≤ s.2.seq))).mergeSort
      (fun a b => decide (a.2.seq ≤ b.2.seq))
    let top := x.slots.foldl (fun n s => Nat.max n (s.2.seq + 1)) x.diskSeq
    let d1 := d.setChan8 c { x with seq := top, journal := [], jSince := none }
    let d2 := x.durable.foldl (fun e s => e.wr (mapAt (8 * s.1 + c)) 4 (s.2 + 2 ^ 31)) d1
    let d3 := fresh.foldl (fun e s => mapSet e s.2.lu (some s.1)) d2
    flushJournal (padRow (padRow d3 c true (x.dSlots * 64)) c false (x.dSlots * 64)) c

/-- The rebuild after a reset (R387): every channel's map; the tier is then READY, or READ_ONLY. -/
def execBallastRebuild (s : State) : Host.Outcome State Fault Refusal :=
  onData (fun _ d =>
    if !d.bls.rebuilding then d
    else
      let lg := match d.header with | some h => h.logical | none => 0
      let d1 := (List.range 8).foldl rebuildChan (d.clear 0x40000000 (4 * lg))
      { d1 with bls := { d1.bls with rebuilding := false } }) s

end Sys2Proof.Machine
end

