-- ==== Sys2Proof/Machine/Bridle.lean ====
section
/-!
DEFINITION. The Bridle ports (chapter 18): what an accelerator's write into a window aperture does, credit words and grants, configuration requests, PTM, CXL lines, and
the loss and return of a half's link.
-/
namespace Sys2Proof.Machine

/-- BDL_PCFG of a half (R527): MODE, 0 OFF, 1 ROOT, 2 ENDPOINT. Halves are numbered 2r + h. -/
def Ctl.halfMode (k : Ctl) (h : Nat) : Nat := k.fld (0x1F10040 + 0x1000 * (h / 2)) (if h % 2 = 0 then 1 else 4) 2
/-- Whether an endpoint half runs CXL. -/
def Ctl.halfCxl (k : Ctl) (h : Nat) : Bool := k.fld (0x1F10040 + 0x1000 * (h / 2)) (if h % 2 = 0 then 3 else 6) 1 == 1
/-- BIFURCATE of a port. -/
def Ctl.bifurcated (k : Ctl) (r : Nat) : Bool := k.fld (0x1F10040 + 0x1000 * r) 0 1 == 1
/-- MAXGEN of a port. -/
def Ctl.maxGen (k : Ctl) (r : Nat) : Nat := k.fld (0x1F10040 + 0x1000 * r) 7 3
/-- BDL_STS of a port (R533). -/
def bdlSts (r : Nat) : Nat := 0x1F10180 + 0x1000 * r
/-- A counter of BDL_CNT of a half (R534): 0 IN_BYTES, 1 OUT_BYTES, 2 CREDIT_VIOL, 3 UNMAPPED, 4 POISON_IN, 5 GRANT_WAIT, 6 LINK_DOWN, 7 CXL_LINES. -/
def bdlCnt (h i : Nat) : Nat := cntAddr 0x1F h i
/-- A half that is in L0 on a port in service. -/
def halfUp (k : Ctl) (d : Data) (h : Nat) : Bool := decide (h < 8) && (d.half h).up && k.up (h / 2) 16

/-! ### The aperture -/

/-- A write discarded as unmapped (R516). -/
def apUnmapped (d : Data) (h : Nat) : Data := (d.setSts (bdlSts (h / 2)) 5).bump (bdlCnt h 3) 1
/-- A write or PROD write beyond the credit (R516, R517). -/
def apCredit (d : Data) (h : Nat) : Data := (d.setSts (bdlSts (h / 2)) 4).bump (bdlCnt h 2) 1
/-- The IN window of a half in whose slot area a write lies whole (R516). -/
def Ctl.apWindow (k : Ctl) (h off n : Nat) : Option Nat :=
  (List.range 1024).find? (fun w =>
    k.winOn w && !k.winOut w && k.winHalf w == h && inside off n (k.winApoff w) (k.winSlots w * k.winSlotBytes w))
/-- Whether slot `s` of an IN window is the accelerator's (R517): no count from RELEASED to PROD − 1 has it. -/
def Win.accOwns (x : Win) (slots s : Nat) : Bool :=
  !(List.range (x.prod - x.rel)).any (fun i => (x.rel + i) % Nat.max 1 slots == s)

/-- A write into slots (R516). -/
def slotWrite (k : Ctl) (d : Data) (h w off : Nat) (l : List Byte) (ep : Bool) : Data :=
  let o := off - k.winApoff w
  let sb := Nat.max 1 (k.winSlotBytes w)
  let first := o / sb
  let last := (o + l.length - 1) / sb
  if !(List.range (last + 1 - first)).all (fun i => (d.win w).accOwns (k.winSlots w) (first + i)) then apCredit d h
  else
    let d1 := (d.wrBytes (k.winAddr w + o) l).bump (bdlCnt h 0) l.length
    if ep then d1.setPoison (markPoison d1.poison (k.winAddr w + o) l.length) else d1

/-- A PROD write of value `v` (R517). -/
def prodWrite (k : Ctl) (d : Data) (h w v : Nat) : Data :=
  let x := d.win w
  let adv := (v + 2 ^ 32 - x.prod % 2 ^ 32) % 2 ^ 32
  if (x.rel + k.winSlots w + 2 ^ 32 - x.prod % 2 ^ 32) % 2 ^ 32 < adv then apCredit d h
  else
    ((d.setWin w { x with prod := x.prod + adv, times := x.times ++ List.replicate adv d.tick }).bump (bdlCnt h 0) 4).setFlag ((k.frange (k.winPart w)).1 + k.fld (wdef w 0) 44 16)
      (BitVec.ofNat 64 (v % 2 ^ 32))

/-- A GRANT or RECLAIM of slot `s` (R520); a slot that the window does not have is granted to nobody. -/
def grantWrite (k : Ctl) (d : Data) (h w s : Nat) (give : Bool) : Data :=
  let x := d.win w
  let d1 := d.bump (bdlCnt h 0) 4
  if k.winSlots w ≤ s then d1
  else if give then
    pumpOut k (d1.setWin w { x with grants := if x.grants.contains s then x.grants else x.grants ++ [s] }) (fun _ => true)
  else d1.setWin w { x with grants := x.grants.filter (fun g => g != s) }

/-- The fields of a control block, as byte offset (R516): PROD, GRANT, RECLAIM. -/
def ctlField (o n : Nat) : Option Nat :=
  [0, 8, 12].find? (fun f => inside o n f 4)

/-- A write into the control block of a window (R516): `f` is the byte offset of the field. -/
def controlWrite (k : Ctl) (d : Data) (h w f v : Nat) : Data :=
  if !k.winOn w || k.winHalf w != h || (k.winOut w == (f == 0)) then apUnmapped d h
  else if f = 0 then prodWrite k d h w v
  else grantWrite k d h w v (f == 8)

/-- A write of an accelerator into the aperture of a half, judged whole (R516). In S1 every such write is discarded as unmapped (R677). One that begins beyond the 64 GiB
of the aperture receives Unsupported Request (R513). -/
def apertureWrite (k : Ctl) (d : Data) (h off : Nat) (l : List Byte) (ep : Bool) : Data :=
  if !halfUp k d h || l.isEmpty || decide (2 ^ 36 ≤ off) then d
  else
    let d0 := if ep then (d.setSts (bdlSts (h / 2)) 6).bump (bdlCnt h 4) 1 else d
    if k.pwr.state ≠ .run then apUnmapped d0 h
    else
      match k.apWindow h off l.length with
      | some w => slotWrite k d0 h w off l ep
      | none =>
        match (if off < 65536 then ctlField (off % 64) l.length else none) with
        | none => apUnmapped d0 h
        | some f =>
          let old := if f = 0 then (d0.win (off / 64)).prod % 2 ^ 32 else 0
          let v := (setBits (BitVec.ofNat 32 old) (8 * (off % 64 - f)) (8 * l.length) (ofBytesLE l)).toNat
          controlWrite k d0 h (off / 64) f v

/-- An accelerator writes bytes at an offset of the aperture of half 2r + h. -/
def execSlotDataWrite (half off : Nat) (data : List Byte) (ep : Bool) (s : State) : Host.Outcome State Fault Refusal :=
  onData (fun k d => apertureWrite k d half off data ep) s

/-- An accelerator writes PROD of a window. -/
def execProd (half win : Nat) (value : BitVec 32) (s : State) : Host.Outcome State Fault Refusal :=
  onData (fun k d => apertureWrite k d half (64 * (win % 1024)) (bytesLE 4 value.toNat) false) s

/-- An accelerator grants an OUT slot. -/
def execGrant (half win : Nat) (slot : BitVec 32) (s : State) : Host.Outcome State Fault Refusal :=
  onData (fun k d => apertureWrite k d half (64 * (win % 1024) + 8) (bytesLE 4 slot.toNat) false) s

/-- An accelerator reclaims an OUT slot. -/
def execReclaim (half win : Nat) (slot : BitVec 32) (s : State) : Host.Outcome State Fault Refusal :=
  onData (fun k d => apertureWrite k d half (64 * (win % 1024) + 12) (bytesLE 4 slot.toNat) false) s

/-- An output that has waited GRANT_TMO in total (R520): its operation completes with TIMEOUT, the pieces before the wait written; that of a Merge stream is counted (R319, R320). -/
def execGrantTmo (t op : Nat) (s : State) : Host.Outcome State Fault Refusal :=
  onData (fun k d =>
    match d.bdl.jobs.find? (fun j => j.thread == t && j.opId == op) with
    | none => d
    | some j =>
      match j.since, j.dests with
      | some b, (w, _, _) :: _ =>
        let waited := j.waited + (k.ticks - b)
        if waited < k.grantTmo (k.winHalf w / 2) then d
        else
          let d1 := d.bump (bdlCnt (k.winHalf w) 5) (2 * waited)
          let d2 := match d.op t op with | some o => if o.eng = 3 then streamLate d1 (df o.desc 0 0 4) else d1 | none => d1
          abortList k d2 [(t, op)] .timeout
      | _, _ => d) s

/-- The credit word of a window is written to CREDIT_ADDR (R519), unless the partition's Bridle regulator is empty. -/
def execCreditWordWrite (win : Nat) (s : State) : Host.Outcome State Fault Refusal :=
  onData (fun k d =>
    let x := d.win win
    let h := k.winHalf win
    if !x.creditDue || !k.winOn win || !halfUp k d h || !Data.mayGrant k d (k.winPart win) 2 then d
    else
      Data.charge k (((d.emit (.busWrite h (k.winCredit win) (bytesLE 8 (x.rel % 2 ^ 32)))).bump (bdlCnt h 1) 8).setWin win
        { x with creditDue := false }) (k.winPart win) 2 8) s

/-! ### Configuration requests, PTM and CXL -/

/-- A write of BDL_CFGA (R532): with GO it is ignored while BUSY, else its fields are set and the request goes out below the root half it names. -/
def cfgaWrite (k : Ctl) (d : Data) (r : Nat) (v mask : Word) : Ctl × Data :=
  let a := 0x1F10140 + 0x1000 * r
  let go := bitAt v 30 && bitAt mask 30
  if go && Tab.has d.bdl.cfgReq r then (k, d)
  else
    let m := mask &&& maskAt (fun _ => true) a
    let k1 := k.setWord a (((k.word a) &&& ~~~ m) ||| (v &&& m &&& BitVec.ofNat 64 (2 ^ 30 - 1)))
    if !go then (k1, d)
    else
      let h := 2 * r + k1.fld a 28 1
      let q : CfgReq := ⟨h, k1.fld a 12 16, k1.fld a 0 12, k1.fld a 29 1 == 1, k.ticks⟩
      let d1 := { d with bdl := { d.bdl with cfgReq := Tab.set d.bdl.cfgReq r q } }
      (k1, if k.halfMode h = 1 ∧ halfUp k d h then
          d1.emit (.config h q.bdf q.reg (if q.write then some (Tab.getD d.bdl.cfgData r 0) else none))
        else d1)

/-- Writing BDL_CFGA of a port with GO. -/
def execCfgRequest (port : Nat) (value : BitVec 64) (s : State) : Host.Outcome State Fault Refusal :=
  onBoth (fun x => if port < 4 then cfgaWrite x.1 x.2 port (setBit value 30 true) (BitVec.allOnes 64) else x) s

/-- A configuration completion (R532), or with `cpl` 7 the timeout of 50 ms; read data goes to BDL_CFGD. -/
def execCfgCompletion (port : Nat) (cpl : BitVec 3) (data : BitVec 32) (s : State) : Host.Outcome State Fault Refusal :=
  onData (fun k d =>
    match Tab.get? d.bdl.cfgReq port with
    | none => d
    | some q =>
      if !(cpl.toNat ∈ [0, 1, 2, 4] || (cpl.toNat == 7 && decide (q.since + usTicks 50000 ≤ k.ticks))) then d
      else
        { d with bdl := { d.bdl with
          cfgReq := Tab.erase d.bdl.cfgReq port
          cfgCpl := Tab.put 0 d.bdl.cfgCpl port cpl.toNat
          cfgData := if q.write || cpl.toNat != 0 then d.bdl.cfgData else Tab.put 0 d.bdl.cfgData port data.toNat } }) s

/-- A root half answers a PTM Request with KTIME in whole ns (R525). -/
def execPtmRequest (half : Nat) (s : State) : Host.Outcome State Fault Refusal :=
  onData (fun k d => if halfUp k d half && k.halfMode half == 1 then d.emit (.ptm half k.ns) else d) s

/-- The lend range that entry `i` of the BDL_CXLMAP of a half names, where it is in use (R531). -/
def Ctl.cxlEntry (k : Ctl) (h i : Nat) : Option Nat :=
  let v := k.fld (0x1F10100 + 0x1000 * (h / 2) + 8 * (h % 2)) (8 * i) 8
  if bitsOf v 6 1 = 1 then some (bitsOf v 0 6) else none

/-- VALID, KIND, partition, base and bytes of a lend range (R367). -/
def Ctl.lend (k : Ctl) (n : Nat) : Bool × Nat × Nat × Nat × Nat :=
  let a := objKey 0x1800100 n
  (k.fld a 0 1 == 1, k.fld a 1 2, k.fld a 3 4, k.fld a 12 36 * 4096, k.fld (objKey 0x1800108 n) 0 36 * 4096)

/-- The lend range and DPA of a device address of a half: the ranges of its entries stand one after the other (R524). -/
def cxlFind (k : Ctl) (h : Nat) : List Nat → Nat → Option (Nat × Nat)
  | [], _ => none
  | i :: r, a =>
    match k.cxlEntry h i with
    | none => cxlFind k h r a
    | some n => if a < (k.lend n).2.2.2.2 then some (n, (k.lend n).2.2.2.1 + a) else cxlFind k h r (a - (k.lend n).2.2.2.2)

/-- A CXL.mem access to a 64-byte line of the device memory of a half (R524): a read, or a write of 64 bytes. It counts as an HDM decoder of the half being
committed, and against the HBM and Bridle regulators of the range's partition, which hold it while their buckets are empty (R362, R493, R494). -/
def execCxlMemAccess (half : Nat) (addr : Nat) (write : Option (BitVec 512)) (s : State) : Host.Outcome State Fault Refusal :=
  onData (fun k d =>
    if !halfUp k d half || k.halfMode half != 2 || !k.halfCxl half || k.pwr.state != .run then d
    else
      match cxlFind k half (upTo 8) (addr / 64 * 64) with
      | none => d
      | some (n, a) =>
        let p := (k.lend n).2.2.1
        if !Data.mayGrant k d p 2 || !Data.mayGrant k d p 0 then d else
        let dead := d.bdl.cxlDead.contains n
        let d1 := Data.charge k (Data.charge k ((d.setHalf half { d.half half with hdm := true }).bump (bdlCnt half 7) 1) p 2 64) p 0 64
        match write with
        | some v => if dead then d1 else (d1.wrBytes a (bytesLE 64 v.toNat)).bump (bdlCnt half 0) 64
        | none => (d1.emit (.cxl half (if dead then [] else memBytes d1.mem a 64) (dead || d1.bad a 64))).bump (bdlCnt half 1) 64) s

/-! ### Links -/

/-- The number of a path in the copies of the select registers (R700): the half's 1 + 2r + h, as GLB_TRAP has it (R705), or 16 + the session. -/
def pathNum : Path → Nat
  | .half h => 1 + h
  | .session n => 16 + n

/-- The copies of the select registers of a path are cleared (R700). -/
def clearSels (k : Ctl) (p : Path) : Ctl :=
  { k with shell := { k.shell with sels := Tab.keep k.shell.sels (fun x _ => x / 16 != pathNum p) } }

/-- A session ends (R595): its copies of the select registers are cleared (R700), and SELECT_LOST is set (R704). -/
def endSession (x : Ctl × Data) (n : Nat) : Ctl × Data :=
  (clearSels { x.1 with sec := { x.1.sec with sessions := Tab.erase x.1.sec.sessions n } } (.session n), x.2.setSts 0x0000080 2)

/-- The sessions that a test holds of end. -/
def endSessions (x : Ctl × Data) (f : Session → Bool) : Ctl × Data := (x.1.sec.sessions.filter (fun e => f e.2)).foldl (fun y e => endSession y e.1) x

/-- Every session ends, and what was begun of one. -/
def dropSessions (x : Ctl × Data) : Ctl × Data :=
  let y := endSessions x (fun _ => true)
  ({ y.1 with sec := { y.1.sec with begun := [] } }, y.2)

/-- Every window of a half becomes not VALID (R526). -/
def dropWindows (h : Nat) : List Nat → Ctl → Ctl
  | [], k => k
  | w :: r, k => dropWindows h r (if k.winOn w && k.winHalf w == h then k.setFld (wdef w 0) 0 1 0 else k)

/-- A half leaves L0 (R526, R700): LINK_LOST, its windows, the operations that still write them, its writes queued, its select copies. -/
def halfDown (x : Ctl × Data) (h : Nat) : Ctl × Data :=
  let k := x.1
  let d := x.2
  if !(d.half h).up then x
  else
    let mine := d.bdl.jobs.filter (fun j => j.dests.any (fun w => k.winHalf w.1 == h))
    let d1 := ((d.setHalf h { d.half h with up := false, gen := 0, width := 0 }).setSts (bdlSts (h / 2)) (2 + h % 2)).bump (bdlCnt h 6) 1
    let d2 := abortList k d1 (mine.map (fun j => (j.thread, j.opId))) .domainOff
    (clearSels (dropWindows h (List.range 1024) k) (.half h), if k.halfMode h = 2 then d2.setSts 0x0000080 2 else d2)

/-- A half leaves L0 for Detect, Disabled or Hot Reset (R526). -/
def execBridleLinkDown (half : Nat) (s : State) : Host.Outcome State Fault Refusal :=
  onBoth (fun x => if half < 8 then halfDown x half else x) s

/-- A half in service finishes training (R40, R511, R533): the option bytes give the half, the generation and the width that it may train to. -/
def execLinkUp (half gen width : Nat) (s : State) : Host.Outcome State Fault Refusal :=
  onData (fun k d =>
    let r := half / 2
    let most := if k.bifurcated r then 8 else 16
    if 8 ≤ half ∨ !k.up r 16 ∨ k.cells.contains (1024 * (64 * r + 16) + half % 2) ∨ bitsOf k.tim.inputs (3 + r) 1 = 0 ∨ k.halfMode half = 0 ∨ (half % 2 = 1 ∧ !k.bifurcated r) ∨ gen < 3 ∨ k.maxGen r < gen ∨
        !([1, 2, 4, 8, 16].contains width) ∨ most < width ∨ (d.half half).up then d
    else d.setHalf half { d.half half with up := true, gen := gen, width := width }) s

end Sys2Proof.Machine
end

