-- ==== Sys2Proof/Machine/Budget.lean ====
section
/-!
DEFINITION. Meters' entries and their colour (R488 to R491), tenant token budgets (R495 to R499).
-/
namespace Sys2Proof.Machine

/-- A number of `w` bits read as two's complement. -/
def signed (w v : Nat) : Int := if 2 ^ (w - 1) ≤ v then (v : Int) - 2 ^ w else v
/-- A signed number as `w` bits, limited to what they hold. -/
def unsign (w : Nat) (v : Int) : Nat :=
  let x := max (-(2 ^ (w - 1) : Int)) (min v (2 ^ (w - 1) - 1))
  if x < 0 then (x + 2 ^ w).toNat else x.toNat

/-- A counter of TRF_CNT of a partition (R506). -/
def trfCnt (p i : Nat) : Nat := cntAddr 0x1D p i
/-- Sets a bit of TRF_STS (R505). -/
def Data.trfSts (d : Data) (i : Nat) : Data := d.setSts 0x1D00080 i

/-! ### Meter entries -/

/-- The colours of R488. -/
inductive Colour where
  | green | yellow | red
deriving DecidableEq, Repr

/-- TC and TP of the entry at `a` grown for the time since LAST, and the LAST that whole bytes account for (R488). The rates are in bytes per ms:
a byte of the peak rate accounts for 10^6 / PIR ns. -/
def meterGrow (d : Data) (a now : Nat) : Int × Int × Nat :=
  let dt := now - d.rd (a + 32) 8
  let np := d.rd (a + 4) 4 * dt / 1000000
  let used := if d.rd (a + 4) 4 = 0 then dt else Nat.min dt (ceilDiv (np * 1000000) (d.rd (a + 4) 4))
  let nc := d.rd a 4 * used / 1000000
  (min (signed 32 (d.rd (a + 24) 4) + nc) (d.rd (a + 8) 4), min (signed 32 (d.rd (a + 28) 4) + np) (d.rd (a + 12) 4), d.rd (a + 32) 8 + used)

/-- The colour of an operation (R488). -/
def colourOf (aware : Bool) (pre : Nat) (tc tp : Int) : Colour :=
  if aware && decide (2 ≤ pre) then .red
  else if tp ≤ 0 then .red
  else if (aware && pre == 1) || decide (tc ≤ 0) then .yellow
  else .green

/-- A meter's decision on `n` bytes: its colour, the bytes taken and counted (R488, R491, R506). -/
def meterTake (d : Data) (part a now pre n : Nat) : Data × Colour :=
  let g := meterGrow d a now
  let c := colourOf (bitsOf (d.rd (a + 16) 1) 1 1 == 1) pre g.1 g.2.1
  let tc := if c = .green then g.1 - n else g.1
  let tp := if c = .red then g.2.1 else g.2.1 - n
  let i := match c with | .green => 0 | .yellow => 1 | .red => 2
  let d1 := ((d.wr (a + 24) 4 (unsign 32 tc)).wr (a + 28) 4 (unsign 32 tp)).wr (a + 32) 8 g.2.2
  ((d1.wr (a + 40 + 8 * i) 8 (d1.rd (a + 40 + 8 * i) 8 + n)).bump (trfCnt part i) n, c)

/-- Y_ACT or R_ACT of the entry for a colour (R489): 0 PASS, 1 DEMOTE, 2 DEFER. -/
def meterAct (d : Data) (a : Nat) (c : Colour) : Nat :=
  match c with
  | .green => 0
  | .yellow => bitsOf (d.rd (a + 16) 1) 2 2
  | .red => bitsOf (d.rd (a + 16) 1) 4 2

/-- The entry that a `trf.mset` or `trf.mget` names. -/
def Ctl.mentry (k : Ctl) (p : Nat) (x : Desc) : Nat := (k.mtab p).1 + 64 * (8 * df x 20 0 16 + df x 22 0 3)

/-- What `trf.mset` does (R490, R578). -/
def runTrfMset : EngRun := engRun (fun k d t id th o =>
  let x := o.desc
  let a := k.mentry th.part x
  checked d t id
    [failIf (!descOk x [(0, 0, 128), (16, 0, 6), (17, 0, 3), (20, 0, 16), (22, 0, 3)] || decide (df x 4 0 32 < df x 0 0 32) ||
       decide (2 ≤ df x 16 2 2) || df x 16 4 2 == 3 || df x 17 0 3 == 0) .badDesc,
     failIf (decide ((k.mtab th.part).2 ≤ df x 20 0 16)) .cfgInvalid]
    (let d1 := (((((d.wr a 16 (df x 0 0 128)).wr (a + 16) 1 (df x 16 0 6)).wr (a + 17) 1 (df x 17 0 3)).wr (a + 24) 4
       (unsign 32 (df x 8 0 32))).wr (a + 28) 4 (unsign 32 (df x 12 0 32))).wr (a + 32) 8 k.ns
     Data.finish { d1 with trf := { d1.trf with meterHeld := d1.trf.meterHeld.map (fun h => if h.entry = a then { h with again := true } else h) } }
       t id .ok 0 0))

/-- `trf.mset`. -/
def execTrfMset (t : Nat) (p : BitVec 2) (ts : BitVec 5) (ds : BitVec 4) (s : State) : Host.Outcome State Fault Refusal :=
  onData (issue 0xB 3 noBsk runTrfMset t p ts ds) s

/-- What `trf.mget` does (R490, R578): the entry is copied to DST. -/
def runTrfMget : EngRun := engRun (fun k d t id th o =>
  let x := o.desc
  let dst := df x 24 0 48
  checked d t id
    [failIf (!descOk x [(20, 0, 16), (22, 0, 3), (24, 0, 48)] || dst % 64 != 0) .badDesc, k.dpaCheck th.part dst 64 false,
     failIf (decide ((k.mtab th.part).2 ≤ df x 20 0 16)) .cfgInvalid]
    ((d.copy (k.mentry th.part x) dst 64).finish t id .ok 0 0))

/-- `trf.mget`. -/
def execTrfMget (t : Nat) (p : BitVec 2) (ts : BitVec 5) (ds : BitVec 4) (s : State) : Host.Outcome State Fault Refusal :=
  onData (issue 0xB 4 noBsk runTrfMget t p ts ds) s

/-! ### Accounts -/

/-- The DPA of an account (R495). -/
def Ctl.acct (k : Ctl) (p n : Nat) : Nat := (k.btab p).1 + 64 * n
/-- BALANCE. -/
def acctBal (d : Data) (a : Nat) : Int := signed 64 (d.rd a 8)
/-- CAP. -/
def acctCap (d : Data) (a : Nat) : Nat := bitsOf (d.rd (a + 16) 8) 0 48
/-- POLICY. -/
def acctPolicy (d : Data) (a : Nat) : Nat := bitsOf (d.rd (a + 32) 1) 1 2
/-- Whether an account is below ACCOUNTS and VALID. -/
def acctOn (k : Ctl) (d : Data) (p n : Nat) : Bool := decide (n < (k.btab p).2) && d.rd (k.acct p n + 32) 1 % 2 == 1

/-- An account is evaluated (R496): it gains REFILL for each boundary passed since LAST, up to CAP. -/
def acctEval (k : Ctl) (d : Data) (a : Nat) : Data :=
  let w := bitsOf (d.rd (a + 24) 4) 0 24 * 1000
  let n := k.ns / w - d.rd (a + 40) 8 / w
  (d.wr a 8 (unsign 64 (min (acctCap d a) (acctBal d a + n * bitsOf (d.rd (a + 8) 8) 0 48)))).wr (a + 40) 8 k.ns

/-- Takes a cost from an account, whose BALANCE falls no lower than `low`. -/
def acctTake (d : Data) (a : Nat) (cost : Nat) (low : Int) : Data :=
  (d.wr a 8 (unsign 64 (max low (acctBal d a - cost)))).wr (a + 48) 8 (d.rd (a + 48) 8 + cost)

/-- A charge refused, deferred or marked is counted in EXCEPT, in TRF_CNT and in TRF_STS. -/
def acctExcept (d : Data) (p a cnt : Nat) : Data := (d.wr (a + 56) 8 (d.rd (a + 56) 8 + 1)).bump (trfCnt p cnt) 1

/-- What becomes of a charge at the head of its account (R497): none while it must wait. `waited` says that it has waited already. -/
def judgeCharge (d : Data) (a : Nat) (c : Charge) (waited : Bool) : Option Data :=
  let bal := acctBal d a
  let whole := ceilDiv c.cost 256
  let low := -(2 ^ 63 : Int)
  match acctPolicy d a with
  | 0 =>
    if (c.cost : Int) ≤ bal ∧ !waited then some ((acctTake d a c.cost low).finish c.thread c.opId .ok whole 0)
    else if (Nat.min c.cost (acctCap d a) : Int) ≤ bal then
      some ((acctExcept (acctTake d a c.cost low) c.part a 9).finish c.thread c.opId .ok whole 2)
    else none
  | 1 =>
    if (c.cost : Int) ≤ bal then some ((acctTake d a c.cost low).finish c.thread c.opId .ok whole 0)
    else some (((acctExcept (acctTake d a c.cost (-(acctCap d a : Int))) c.part a 10).trfSts 3).finish c.thread c.opId .ok whole 1)
  | _ =>
    if (c.cost : Int) ≤ bal then some ((acctTake d a c.cost low).finish c.thread c.opId .ok whole 0)
    else some (((acctExcept d c.part a 8).trfSts 1).finish c.thread c.opId .budget 0 0)

/-- The waiting charges of an account, oldest first, as far as the account lets them through (R498). -/
def pumpAcct (k : Ctl) (p n : Nat) : Nat → Data → Data
  | 0, d => d
  | f + 1, d =>
    match d.trf.charges.find? (fun c => c.part == p && c.acct == n) with
    | none => d
    | some c =>
      let drop := fun (e : Data) => { e with trf := { e.trf with charges := e.trf.charges.filter (fun x => !(x.thread == c.thread && x.opId == c.opId)) } }
      if !acctOn k d p n then pumpAcct k p n f (Data.finish (drop d) c.thread c.opId .cfgInvalid 0 0)
      else
        let d1 := acctEval k d (k.acct p n)
        match judgeCharge d1 (k.acct p n) c true with
        | some d2 => pumpAcct k p n f (drop d2)
        | none => d1

/-- The waiting charges of an account. -/
def settleAcct (k : Ctl) (d : Data) (p n : Nat) : Data := pumpAcct k p n (d.trf.charges.length + 1) d

/-- What `bud.charge` does (R495, R497, R498). -/
def runBudCharge : EngRun := engRun (fun k d t id th o =>
  let x := o.desc
  let b := df x 0 0 20
  let y := d.basket b
  let n := y.budget.toNat
  let p := th.part
  let a := k.acct p n
  let cost := d.rd (a + 28) 2 * df x 8 0 32 + d.rd (a + 30) 2 * df x 12 0 32
  let c : Charge := ⟨p, n, t, id, b, cost⟩
  checked d t id [failIf (!descOk x [(0, 0, 20), (8, 0, 32), (12, 0, 32)]) .badDesc, k.bskCheck th b, y.opCheck]
    (if n = 0xFFFFFFFF then d.finish t id .ok 0 0
     else if !acctOn k d p n then d.finish t id .cfgInvalid 0 0
     else if cost = 0 then d.finish t id .ok 0 0
     else
       let d1 := if d.trf.charges.any (fun e => e.part == p && e.acct == n) then none else judgeCharge (acctEval k d a) a c false
       match d1 with
       | some d2 => d2
       | none =>
         let d2 := ((acctEval k d a).start t id).trfSts 2
         let d3 := { d2 with trf := { d2.trf with charges := d2.trf.charges ++ [c] } }
         if y.state = .anchor ∨ y.state = .decoding then settlePark k (d3.onBasket b (fun z => { z with budPark := true })) b else d3))

/-- `bud.charge`. -/
def execBudCharge (t : Nat) (p : BitVec 2) (ts : BitVec 5) (ds : BitVec 4) (s : State) : Host.Outcome State Fault Refusal :=
  onData (issue 0xB 0 descBsk runBudCharge t p ts ds) s

/-- Whether the program fields of an account are in range (R499): REFILL, CAP, WINDOW and POLICY. -/
def acctFieldsOk (refill cap window policy : Nat) : Bool :=
  decide (policy < 3) && decide (1000 ≤ window) && decide (window ≤ 10000000) && decide (refill ≤ cap)

/-- What `bud.set` does (R499, R498). -/
def runBudSet : EngRun := engRun (fun k d t id th o =>
  let x := o.desc
  let n := df x 0 0 32
  let a := k.acct th.part n
  checked d t id
    [failIf (!descOk x [(0, 0, 32), (8, 0, 48), (16, 0, 48), (24, 0, 24), (28, 0, 16), (30, 0, 16), (32, 0, 3), (34, 0, 16), (36, 0, 1)] ||
       !acctFieldsOk (df x 8 0 48) (df x 16 0 48) (df x 24 0 24) (df x 32 1 2)) .badDesc,
     failIf (decide ((k.btab th.part).2 ≤ n)) .cfgInvalid]
    (let d1 := d.wr (a + 8) 28 (df x 8 0 224)
     let d2 := if df x 36 0 1 = 1 then d1.wr a 8 (acctCap d1 a) else d1
     (settleAcct k d2 th.part n).finish t id .ok 0 0))

/-- `bud.set`. -/
def execBudSet (t : Nat) (p : BitVec 2) (ts : BitVec 5) (ds : BitVec 4) (s : State) : Host.Outcome State Fault Refusal :=
  onData (issue 0xB 1 noBsk runBudSet t p ts ds) s

/-- What `bud.query` does (R499): the entry is copied; one whose fields are out of range answers BAD_DESC. -/
def runBudQuery : EngRun := engRun (fun k d t id th o =>
  let x := o.desc
  let n := df x 0 0 32
  let a := k.acct th.part n
  let dst := df x 40 0 48
  checked d t id
    [failIf (!descOk x [(0, 0, 32), (40, 0, 48)] || dst % 64 != 0) .badDesc, k.dpaCheck th.part dst 64 false,
     failIf (decide ((k.btab th.part).2 ≤ n)) .cfgInvalid,
     failIf (!acctFieldsOk (bitsOf (d.rd (a + 8) 8) 0 48) (acctCap d a) (bitsOf (d.rd (a + 24) 4) 0 24) (acctPolicy d a)) .badDesc]
    ((d.copy a dst 64).finish t id .ok 0 0))

/-- `bud.query`. -/
def execBudQuery (t : Nat) (p : BitVec 2) (ts : BitVec 5) (ds : BitVec 4) (s : State) : Host.Outcome State Fault Refusal :=
  onData (issue 0xB 2 noBsk runBudQuery t p ts ds) s

/-- A window boundary passes while a charge of the account waits (R496). -/
def execBudgetWindowBoundary (part account : Nat) (s : State) : Host.Outcome State Fault Refusal :=
  onData (fun k d => settleAcct k d part account) s

end Sys2Proof.Machine
end

