-- ==== Sys2Proof/Machine/Gop.lean ====
section
/-!
DEFINITION. Groups and the tree (R461 to R466): routes, group definitions, the messages of a global operation and its completion, and
snapshot holds.
-/
namespace Sys2Proof.Machine

/-! ### Routes and events -/

/-- FAB_RTAB of a partition (R480): the QP that its entry for a node names, where the table is in use and the entry is VALID (R454). -/
def routeQp (k : Ctl) (d : Data) (p node : Nat) : Option Nat :=
  let a := 0x1C40040 + 0x1000 * p
  if k.fld a 0 1 = 0 ∨ 8192 ≤ node then none
  else
    let e := d.rd (k.fld a 14 34 * 16384 + 2 * node) 2
    if bitsOf e 15 1 = 1 then some (bitsOf e 0 14) else none

/-- A counter of FAB_CNT (R483): 0 LOADS, 1 STORES, 2 ATOMICS, 3 BYTES, 4 GOPS, 5 MISS_T, 6 MISS_M, 7 ZOMBIE, 8 ELECTIONS. -/
def fabCnt (i : Nat) : Nat := cntAddr 0x1C 0 i

/-- The management ports that have link (R33, R472). -/
def Data.mgmtPorts (d : Data) : Nat := b2n d.fab.mgmtA + 2 * b2n d.fab.mgmtB

/-- Sends a management message to a node, on both ports, or on the one that has link (R33). -/
def Data.mgmt (d : Data) (kind node : Nat) (bytes : List Byte) : Data := d.emit (.mgmt d.mgmtPorts kind node bytes)

/-- A fabric event (R473), also sent to the fabric manager on both management ports. -/
def fabEvent (k : Ctl) (d : Data) (ev part node detail : Nat) : Data :=
  let bytes := bytesLE 8 (ev + part % 16 * 2 ^ 8 + node % 65536 * 2 ^ 16 + detail % 2 ^ 32 * 2 ^ 32) ++ bytesLE 8 k.ns
  evtPush k (d.mgmt 0x01 0xFFFF bytes) 16 0x1C40080 16 bytes 0 (k.fld 0x1C40088 32 16) 0x1C001C0 3

/-! ### Groups -/

/-- The key of FAB_GDEF word `w` of a group. -/
def gdef (g w : Nat) : Nat := objKey (0x1C00100 + 8 * w) g
/-- VALID of a group. -/
def Ctl.grpOn (k : Ctl) (g : Nat) : Bool := decide (g < 16) && k.fld (gdef g 0) 0 1 == 1
/-- Its owner. -/
def Ctl.grpPart (k : Ctl) (g : Nat) : Nat := k.fld (gdef g 0) 1 4
/-- RANK. -/
def Ctl.grpRank (k : Ctl) (g : Nat) : Nat := k.fld (gdef g 0) 5 13
/-- N. -/
def Ctl.grpN (k : Ctl) (g : Nat) : Nat := k.fld (gdef g 0) 18 14
/-- The node number of a rank (R461). -/
def grpNode (k : Ctl) (d : Data) (g r : Nat) : Nat := d.rd (k.fld (gdef g 1) 6 42 * 64 + 32 * r) 2
/-- The parent of a rank. -/
def parentOf (r : Nat) : Nat := (r - 1) / 16
/-- The children of a rank in a group of `n`. -/
def childrenOf (n r : Nat) : List Nat := ((List.range 16).map (fun i => 16 * r + 1 + i)).filter (fun c => decide (c < n))
/-- Whether rank `r` lies on the path from `x` to rank 0. -/
def onPath (r : Nat) : Nat → Nat → Bool
  | 0, x => x == r
  | f + 1, x => x == r || (x != 0 && onPath r f (parentOf x))

/-- A group slot as a commit leaves it (R481). -/
def grpReset : Group := ⟨false, 0, none, []⟩
/-- A group slot. -/
def Data.grp (d : Data) (g : Nat) : Group := Tab.getD d.fab.groups g grpReset
/-- Sets a group slot. -/
def Data.setGrp (d : Data) (g : Nat) (x : Group) : Data := { d with fab := { d.fab with groups := Tab.put grpReset d.fab.groups g x } }

/-- Sends a message of a global operation to a rank, on the route of the group's partition; nothing goes where there is no route. -/
def sendGop (k : Ctl) (d : Data) (g rank cls : Nat) (up : Bool) (seq kind root len status : Nat) (data : List Byte) : Data :=
  match routeQp k d (k.grpPart g) (grpNode k d g rank) with
  | none => d
  | some q => d.enqueue q { txOp0 with
      opc := if up then 0x39 else 0x3A
      cls := cls
      inl := data
      len := data.length
      gop := .gop g seq kind root len status }

/-! ### Snapshot holds -/

/-- The threads of a partition whose issues a hold kept back may issue them (R466). -/
def wakeHeld (k : Ctl) (d : Data) (p : Nat) : Data :=
  d.fyl.threads.foldl (fun e x =>
    if x.2.part = p ∧ x.2.wait = some .issue then e.wake x.1 k.ticks else e) d

/-- Ends a group's hold. -/
def endHold (k : Ctl) (d : Data) (g : Nat) : Data :=
  let p := k.grpPart g
  let d1 := { d with fab := { d.fab with holds := d.fab.holds.filter (fun h => h.2.1 != g) } }
  if d1.heldPart p then d1 else wakeHeld k d1 p

/-- The Spool transmissions that no arrival causes: runs of pushes and offers, OFFER, RE-OFFER, QUERY, PULL_REQ, OFFER_Q, and CREDIT of
KIND 0 (R226, R466). What answers an arrival goes on. -/
def spoolOpens (m : List Byte) : Bool :=
  [0x01, 0x04, 0x07, 0x0A, 0x10, 0x18, 0x1A].contains (msgType m) || (msgType m == 0x03 && mfld m 18 1 % 2 == 0)

/-- Whether a snapshot of a partition holds an operation of a QP: a Spool transmission of which nothing has been sent (R466). -/
def heldTx (d : Data) (p : Nat) (o : TxOp) : Bool :=
  d.heldPart p && o.firstPsn.isNone && o.opc == 5 && o.consumer == 1 && spoolOpens o.inl

/-- Every QP of a partition has nothing unacknowledged, nor anything still to be sent but what is held (R466). -/
def drained (d : Data) (p : Nat) : Bool :=
  d.ttx.qps.all (fun x => x.2.part != p || x.2.state != .ready || (x.2.unacked.isEmpty && x.2.txq.all (fun o => heldTx d p o)))

/-! ### Progress -/

/-- Completes a global operation of this member. DEAD_TARGET and TIMEOUT break the group (R464); DEAD_TARGET asks for the teardown event of
R460. -/
def finishGop (k : Ctl) (d : Data) (g : Nat) (st : Status) : Data :=
  let x := d.grp g
  match x.op with
  | none => d
  | some o =>
    let bad := st == .deadTarget || st == .timeout
    let d1 := d.setGrp g { x with op := none, broken := x.broken || bad, seq := x.seq + 1, msgs := x.msgs.filter (fun m => decide (x.seq < m.seq)) }
    let d2 := if st == .deadTarget then { d1 with fab := { d1.fab with deadPend := d1.fab.deadPend ++ [(k.grpPart g, 0)] } } else d1
    (d2.bump (fabCnt 4) 1).finish o.thread o.opId st 0 0

/-- GOP_DOWN reaches this member, or starts at rank 0: it is forwarded to the children and the member completes (R463, R466). -/
def gopDown (k : Ctl) (d : Data) (g status : Nat) (data : List Byte) : Data :=
  let x := d.grp g
  match x.op with
  | none => d
  | some o =>
    let st := (Status.ofCode? status).getD .checkFail
    let d1 := (childrenOf (k.grpN g) (k.grpRank g)).foldl (fun e c =>
      sendGop k e g c o.cls false x.seq o.kind o.root o.len status (if o.kind = 1 then data else [])) d
    let d2 := if o.kind = 1 ∧ st = .ok ∧ k.grpRank g ≠ o.root then d1.wrBytes o.buf (data.take o.len)
      else if o.kind = 2 then d1.wr o.buf 8 k.ns else d1
    finishGop k d2 g st

/-- A member sends GOP_UP once it has entered, has GOP_UP from every child, and, for a SNAPSHOT, has drained; rank 0 then starts GOP_DOWN
(R463, R466). The worst status is the one with the highest code. -/
def gopTry (k : Ctl) (d : Data) (g : Nat) : Data :=
  let x := d.grp g
  match x.op with
  | none => d
  | some o =>
    let r := k.grpRank g
    let ups := x.msgs.filter (fun m => m.up && m.seq == x.seq)
    let ready := (childrenOf (k.grpN g) r).all (fun c => ups.any (fun m => m.rank == c))
    if o.entered || !ready || (o.kind == 2 && !drained d (k.grpPart g)) then d
    else
      let worst := ups.foldl (fun w m =>
        Nat.max w (if m.kind = o.kind ∧ m.root = o.root ∧ m.len = o.len then m.status else Nat.max m.status Status.badDesc.code)) 0
      let data := if o.kind ≠ 1 then []
        else if r = o.root then memBytes d.mem o.buf o.len
        else match ups.find? (fun m => onPath m.rank 4 o.root) with
          | some m => m.data
          | none => []
      let d1 := d.setGrp g { x with op := some { o with entered := true } }
      if r = 0 then gopDown k d1 g worst data
      else sendGop k d1 g (parentOf r) o.cls true x.seq o.kind o.root o.len worst (if onPath r 4 o.root then data else [])

/-- Every group in an operation is tried again. -/
def gopAll (k : Ctl) (d : Data) : Data := d.fab.groups.foldl (fun e x => gopTry k e x.1) d

/-- A message of a group arrives from a node (R463): one of an earlier sequence number is discarded, one of a later is held. -/
def gopArrive (k : Ctl) (d : Data) (part node : Nat) (up : Bool) (ext : Ext) (data : List Byte) : Data :=
  match ext with
  | .gop g seq kind root len status =>
    let x := d.grp g
    let from_ := if up then (childrenOf (k.grpN g) (k.grpRank g)).find? (fun c => grpNode k d g c == node)
      else if k.grpRank g ≠ 0 ∧ grpNode k d g (parentOf (k.grpRank g)) = node then some (parentOf (k.grpRank g)) else none
    match from_ with
    | none => d
    | some r =>
      if !k.grpOn g || k.grpPart g != part || decide (seq < x.seq) then d
      else
        let d1 := d.setGrp g { x with msgs := x.msgs ++ [⟨up, r, seq, kind, root, len, status, data⟩] }
        if up then gopTry k d1 g
        else if seq = x.seq ∧ x.op.isSome then gopDown k d1 g status data else d1
  | _ => d

/-- A QP in the tree of a group in operation has entered ERROR (R464); the teardown event of R460 names its peer. -/
def gopQpFail (k : Ctl) (d : Data) (q : Nat) (st : Status) : Data :=
  d.fab.groups.foldl (fun e x =>
    let g := x.1
    let r := k.grpRank g
    let near := childrenOf (k.grpN g) r ++ (if r = 0 then [] else [parentOf r])
    if (e.grp g).op.isSome && near.any (fun c => routeQp k e (k.grpPart g) (grpNode k e g c) == some q) then
      finishGop k (if st = .deadTarget then { e with fab := { e.fab with deadPend := e.fab.deadPend ++ [(k.grpPart g, (e.qp q).peerNode)] } } else e) g st
    else e) d

/-! ### The operations -/

/-- The status of a `gop` before it enters (R462, R464). -/
def gopChecks (k : Ctl) (d : Data) (th : Thread) (x : Desc) : List (Option Status) :=
  let g := df x 0 0 4
  let kind := df x 0 4 3
  let r := k.grpRank g
  let near := childrenOf (k.grpN g) r ++ (if r = 0 then [] else [parentOf r])
  let route := fun c => match routeQp k d (k.grpPart g) (grpNode k d g c) with
    | none => some Status.cfgInvalid
    | some q =>
      let y := d.qp q
      if y.state = .error then some ((Status.ofCode? y.status).getD .timeout)
      else failIf (y.state != .ready || y.peerNode != grpNode k d g c || y.part != k.grpPart g) .cfgInvalid
  [failIf (!descOk x [(0, 0, 7), (2, 0, 13), (4, 0, 13), (8, 0, 48)] || decide (3 < kind) || decide (4096 < df x 4 0 13)) .badDesc,
   failIf (k.grpOn g && k.grpPart g != th.part) .perm,
   if kind = 1 then k.dpaCheck th.part (df x 8 0 48) (df x 4 0 13) false
   else if kind = 2 then k.dpaCheck th.part (df x 8 0 48) 8 false else none,
   failIf (d.fab.teardown.contains th.part) .aborted,
   failIf (!k.grpOn g || (d.grp g).broken) .cfgInvalid, failIf (decide (k.grpN g ≤ df x 2 0 13)) .badDesc,
   failIf (kind != 3 && (d.grp g).op.isSome) .cfgInvalid] ++ (if kind = 3 then [] else near.map route)

/-- A member enters an operation (R463, R466). A `gop` issued while the group is in an operation does not start before it ends. -/
def enterGop (k : Ctl) (d : Data) (t id : Nat) (o : Op) : Data :=
  let x := o.desc
  let g := df x 0 0 4
  let kind := df x 0 4 3
  let p := k.grpPart g
  let op : Gop := ⟨t, id, o.cls, kind, df x 2 0 13, df x 4 0 13, df x 8 0 48, k.ticks + k.fld 0x1C00040 24 8 * 500000, false⟩
  let y := d.grp g
  let d1 := (d.start t id).setGrp g { y with op := some op }
  let d2 := if kind = 2 then
      { d1 with fab := { d1.fab with
        holds := d1.fab.holds.filter (fun h => h.2.1 != g) ++ [(p, g, k.ticks + k.fld 0x1C00040 32 8 * 500000)] } }
    else d1
  let d3 := gopTry k d2 g
  match (d3.grp g).op, y.msgs.find? (fun m => !m.up && m.seq == y.seq) with
  | some _, some m => gopDown k d3 g m.status m.data
  | _, _ => d3

/-- What a `gop` of any KIND does. -/
def runGop : EngRun := engRun (fun k d t id th o =>
  let x := o.desc
  let g := df x 0 0 4
  if df x 0 4 3 < 3 ∧ k.grpOn g ∧ k.grpPart g = th.part ∧ (d.grp g).op.isSome then d
  else
    checked d t id (gopChecks k d th x)
      (if df x 0 4 3 = 3 then
         (if d.fab.holds.any (fun h => h.2.1 == g) then ((endHold k d g).bump (fabCnt 4) 1).finish t id .ok 0 0
          else d.finish t id .cfgInvalid 0 0)
       else enterGop k d t id o))

/-- A `gop` command whose descriptor has another KIND is not that command. BARRIER stands for a `gop` of a reserved KIND too, which is refused. -/
def issueGop (kind t : Nat) (p : BitVec 2) (ts : BitVec 5) (ds : BitVec 4) (k : Ctl) (d : Data) : Data :=
  match d.thr t with
  | some th =>
    let x := df (th.dReg ds.toNat) 0 4 3
    if x = kind ∨ (kind = 0 ∧ 3 < x) ∨ !th.pReg p.toNat then issue 7 4 noBsk runGop t p ts ds k d else d
  | none => d

/-- `gop` BARRIER. -/
def execGopBarrier (t : Nat) (p : BitVec 2) (ts : BitVec 5) (ds : BitVec 4) (s : State) : Host.Outcome State Fault Refusal :=
  onData (issueGop 0 t p ts ds) s
/-- `gop` BROADCAST. -/
def execGopBroadcast (t : Nat) (p : BitVec 2) (ts : BitVec 5) (ds : BitVec 4) (s : State) : Host.Outcome State Fault Refusal :=
  onData (issueGop 1 t p ts ds) s
/-- `gop` SNAPSHOT. -/
def execGopSnapshot (t : Nat) (p : BitVec 2) (ts : BitVec 5) (ds : BitVec 4) (s : State) : Host.Outcome State Fault Refusal :=
  onData (issueGop 2 t p ts ds) s
/-- `gop` RESUME. -/
def execGopResume (t : Nat) (p : BitVec 2) (ts : BitVec 5) (ds : BitVec 4) (s : State) : Host.Outcome State Fault Refusal :=
  onData (issueGop 3 t p ts ds) s

/-- SNAP_HOLD passes for a partition (R466): its holds that are due end, and SNAP_EXPIRED is raised. -/
def execSnapHold (part : Nat) (s : State) : Host.Outcome State Fault Refusal :=
  onData (fun k d =>
    (d.fab.holds.filter (fun h => h.1 == part && decide (h.2.2 ≤ k.ticks))).foldl (fun e h => fabEvent k (endHold k e h.2.1) 9 part 0 0) d) s

end Sys2Proof.Machine
end

