-- ==== Sys2Proof/Machine/SailOps.lean ====
section
/-!
DEFINITION. The issues to the Sail units: `sail.cmd` and `sail.fence` (R259 to R264, R268 to R273, R287), `sail.attn` (R299 to R304) and `sail.delta`
(R334, R335).
-/
namespace Sys2Proof.Machine

/-- A descriptor from its fields: byte, bit, width, value. -/
def mkDesc (l : List (Nat × Nat × Nat × Nat)) : Desc :=
  l.foldl (fun x f => setBits x (8 * f.1 + f.2.1) f.2.2.1 f.2.2.2) 0#512

/-- Bytes put into an operand half at an offset (R261). -/
def putAt (l : List Byte) (o : Nat) (b : List Byte) : List Byte :=
  (l ++ List.replicate (o - l.length) 0#8).take o ++ b ++ l.drop (o + b.length)

/-! ### `sail.cmd` and `sail.fence` -/

/-- The selected banks (R260). -/
def selBanks (x : Desc) : List Nat := (List.range (df x 0 15 12)).map (fun i => (df x 0 4 11 + i * df x 0 27 11) % 2048)

/-- Whether a selection names a bank twice (R260). -/
def selTwice (x : Desc) : Bool := decide (1 < df x 0 15 12) && decide (2048 / Nat.gcd (df x 0 27 11) 2048 < df x 0 15 12)

/-- The fields of a command's descriptor (R259, R268, R271). -/
def cmdFields (op : Nat) : List (Nat × Nat × Nat) :=
  [(0, 0, 39), (8, 0, 62), (48, 0, 48), (56, 0, 32), (60, 0, 1)] ++
  (match op with
   | 2 => [(20, 0, 5), (21, 0, 7), (22, 0, 13), (24, 0, 11), (26, 0, 13), (28, 0, 13), (30, 0, 12), (32, 0, 4), (34, 0, 13), (40, 0, 48)]
   | 3 => [(16, 0, 28), (20, 0, 5), (21, 0, 7), (22, 0, 13), (24, 0, 11), (26, 0, 13), (28, 0, 13), (30, 0, 12), (34, 0, 13), (40, 0, 48)]
   | 4 => [(16, 0, 28), (20, 0, 28), (24, 0, 28), (28, 0, 3), (29, 0, 3), (30, 0, 8)]
   | 5 => [(16, 0, 28), (20, 0, 28), (24, 0, 64)]
   | 6 => [(16, 0, 28), (20, 0, 28)]
   | 7 => [(16, 0, 12), (18, 0, 13)]
   | _ => [])

/-- VCONV of a GEMV or DELTA. -/
def cmdVconv (x : Desc) : Bool := (df x 0 0 4 == 2 || df x 0 0 4 == 3) && df x 20 3 1 == 1
/-- Whether a command sends results to a destination (R272). -/
def cmdSends (x : Desc) : Bool := df x 0 0 4 == 7 || ((df x 0 0 4 == 2 || df x 0 0 4 == 3) && df x 0 38 1 == 1)
/-- The bytes that a selected bank sends. -/
def cmdSent (x : Desc) : Nat := if df x 0 0 4 = 7 then df x 18 0 13 else 4 * df x 21 0 7 * df x 24 0 11

/-- The bank ranges that a command's descriptor names, those of DELTA's group table apart (R268, R271). -/
def cmdRanges (x : Desc) : List (Nat × Nat) :=
  match df x 0 0 4 with
  | 3 => [(df x 16 0 28, df x 22 0 13 * df x 24 0 11 * fmtBytes (df x 20 0 3))]
  | 4 => [(df x 16 0 28, df x 24 0 28),
          (df x 20 0 28, df x 24 0 28 / fmtBytes (df x 28 0 3) * fmtBytes (df x 29 0 3))]
  | 5 => [(df x 16 0 28, df x 20 0 28)]
  | 6 => [(df x 16 0 28, df x 20 0 28)]
  | _ => []

/-- The refusals of R268 and R272 for GEMV and DELTA, as far as the descriptor shows. -/
def gemvBad (x : Desc) : Bool :=
  let rows := df x 21 0 7
  let kk := df x 22 0 13
  let n := df x 24 0 11
  let len := df x 8 48 14
  let fl := df x 0 38 1 == 1
  decide (4 ≤ df x 20 0 3) || kk == 0 || decide (4096 < kk) || n == 0 || decide (1024 < n) || decide (64 < rows) ||
  decide (8192 < df x 26 0 13 + rows * kk) || decide (8192 < df x 28 0 13 + rows) || df x 30 0 12 % 8 != 0 ||
  (fl && df x 20 4 1 == 1) || (!fl && decide (4096 < df x 30 0 12 + 4 * rows * n)) ||
  (!cmdVconv x && (decide (len < df x 26 0 13 + rows * kk) || decide (len < df x 28 0 13 + rows))) ||
  (df x 0 0 4 == 2 && (decide (8 < df x 32 0 4) || decide (len < df x 34 0 13 + 16 * df x 32 0 4)))

/-- The refusals of R271 for SCALE_COPY, FILL, SCRUB and RESULT_FLUSH. -/
def moveBad (x : Desc) : Bool :=
  match df x 0 0 4 with
  | 4 =>
    let len := df x 24 0 28
    let out := len / fmtBytes (df x 28 0 3) * fmtBytes (df x 29 0 3)
    len % 64 != 0 || decide (4 ≤ df x 28 0 3) || decide (4 ≤ df x 29 0 3) ||
    (overlaps (df x 16 0 28) len (df x 20 0 28) out &&
      !(df x 16 0 28 == df x 20 0 28 && fmtBytes (df x 28 0 3) == fmtBytes (df x 29 0 3)))
  | 5 => df x 20 0 28 % 32 != 0
  | 6 => df x 20 0 28 % 32 != 0
  | 7 => df x 16 0 12 % 8 != 0 || df x 18 0 13 % 8 != 0 || decide (4096 < df x 16 0 12 + df x 18 0 13)
  | _ => false

/-- The refusals that the descriptor of `sail.cmd` or `sail.fence` shows alone (R260, R262, R287). -/
def cmdBad (fence : Bool) (x : Desc) : Bool :=
  let op := df x 0 0 4
  (if fence then op != 8 else !(decide (2 ≤ op) && decide (op ≤ 7))) || !descOk x (cmdFields op) || selTwice x || decide (2048 < df x 0 15 12) ||
  decide (8192 < df x 8 48 14) || (cmdRanges x).any (fun r => r.1 % 32 != 0 || decide (bankBytes ≤ r.1) || decide (bankBytes < r.1 + r.2)) ||
  (cmdSends x && df x 60 0 1 == 1 && (df x 48 16 32 != 0 || decide (64 ≤ df x 48 4 12))) || ((op == 2 || op == 3) && gemvBad x) || moveBad x || (cmdSends x && df x 60 0 1 == 0 && df x 48 0 48 % 8 != 0)

/-- The refusals of DELTA's group table (R270). -/
def groupsBad (x : Desc) (opnd : List Byte) : Bool :=
  let gs := matGroups 2 x opnd
  let size := df x 22 0 13 * df x 24 0 11 * fmtBytes (df x 20 0 3)
  (List.range (df x 32 0 4)).any (fun i =>
    let e := mfld opnd (df x 34 0 13 + 16 * i) 16
    !reservedZero (BitVec.ofNat 128 e) [(0, 28), (32, 6), (40, 7), (64, 32)]) ||
  gs.any (fun m => m.1 % 32 != 0 || decide (bankBytes ≤ m.1) || decide (bankBytes < m.1 + size) || m.2.2.1 == 0 || decide (64 < m.2.2.1) ||
    decide (df x 21 0 7 < m.2.1 + m.2.2.1)) ||
  (List.range gs.length).any (fun i => (List.range i).any (fun j =>
    let a := gs.getD i (0, 0, 0, none)
    let b := gs.getD j (0, 0, 0, none)
    overlaps a.2.1 a.2.2.1 b.2.1 b.2.2.1))

/-- Whether bank ranges lie in a partition's Sail window (R275, R588). -/
def Ctl.inWindow (k : Ctl) (p : Nat) (r : Nat × Nat) : Bool := r.2 == 0 || inside r.1 r.2 (k.sailBase p) (k.sailSize p)

/-- The operand bytes of a command as its fill leaves them (R261, R268). -/
def cmdOpnd (d : Data) (x : Desc) : List Byte :=
  let base := memBytes d.mem (df x 8 0 48) (df x 8 48 14)
  if cmdVconv x then
    let rows := df x 21 0 7
    let kk := df x 22 0 13
    let vs := (List.range rows).map (fun r => toE4m3 ((List.range kk).map (fun i =>
      bf16.decode (d.rd (df x 40 0 48 + 2 * (r * kk + i)) 2))))
    putAt (putAt base (df x 26 0 13) (vs.flatMap (fun v => v.2.map (fun y => BitVec.ofNat 8 y)))) (df x 28 0 13) (vs.map (fun v => byteOf v.1))
  else base

/-- A Merge stream named as a destination belongs to another partition (R304). -/
def streamPerm (d : Data) (p s : Nat) : Option Status :=
  match d.mstream s with
  | some m => failIf (m.part != p) .perm
  | none => none

/-- A Merge stream named as a destination is not open, or has other rows (R304). -/
def streamBad (d : Data) (s : Nat) (fits : MStream → Bool) : Option Status :=
  match d.mstream s with
  | some m => failIf (!fits m) .badDesc
  | none => some .badDesc

/-- Of the checks of several ranges, a refusal of one step of R81. -/
def anySt (l : List (Option Status)) (st : Status) : Option Status := failIf (l.contains (some st)) st

/-- The block of a Merge engine is in service (R38). -/
def mergeOff (k : Ctl) (e : Nat) : Option Status := failIf (!k.up (e / 4) (4 + e % 4)) .domainOff

/-- Adds an issue and gives its commands to the units. -/
def placeIssue (k : Ctl) (d : Data) (x : SIssue) (cmds : List (Nat × SCmd)) : Data :=
  let d1 := { (d.start x.thread x.opId) with sal := { d.sal with issues := d.sal.issues ++ [x], nextId := d.sal.nextId + 1 } }
  markIssue k (giveCmds cmds d1) x.id

/-- The DPA checks of a `sail.cmd`: the operand bytes, the vectors and each bank's results (R287). -/
def cmdDpas (k : Ctl) (p : Nat) (x : Desc) : List (Option Status) :=
  [if df x 8 48 14 = 0 then none else k.dpaCheck p (df x 8 0 48) (df x 8 48 14) false,
   if cmdVconv x && df x 21 0 7 != 0 then k.dpaCheck p (df x 40 0 48) (2 * df x 21 0 7 * df x 22 0 13) false else none,
   if cmdSends x && df x 60 0 1 == 0 && cmdSent x != 0 then
     (let l := (List.range (df x 0 15 12)).map (fun i => k.dpaCheck p (df x 48 0 48 + i * df x 56 0 32) (cmdSent x) false)
      firstOf [anySt l .badDesc, anySt l .perm, anySt l .domainOff])
   else none]

/-- The checks of a `sail.cmd` or `sail.fence` in the order of R81 (R287). -/
def cmdChecks (k : Ctl) (d : Data) (fence : Bool) (p : Nat) (x : Desc) : List (Option Status) :=
  let op := df x 0 0 4
  let toMrg := cmdSends x && df x 60 0 1 == 1
  let dpas := cmdDpas k p x
  [failIf (cmdBad fence x) .badDesc, anySt dpas .badDesc,
   failIf (op == 6 && p != 0) .perm, failIf (op != 6 && !(cmdRanges x).all (k.inWindow p)) .perm, anySt dpas .perm,
   if toMrg then streamPerm d p (destStream x) else none,
   failIf ((selBanks x).any (fun g => !k.up (g % 4) 10)) .domainOff, anySt dpas .domainOff,
   if toMrg then mergeOff k (destStream x / 64) else none,
   if toMrg then streamBad d (destStream x) (fun m => cmdSent x == m.rows * m.rowBytes) else none]

/-- A command with a length of zero (R271). -/
def cmdEmpty (x : Desc) : Bool :=
  (df x 0 0 4 == 4 && df x 24 0 28 == 0) || ((df x 0 0 4 == 5 || df x 0 0 4 == 6) && df x 20 0 28 == 0) || (df x 0 0 4 == 7 && df x 18 0 13 == 0)

/-- `sail.cmd` and `sail.fence`. What only the operand bytes show is judged behind the zero counts: a poisoned byte (R283), then DELTA's groups (R270, R275). -/
def runSailCmd (fence : Bool) : EngRun := engRun (fun k d t id th o =>
  let x := o.desc
  let op := df x 0 0 4
  let banks := selBanks x
  let sts := (List.range 4).filter (fun i => banks.any (fun g => g % 4 == i))
  let rows := df x 21 0 7
  let opnd := cmdOpnd d x
  let size := df x 22 0 13 * df x 24 0 11 * fmtBytes (df x 20 0 3)
  checked d t id (cmdChecks k d fence th.part x)
    (if banks.isEmpty ∨ ((op = 2 ∨ op = 3) ∧ rows = 0) then d.finish t id .ok 0 0xFFF
     else if cmdEmpty x then d.finish t id .okEmpty 0 0
     else checked d t id
       [failIf (d.bad (df x 8 0 48) (df x 8 48 14) || (cmdVconv x && d.bad (df x 40 0 48) (2 * rows * df x 22 0 13))) .poison,
        failIf (op == 2 && groupsBad x opnd) .badDesc,
        failIf (op == 2 && !(matGroups 2 x opnd).all (fun m => k.inWindow th.part (m.1, size))) .perm]
       (if sts.any (stackFull d banks) then d
        else
          placeIssue k d
            { id := d.sal.nextId, thread := t, opId := id, op := op, part := th.part, left := banks.length, n := banks.length, res := [], detail := 0,
              stream := none, owed := if op = 8 then sts else [], stages := [], got := [], out := none }
            ((List.range banks.length).zip banks |>.map (fun i => (i.2, ⟨d.sal.nextId, i.1, op, th.part, x, opnd, [], none, none, none⟩))))))

/-- `sail.cmd`: the issue; it names no Basket. -/
def execSailCmd (t : Nat) (p : BitVec 2) (ts : BitVec 5) (ds : BitVec 4) (s : State) : Host.Outcome State Fault Refusal :=
  onData (issue 2 0 noBsk (runSailCmd false) t p ts ds) s

/-- `sail.fence`: the issue. -/
def execSailFence (t : Nat) (p : BitVec 2) (ts : BitVec 5) (ds : BitVec 4) (s : State) : Host.Outcome State Fault Refusal :=
  onData (issue 2 1 noBsk (runSailCmd true) t p ts ds) s

/-! ### `sail.attn` -/

/-- What one pass attends (R300): per query its lowest and highest position, as integers. -/
structure Attend where
  q0 : Nat
  nq : Nat
  lo : Nat → Nat
  hi : Nat → Nat

/-- The ranges of a `sail.attn` (R300). -/
def attendOf (k : Ctl) (m l : Nat) (x : Desc) : Attend :=
  let q0 := df x 4 0 32
  let plo := df x 28 0 32
  let phi := df x 32 0 32
  let w := k.fld (mdefKey m 0) 38 20
  ⟨q0, df x 8 0 7,
   fun j => if k.isReel m l then Nat.max plo (q0 + j + 1 - w) else plo,
   fun j => if phi = 0xFFFFFFFF then q0 + j else Nat.min (q0 + j) phi⟩

/-- The parts of the work (R301): first query, queries, lowest and highest position, and the Qc that sets the heads and frames of a command. The common
range is taken in groups of `qc` queries, the edges query by query. -/
def Attend.parts (a : Attend) (qc : Nat) : List (Nat × Nat × Nat × Nat × Nat) :=
  let ln := a.lo (a.nq - 1)
  let h0 := a.hi 0
  let common := if ln ≤ h0 then
      (List.range (ceilDiv a.nq qc)).map (fun i => (i * qc, Nat.min qc (a.nq - i * qc), ln, h0, qc))
    else []
  let edges := (List.range a.nq).flatMap (fun j =>
    [(j, 1, a.lo j, Nat.min (ln - 1) (a.hi j), 1), (j, 1, Nat.max (h0 + 1) ln, a.hi j, 1)].zip [decide (a.lo j < ln), true]
      |>.filterMap (fun y => if y.2 && decide (y.1.2.2.1 ≤ y.1.2.2.2.1) then some y.1 else none))
  common ++ edges

/-- A list in pieces of `n`. -/
def chunks {α : Type} (n : Nat) : Nat → List α → List (List α)
  | 0, _ => []
  | fuel + 1, l => if l.isEmpty then [] else l.take (Nat.max 1 n) :: chunks n fuel (l.drop (Nat.max 1 n))

/-- A command of a `sail.attn` before it has its ranks: bank, first and count of queries, first head and heads, and the frame entries as
(offset in the bank, T_LO, T_HI, lowest position). -/
structure AttnCmd where
  g  : Nat
  j0 : Nat
  nq : Nat
  h0 : Nat
  hc : Nat
  fr : List (Nat × Nat × Nat × Nat)

/-- The shard key (R302). -/
def AttnCmd.key (c : AttnCmd) : Nat := (c.fr.map (fun f => f.2.2.2)).headD 0

/-- The stream rows of a command in the order of its query rows (R265, R299). -/
def AttnCmd.rows (c : AttnCmd) (kh gr : Nat) : List Nat :=
  (List.range c.hc).flatMap (fun h => (List.range c.nq).flatMap (fun j => (List.range gr).map (fun g =>
    ((c.j0 + j) * kh + (c.h0 + h)) * gr + g)))

/-- The commands of one part of the work (R301): bank by bank, in groups of heads and of frames that an operand half holds. -/
def partCmds (k : Ctl) (d : Data) (b l gr : Nat) (s : Shape) (x : Nat × Nat × Nat × Nat × Nat) : List AttnCmd :=
  let tt := Nat.max 1 s.t
  let rows := x.2.2.2.2 * gr
  let hc := Nat.max 1 (Nat.min s.kh (7168 / (rows * (s.dim + 1))))
  let fc := Nat.min 1023 ((8192 - rows * hc * (s.dim + 1)) / 8)
  let pages := (List.range (x.2.2.2.1 / tt + 1 - x.2.2.1 / tt)).map (fun i => x.2.2.1 / tt + i)
  let ents := pages.map (fun p =>
    let f := pageFrame k d b l p
    let lo := Nat.max (x.2.2.1) (p * tt)
    (dpaBank f, (sailOff f, lo - p * tt, Nat.min tt (x.2.2.2.1 + 1 - p * tt), lo)))
  (List.range 2048).flatMap (fun g =>
    let fr := (ents.filter (fun e => e.1 == g)).map (fun e => e.2)
    (chunks fc fr.length fr).flatMap (fun f =>
      (List.range (ceilDiv s.kh hc)).map (fun i => ⟨g, x.1, x.2.1, i * hc, Nat.min hc (s.kh - i * hc), f⟩)))

/-- A command with its operand half and the ranks of its rows (R265, R301, R302). `qa` is the address of the query elements. -/
def AttnCmd.build (d : Data) (c : AttnCmd) (iss idx part : Nat) (s : Shape) (tc dc gr scale qa : Nat) (pf fp : Bool)
    (rank : Nat → Nat) : SCmd :=
  let rows := c.rows s.kh gr
  let conv := rows.map (fun r =>
    let j := r / (s.kh * gr)
    let q := r % (s.kh * gr)
    toE4m3 ((List.range s.dim).map (fun ch =>
      let raw := d.rd (qa + 2 * ((j * s.kh * gr + q) * s.dim + ch)) 2
      if fp then fp16.decode raw else bf16.decode raw)))
  let frs := c.fr.flatMap (fun f => bytesLE 8 (f.1 / 1024 + f.2.1 * 2 ^ 18 + f.2.2.1 * 2 ^ 25))
  let nf := c.fr.length
  { iss := iss, idx := idx, op := 1, part := part
    desc := mkDesc [(0, 0, 4, 1), (0, 38, 1, 1), (16, 0, 3, s.fmt), (16, 3, 2, tc), (16, 5, 2, dc), (16, 7, 1, b2n pf), (17, 0, 5, s.kh),
      (18, 0, 4, c.h0), (19, 0, 5, c.hc), (20, 0, 5, c.nq * gr), (22, 0, 10, nf), (24, 0, 32, scale), (28, 0, 13, 0),
      (30, 0, 13, 8 * nf), (32, 0, 13, 8 * nf + rows.length * s.dim)]
    opnd := frs ++ conv.flatMap (fun v => v.2.map (fun y => BitVec.ofNat 8 y)) ++ conv.map (fun v => byteOf v.1)
    rows := rows.map (fun r => (r, rank r))
    need := none
    vec := none
    offs := none }

/-- A range of bytes of an IN window lies within one slot. -/
def Ctl.inSlot (k : Ctl) (w src n : Nat) : Bool :=
  let sb := k.winSlotBytes w
  decide (src + n ≤ k.winSlots w * sb) && decide (src % Nat.max 1 sb + n ≤ sb)

/-- `sail.attn` (R299 to R304). -/
def runSailAttn : EngRun := engRun (fun k d t id th o =>
  let x := o.desc
  let b := df x 0 0 20
  let l := df x 0 20 8
  let nq := df x 8 0 7
  let gr := df x 9 0 5
  let w := df x 24 0 16
  let stream := 64 * df x 10 0 4 + df x 10 4 6
  let y := d.basket b
  let m := y.model
  let s := k.shape m
  let tt := Nat.max 1 s.t
  let a := attendOf k m l x
  let top := a.hi (nq - 1)
  let pages := if a.lo 0 ≤ top then (List.range (top / tt + 1 - a.lo 0 / tt)).map (fun i => a.lo 0 / tt + i) else []
  let size := 2 * nq * s.kh * gr * s.dim
  let qa := k.winAddr w + df x 16 0 48
  match firstOf
    [failIf (!descOk x [(0, 0, 29), (4, 0, 32), (8, 0, 7), (9, 0, 5), (10, 0, 10), (12, 0, 32), (16, 0, 48), (24, 0, 16), (28, 0, 32), (32, 0, 32)] ||
        nq == 0 || decide (64 < nq) || gr == 0 || decide (16 < gr)) .badDesc,
     k.bskCheck th b, failIf (!k.genRole) .perm, k.winCheck th.part w false true, streamPerm d th.part stream,
     failIf (!k.up (b % 4) 18) .domainOff, mergeOff k (stream / 64), winOff k d w, y.decodeCheck k,
     failIf (k.mdlTier m != 0 || decide (k.mdlLayers m ≤ l) || !k.inSlot w (df x 16 0 48) size || decide (pageMax * tt ≤ top)) .badDesc,
     streamBad d stream (fun z => z.rows == nq * s.kh * gr),
     failIf (pages.any (fun p => !mapped k d b l p)) .badDesc,
     failIf (d.bad qa size) .poison] with
  | some st => d.finish t id st 0 0
  | none =>
    let parts := a.parts (Nat.max 1 (Nat.min nq (16 / gr)))
    let cmds := parts.flatMap (partCmds k d b l gr s)
    let banks := (List.range 2048).filter (fun g => cmds.any (fun c => c.g == g))
    let sts := (List.range 4).filter (fun i => banks.any (fun g => g % 4 == i))
    let count := fun r => (cmds.filter (fun c => (c.rows s.kh gr).contains r)).length
    let most := (List.range (nq * s.kh * gr)).foldl (fun n r => Nat.max n (count r)) 0
    let base := match d.mstream stream with
      | some z => if z.ordered then z.base else 0
      | none => 0
    let tooMany := match d.mstream stream with
      | some z => z.ordered && decide (z.shards < base + most)
      | none => false
    let shared := pages.filter (fun p => pteShared (pageEntry k d b l p))
    let recs := shared.map (fun p => k.frecOf m (pageFrame k d b l p))
    if sts.any (fun i => !k.up i 10) then d.finish t id .domainOff 0 0
    else if tooMany then d.finish t id .badDesc 0 0
    else if sts.any (stackFull d (cmds.map (fun c => c.g))) then d
    else if recs.any (fun r => pinCnt d r == 65535) then d.setSts 0x1200080 3
    else
      let d1 := recs.foldl (fun e r => takePin e t id r) (translates (d.onBasket b (fun z => z.decodeEnter k)) b (pages.map (fun p => (l, p))))
      let d2 := match d1.mstream stream with
        | some z => d1.setStream stream { z with base := z.base + most, qh := some (z.qh.getD (s.kh * gr)) }
        | none => d1
      let rank := fun (c : AttnCmd) r => base + (cmds.filter (fun z => (z.rows s.kh gr).contains r && decide (z.key < c.key))).length
      placeIssue k d2
        { id := d.sal.nextId, thread := t, opId := id, op := 1, part := th.part, left := cmds.length, n := banks.length, res := [], detail := most,
          stream := some stream, owed := [0, 1, 2, 3], stages := [], got := [], out := none }
        (cmds.map (fun c => (c.g, c.build d d.sal.nextId ((banks.findIdx? (fun g => g == c.g)).getD 0) th.part s (k.fld (mdefKey m 0) 1 2)
          (k.fld (mdefKey m 0) 11 2) gr (df x 12 0 32) qa (df x 0 28 1 == 1) (k.winFp16 w) (rank c)))))

/-- `sail.attn`: the issue. -/
def execSailAttn (t : Nat) (p : BitVec 2) (ts : BitVec 5) (ds : BitVec 4) (s : State) : Host.Outcome State Fault Refusal :=
  onData (issue 2 2 descBsk runSailAttn t p ts ds) s

/-! ### `sail.delta` -/

/-- The groups of a list of rows, as (record, rows, first row): consecutive entries whose Baskets pin the same handle (R334). -/
def deltaGroups : List (Nat × Nat) → Nat → List (Nat × Nat × Nat)
  | [], _ => []
  | (h, n) :: r, i =>
    match deltaGroups r (i + n) with
    | (h', n', i') :: q => if h = h' then (h, n + n', i) :: q else (h, n, i) :: (h', n', i') :: q
    | [] => [(h, n, i)]

/-- A DELTA command of a `sail.delta` (R335): `mats` are the groups' MAT, first row, rows and ALPHA; its operand half holds the vectors, their exponents
and the group table. -/
def deltaCmd (iss idx part : Nat) (mats : List (Nat × Nat × Nat × Nat)) (rows kk n : Nat) (acc flush : Bool) (dest : Nat) (vecs : List Byte)
    (need vec : Option Nat) : SCmd :=
  let tab := mats.flatMap (fun m => bytesLE 4 m.1 ++ bytesLE 1 m.2.1 ++ bytesLE 1 m.2.2.1 ++ bytesLE 2 0 ++ bytesLE 4 m.2.2.2 ++ bytesLE 4 0)
  { iss := iss, idx := idx, op := 2, part := part
    desc := mkDesc [(0, 0, 4, 2), (0, 38, 1, b2n flush), (20, 4, 1, b2n acc), (21, 0, 7, rows), (22, 0, 13, kk), (24, 0, 11, n),
      (32, 0, 4, mats.length), (48, 0, 48, dest)]
    opnd := tab ++ vecs
    rows := []
    need := need
    vec := vec
    offs := some (tab.length, tab.length + rows * kk) }

/-- `sail.delta` (R334, R335). The listed Baskets are judged in turn. Each group pins its version (R326). COUNT counts the stage-A and the stage-B banks. -/
def runSailDelta : EngRun := engRun (fun k d t id th o =>
  let x := o.desc
  let l := df x 0 0 8
  let j := df x 0 8 2
  let ne := df x 0 10 6
  let list := df x 8 0 48
  let scr := df x 16 0 48
  let xw := df x 24 0 16
  let ow := df x 32 0 16
  let ents := deltaList d x
  let rr := ents.foldl (fun n e => n + e.2) 0
  let hand := fun (b : Nat) => (d.basket b).adapter.toNat
  let groups := deltaGroups (ents.map (fun e => (hand e.1, e.2))) 0
  let recs := groups.map (fun g => ((adpFind k d th.part g.1).map (fun y => y.1)).getD 0)
  let a0 := recs.headD 0
  let r := avRank d a0
  let pa := avKin d a0 j / 512
  let pb := avNout d a0 j / 32
  let off := df x 34 0 8 * k.winSlotBytes ow + df x 36 0 24
  let slot := fun n => decide (df x 34 0 8 < k.winSlots ow) && decide (df x 36 0 24 + n ≤ k.winSlotBytes ow)
  let xa := k.winAddr xw + df x 28 0 24
  let big := groups.any (fun g => decide (k.fld 0x11000C0 0 6 < g.2.1))
  match firstOf
    [failIf (!descOk x [(0, 0, 16), (8, 0, 48), (16, 0, 48), (24, 0, 16), (28, 0, 24), (32, 0, 16), (34, 0, 8), (36, 0, 24), (40, 0, 16)] ||
        decide (32 < ne) || scr % 64 != 0) .badDesc,
     if !k.winOn xw then some .badDesc else failIf (k.winPart xw != th.part || k.winOut xw) .perm, k.winCheck th.part ow true false,
     if ne = 0 then none else k.dpaCheck th.part list (4 * ne) false,
     failIf (d.bad list (4 * ne)) .poison,
     ents.findSome? (fun e => k.bskCheck th e.1),
     winOff k d xw, winOff k d ow,
     ents.findSome? (fun e => (d.basket e.1).decodeCheck k)] with
  | some st => d.finish t id st 0 0
  | none =>
    if ne = 0 then d.finish t id .ok 0 0xFFF
    else if ents.any (fun e => commitHolds d t o e.1) then d
    else
      let bad :=
        (List.range ne).any (fun i => d.rd (list + 4 * i) 4 / 2 ^ 27 != 0) || ents.any (fun e => e.2 == 0 || decide (32 < e.2)) ||
        decide (32 < rr) || decide (8 < groups.length) || big ||
        (groups.map (fun g => g.1)).eraseDups.length != groups.length || ents.any (fun e => bitsOf (hand e.1) 0 16 == 0xFFFF) ||
        groups.any (fun g => (adpFind k d th.part g.1).isNone) ||
        recs.any (fun a => !avPlaced d a || avRank d a != r || avFirstA d a != avFirstA d a0 || avFirstB d a != avFirstB d a0 ||
          avKin d a j != avKin d a0 j || avNout d a j != avNout d a0 j || decide (avProj d a ≤ j) || decide (k.mdlLayers (avModel d a) ≤ l) ||
          avElem d a == 1) || k.winFp16 xw
      let d0 := if big then d.setSts 0x1100100 1 else d
      let st0 := firstOf [failIf bad .badDesc, k.dpaCheck th.part scr (4 * pa * rr * r) false,
        failIf (decide (k.winSlots xw * k.winSlotBytes xw < df x 28 0 24 + 1024 * pa * rr) || !slot (128 * pb * rr)) .badDesc,
        failIf (d.bad xa (1024 * pa * rr)) .poison]
      match st0 with
      | some st => d0.finish t id st 0 0
      | none =>
        let banksA := (List.range pa).map (fun p => (avFirstA d a0 + p) % 2048)
        let banksB := (List.range pb).map (fun b => (avFirstB d a0 + b) % 2048)
        let sts := (List.range 4).filter (fun i => (banksA ++ banksB).any (fun g => g % 4 == i))
        if sts.any (fun i => !k.up i 10) then d.finish t id .domainOff 0 0
        else if sts.any (stackFull d (banksA ++ (List.range pa).flatMap (fun _ => banksB) ++ banksB)) then d
        else
          let iss := d.sal.nextId
          let gs := groups.zip recs
          let sOf := fun (a : Nat) => l * avProj d a + j
          let matA := gs.map (fun g => (avArea d g.2 + sOf g.2 * 1024 * r, g.1.2.2, g.1.2.1, 0x3F800000))
          let matB := gs.map (fun g => (avArea d g.2 + sOf g.2 * 64 * r, g.1.2.2, g.1.2.1, avAlpha d g.2))
          let stageA := (List.range pa).map (fun p =>
            let vs := (List.range rr).map (fun i => toE4m3 ((List.range 512).map (fun c => bf16.decode (d.rd (xa + (p * rr + i) * 1024 + 2 * c) 2))))
            (banksA.getD p 0, deltaCmd iss p th.part matA rr 512 r false true (scr + p * rr * r * 4)
              (vs.flatMap (fun v => v.2.map (fun y => BitVec.ofNat 8 y)) ++ vs.map (fun v => byteOf v.1)) none none))
          let stageB := (List.range pa).flatMap (fun p => (List.range pb).map (fun b =>
            (banksB.getD b 0, deltaCmd iss (pa + b) th.part matB rr r 32 (decide (0 < p)) false 0 [] (some p) (some (scr + p * rr * r * 4)))))
          let flush := (List.range pb).map (fun b =>
            (banksB.getD b 0, (⟨iss, pa + b, 7, th.part, mkDesc [(0, 0, 4, 7), (18, 0, 13, 128 * rr)], [], [], none, none, some (0, 0)⟩ : SCmd)))
          let cmds := stageA ++ stageB ++ flush
          let d1 := groups.foldl (fun e g => adpPin k e th.part g.1) d
          placeIssue k { d1 with adp := { d1.adp with deltas := d1.adp.deltas ++ [((t, id, th.part), groups.map (fun g => g.1), ents.map (fun e => e.1))] } }
            { id := iss, thread := t, opId := id, op := 2, part := th.part, left := cmds.length, n := pa + pb, res := [], detail := 0, vecs := rr,
              stream := none, owed := [], stages := [], got := [], out := some (ow, off, df x 40 0 16, pb) } cmds)

/-- `sail.delta`: the issue; the Baskets of its list are not named in the completion. -/
def execSailDelta (t : Nat) (p : BitVec 2) (ts : BitVec 5) (ds : BitVec 4) (s : State) : Host.Outcome State Fault Refusal :=
  onData (issue 2 3 noBsk runSailDelta t p ts ds) s

end Sys2Proof.Machine
end

