-- ==== Sys2Proof/Machine/Merge.lean ====
section
/-!
DEFINITION. The Merge engines (R306 to R315): `mrg.open`, the arrival of rows and markers, folding, the end of a stream and the peer contributions of a
sequence split (R317).
-/
namespace Sys2Proof.Machine

/-! ### Streams -/

/-- MRG_TMO in ticks (R318). -/
def Ctl.mrgTmo (k : Ctl) : Nat := k.fld 0x1500040 0 16 * 5000
/-- Row slots of a stream: a row of D = 256 takes two. -/
def MStream.slots (m : MStream) : Nat := m.rows * (if 128 < m.dim then 2 else 1)
/-- Row slots in use on an engine. -/
def slotsUsed (d : Data) (e : Nat) : Nat :=
  (List.range 64).foldl (fun n i => match d.mstream (64 * e + i) with | some m => n + m.slots | none => n) 0
/-- Streams open on an engine. -/
def streamsOpen (d : Data) (e : Nat) : Nat := ((List.range 64).filter (fun i => (d.mstream (64 * e + i)).isSome)).length
/-- Whether a stream has all its inputs (R308). -/
def MStream.complete (m : MStream) : Bool := decide (4 * m.sources ≤ m.marks) && decide (m.peers ≤ m.came.length)

/-- `mrg.open` (R306, R307). An operation that no meter has to colour counts as metered. -/
def runMrgOpen : EngRun := engRun (fun k d t id th o =>
  let x := o.desc
  let e := df x 0 0 4
  let s := 64 * e + df x 0 4 6
  let ordered := df x 0 10 1 == 1
  let toPeer := df x 20 3 1 == 1
  let nd := df x 20 0 3
  let rows := df x 2 0 13
  let dests := if toPeer then [] else (List.range nd).map (fun i =>
    (df x (24 + 8 * i) 0 16, df x (24 + 8 * i) 16 8, df x (24 + 8 * i) 24 24, df x (24 + 8 * i) 48 16))
  let m : MStream :=
    { thread := t, opId := id, part := th.part, ordered := ordered, pfmt := df x 0 11 1 == 1, dim := 64 * 2 ^ df x 0 12 2,
      ofp32 := df x 0 14 1 == 1, rows := rows, sources := df x 4 0 5, peers := df x 5 0 4, shards := df x 6 0 13, area := df x 8 0 48,
      stride := df x 16 0 24, toPeer := toPeer, peerIndex := df x 21 0 4, qp := df x 22 0 14, rEngine := df x 24 0 4, rStream := df x 24 4 6,
      mtag := df x 56 0 16, dests := dests, deadline := k.ticks + k.mrgTmo, marks := 0, aborted := false, base := 0, qh := none, acc := [],
      staged := [], bad := [], came := [], ending := false, retryAt := none }
  checked d t id
    ([failIf (!descOk x [(0, 0, 15), (2, 0, 13), (4, 0, 5), (5, 0, 4), (6, 0, 13), (8, 0, 48), (16, 0, 24), (20, 0, 4), (21, 0, 4), (22, 0, 14),
          (24, 0, 64), (32, 0, 64), (40, 0, 64), (48, 0, 64), (56, 0, 16)] ||
        df x 0 12 2 == 3 || rows == 0 || decide (4096 < rows) || decide (16 < m.sources) || (m.sources == 0 && m.peers == 0) ||
        (toPeer && decide (0 < m.peers)) || (!toPeer && (nd == 0 || decide (4 < nd))) ||
        (ordered && (m.shards == 0 || decide (4096 < m.shards) || m.area % 64 != 0))) .badDesc] ++
     [failIf ((toPeer || decide (0 < m.peers)) && !k.genRole) .perm] ++
     dests.map (fun y => k.winCheck th.part y.1 true false) ++
     [failIf (toPeer && k.qpPart m.qp != some th.part) .perm,
      if ordered then k.dpaCheck th.part m.area (m.shards * rows * m.rowBytes) false else none, mergeOff k e] ++
     dests.map (fun y => winOff k d y.1) ++
     [failIf (dests.any (fun y => decide (k.winSlots y.1 ≤ y.2.1) || decide (k.winSlotBytes y.1 ≤ y.2.2.1) ||
        (m.stride == 0 && decide (k.winSlotBytes y.1 < y.2.2.1 + rows * m.dim * (if m.ofp32 then 4 else 2))))) .badDesc,
      failIf (d.mstream s).isSome .badDesc, failIf (decide (4096 < slotsUsed d e + m.slots)) .noSpace])
    (let d1 := (d.start t id).setStream s m
     match metering k d th o with
     | .entry _ => d1
     | .pass => d1.onOp t id (fun y => { y with metered := true })
     | .unmetered => d1.onOp t id (fun y => { y with metered := true })))

/-- `mrg.open`: the issue; its completion names no Basket (R306). -/
def execMrgOpen (t : Nat) (p : BitVec 2) (ts : BitVec 5) (ds : BitVec 4) (s : State) : Host.Outcome State Fault Refusal :=
  onData (issue 3 0 noBsk runMrgOpen t p ts ds) s

/-! ### Folding (R309, R310) -/

/-- A partial row of `dim` values from its bytes (R267). -/
def rowOf (pfmt : Bool) (dim : Nat) (l : List Byte) : ARow :=
  ⟨fp32.decode (mfld l 0 4), fp32.decode (mfld l 4 4),
    (List.range dim).map (fun c => if pfmt then bf16.decode (mfld l (8 + 2 * c) 2) else fp32.decode (mfld l (8 + 4 * c) 4))⟩

/-- The accumulator of a row (R309). -/
def MStream.accOf (m : MStream) (r : Nat) : ARow :=
  match Tab.get? m.acc r with
  | some (a, b, o) => ⟨fp32.decode a, fp32.decode b, o.map fp32.decode⟩
  | none => ARow.empty m.dim

/-- An empty partial, which is skipped (R309). -/
def ARow.isEmpty (x : ARow) : Bool :=
  (match x.l with | .fin _ n _ => n == 0 | _ => false) && (match x.m with | .inf n => n | _ => false)

/-- Folds one or two partials into a row of a stream; the fold steps and the moves are counted (R320). -/
def foldInto (d : Data) (e : Nat) (m : MStream) (r : Nat) (ps : List ARow) : Data × MStream :=
  let l := ps.filter (fun p => !p.isEmpty)
  if l.isEmpty then (d, m)
  else
    let f := foldRows (m.accOf r) l
    let d1 := d.bump (mrgCnt e 0) 1
    (if f.2 then d1.bump (mrgCnt e 1) 1 else d1,
     { m with acc := Tab.set m.acc r (fp32.result f.1.m, fp32.result f.1.l, f.1.o.map fp32.result) })

/-- Folds a list of partials in pairs. -/
def foldPairs (e : Nat) (r : Nat) : List ARow → Data → MStream → Data × MStream
  | [], d, m => (d, m)
  | [a], d, m => foldInto d e m r [a]
  | a :: b :: q, d, m => let x := foldInto d e m r [a, b]; foldPairs e r q x.1 x.2

/-- A row's bytes in the stream's format: bytes that a row in the other format does not have are free. -/
def fitRow (d : Data) (n : Nat) (l : List Byte) : Data × List Byte :=
  if n ≤ l.length then (d, l.take n)
  else ({ d with free := d.free + 1 }, l ++ bytesLE (n - l.length) (Config.freeValue d.free))

/-- Rows for a stream that has closed are discarded and counted (R314). -/
def lateRow (d : Data) (e : Nat) : Data := (d.setSts mrgSts 4).bump (mrgCnt e 4) 1

/-- A partial row is folded into its row, with a second one where one waits (R310). -/
def foldRow (d : Data) (e s : Nat) (m : MStream) (r : Nat) (parts : List (List Byte)) : Data :=
  let f := parts.foldl (fun (a : Data × List ARow) l =>
    let x := fitRow a.1 m.rowBytes l
    (x.1, a.2 ++ [rowOf m.pfmt m.dim x.2])) (d, [])
  let y := foldInto f.1 e m r f.2
  y.1.setStream s y.2

/-- A partial row is written to its slot of AREA, poisoned or not (R310). One whose rank is not below SHARDS has no slot. -/
def stageRow (d : Data) (e s : Nat) (m : MStream) (r rank : Nat) (bytes : List Byte) (bad : Bool) : Data :=
  if m.shards ≤ rank then lateRow d e
  else
    let a := m.area + (rank * m.rows + r) * m.rowBytes
    let f := if bad then (d, []) else fitRow d m.rowBytes bytes
    ((putResult f.1 a m.rowBytes f.2 bad).setStream s { m with
      staged := m.staged ++ [4096 * r + rank]
      bad := if bad && !m.bad.contains r then r :: m.bad else m.bad }).bump (mrgCnt e 6) m.rowBytes

/-- A partial row arrives: folded at once in ARRIVAL mode, with `more` where another of its row waits, written to its slot of AREA in ORDERED mode (R310). -/
def takeRow (d : Data) (e s r rank : Nat) (bytes : List Byte) (bad : Bool) (more : List (List Byte)) : Data :=
  match d.mstream s with
  | none => lateRow d e
  | some m =>
    if m.ending || decide (m.rows ≤ r) then lateRow d e
    else if m.ordered then stageRow d e s m r rank bytes bad
    else if bad then d.setStream s { m with bad := if m.bad.contains r then m.bad else r :: m.bad }
    else foldRow d e s m r (bytes :: more)

/-- The next thing on its way to a stream leaves the wire. -/
def popWire (d : Data) (s : Nat) : Data := { d with mrg := { d.mrg with wire := Tab.put [] d.mrg.wire s ((d.wireOf s).drop 1) } }

/-- The next partial of a row on its way to a stream, not poisoned, with its place. -/
def mateOf (l : List WItem) (r : Nat) : Option (Nat × Nat × List Byte) :=
  ((List.range l.length).zip l).findSome? (fun x => match x.2 with
    | .row iss q _ bytes bad => if q = r ∧ bad = false then some (x.1, iss, bytes) else none
    | .mark _ => none)

/-- A partial row reaches a Merge stream (R308 to R310, R314). Whether the next partial of its row already waits beside it, so that ARRIVAL mode folds the two at once, is
timing, and free (log entry 45). -/
def execPartialRowArrival (engine stream : Nat) (s : State) : Host.Outcome State Fault Refusal :=
  onData (fun k d =>
    let x := 64 * engine + stream
    match d.wireOf x with
    | .row iss r rank bytes bad :: rest =>
      let open2 := match d.mstream x with | some m => !m.ordered && !m.ending && !bad && decide (r < m.rows) | none => false
      (match if open2 then mateOf rest r else none with
       | some (i, iss2, b2) =>
         let d1 := { d with free := d.free + 1 }
         if Config.freeValue d.free % 2 = 0 then settleIssue k (takeRow (popWire d1 x) engine x r rank bytes bad []) iss
         else
           let d2 := { d1 with mrg := { d1.mrg with wire := Tab.put [] d1.mrg.wire x (rest.eraseIdx i) } }
           settleIssue k (settleIssue k (takeRow d2 engine x r rank bytes bad [b2]) iss) iss2
       | none => settleIssue k (takeRow (popWire d x) engine x r rank bytes bad []) iss)
    | _ => d) s

/-- An END marker reaches a Merge stream (R302, R308): an aborted stream completes once all its markers have come (R314). -/
def execEndMarker (engine stream : Nat) (s : State) : Host.Outcome State Fault Refusal :=
  onData (fun _ d =>
    let x := 64 * engine + stream
    match d.wireOf x with
    | .mark ab :: _ =>
      let d1 := popWire d x
      (match d1.mstream x with
       | none => d1
       | some m =>
         let m1 := { m with marks := m.marks + 1, aborted := m.aborted || ab }
         if m1.aborted ∧ 4 * m1.sources ≤ m1.marks ∧ !m1.ending then d1.finish m.thread m.opId .aborted 0 0 else d1.setStream x m1)
    | _ => d) s

/-! ### The end of a stream -/

/-- The message of a peer contribution: engine, stream, MTAG, PEER_INDEX, HEAD_DIM, rows, then each row as m, l and o in FP32 (R308). -/
def peerMsg (m : MStream) : List Byte :=
  bytesLE 2 (m.rEngine + 16 * m.rStream) ++ bytesLE 2 m.mtag ++ bytesLE 1 m.peerIndex ++ bytesLE 1 0 ++ bytesLE 2 m.dim ++ bytesLE 8 m.rows ++
    (List.range m.rows).flatMap (fun r => (m.accOf r).bytes false)

/-- Sends the rows of a stream to its peer (R308), or completes with what the split binding reports (R314). -/
def sendPeer (d : Data) (s : Nat) (m : MStream) : Data :=
  match (d.qp m.qp).refusal with
  | some st => (if st = .timeout then streamLate d (s / 64) else d).finish m.thread m.opId st 0 0
  | none =>
    (d.setStream s { m with ending := true, retryAt := none }).sendEngine m.qp 3 (opCls d m.thread m.opId) (peerMsg m) (.mrg s m.thread m.opId)

/-- The peer has accepted or refused a contribution: NO_RECV_BUF is tried again after 1 µs (R308, R314). -/
def mrgSent (d : Data) (s t id : Nat) (st : Status) : Data :=
  match d.mstream s with
  | none => d
  | some m =>
    if m.thread ≠ t ∨ m.opId ≠ id then d
    else if st = .noRecvBuf then d.setStream s { m with retryAt := some (d.tick + 500) }
    else (if st = .timeout then streamLate d (s / 64) else d).finish t id st (if st = .ok then m.rows else 0) 0

/-- The partials of a row of an ORDERED stream in order: by rank from its area, then the peers by PEER_INDEX (R310). -/
def orderedParts (d : Data) (m : MStream) (r : Nat) : List ARow :=
  let ranks := (List.range m.shards).filter (fun i => m.staged.contains (4096 * r + i))
  ranks.map (fun i => rowOf m.pfmt m.dim (memBytes d.mem (m.area + (i * m.rows + r) * m.rowBytes) m.rowBytes)) ++
  (List.range 16).flatMap (fun i => (m.came.filter (fun c => c.1 == i)).map (fun c =>
    rowOf false m.dim ((c.2.drop (16 + r * (8 + 4 * m.dim))).take (8 + 4 * m.dim))))

/-- Folds every row of an ORDERED stream. -/
def foldOrdered (d : Data) (e : Nat) (m : MStream) : Data × MStream :=
  (List.range m.rows).foldl (fun acc r => foldPairs e r (orderedParts d m r) acc.1 acc.2) (d, m)

/-- The output codes of a row, and whether it is written as NaN (R309, R313). -/
def MStream.normal (m : MStream) (r : Nat) : List Nat × Bool :=
  let f := if m.ofp32 then fp32 else bf16
  match Tab.get? m.acc r with
  | none => (List.replicate m.dim 0, false)
  | some _ =>
    let a := m.accOf r
    if a.m.isNan || a.l.isNan || a.o.any Val.isNan then (List.replicate m.dim f.nanCode, true)
    else (a.o.map (fun y => f.result (div32 y a.l)), false)

/-- The pieces of a stream's output in one destination, none where it leaves the slot (R295). -/
def MStream.pieces (k : Ctl) (m : MStream) (y : Nat × Nat × Nat × Nat) (rowsB : List (List Byte)) : Option (List (Nat × List Byte)) :=
  let b := m.dim * (if m.ofp32 then 4 else 2)
  let qh := if m.stride = 0 then m.rows else m.qh.getD m.rows
  let n := ceilDiv m.rows qh
  let base := y.2.1 * k.winSlotBytes y.1 + y.2.2.1
  if k.winSlotBytes y.1 < y.2.2.1 + (n - 1) * m.stride + Nat.min qh m.rows * b then none
  else some ((List.range n).flatMap (fun j => k.pieces y.1 (base + j * m.stride) (((rowsB.drop (j * qh)).take qh).flatten)))

/-- A stream with all its inputs finishes (R308, R313). -/
def finishStream (k : Ctl) (d : Data) (e s : Nat) (m0 : MStream) : Data :=
  let worn := if m0.ordered then m0.staged.filter (fun x =>
    d.bad (m0.area + (x % 4096 * m0.rows + x / 4096) * m0.rowBytes) m0.rowBytes) |>.map (fun x => x / 4096) else []
  match (m0.bad ++ worn) with
  | b :: r => (d.setSts mrgSts 1).finish m0.thread m0.opId .poison 0 (r.foldl Nat.min b)
  | [] =>
    let f := if m0.ordered then foldOrdered d e m0 else (d, m0)
    let m := f.2
    if m.toPeer then sendPeer f.1 s m
    else
      let ys := (List.range m.rows).map m.normal
      let rowsB := ys.map (fun y => y.1.flatMap (fun c => bytesLE (if m.ofp32 then 4 else 2) c))
      let ps := m.dests.map (fun y => (y, m.pieces k y rowsB))
      if ps.any (fun y => y.2.isNone) then f.1.finish m.thread m.opId .badDesc 0 0
      else
        let d1 := if (List.range m.rows).any (fun r => !Tab.has m.acc r) then f.1.setSts mrgSts 2 else f.1
        let d2 := if ys.any (fun y => y.2) then d1.setSts mrgSts 3 else d1
        let d3 := d2.setStream s { m with ending := true }
        outputs k d3 m.thread m.opId m.part (ps.map (fun y => (y.1.1, y.2.getD [], y.1.2.2.2))) .ok m.rows 0

/-- A stream with all its inputs finishes, once a meter of its `mrg.open` has coloured it (R308, R487). -/
def execStreamFinish (engine stream : Nat) (s : State) : Host.Outcome State Fault Refusal :=
  onData (fun k d =>
    match d.mstream (64 * engine + stream) with
    | none => d
    | some m => if m.complete && !m.ending && !m.aborted && (match d.op m.thread m.opId with | some o => o.metered | none => false) then finishStream k d engine (64 * engine + stream) m else d) s

/-- MRG_TMO passes (R314): a stream without all its inputs completes with TIMEOUT, or with ABORTED where a marker had the flag; so does one whose
contribution the peer still refuses. -/
def execMrgTmo (engine stream : Nat) (s : State) : Host.Outcome State Fault Refusal :=
  onData (fun k d =>
    match d.mstream (64 * engine + stream) with
    | none => d
    | some m =>
      if k.ticks < m.deadline then d
      else if !m.ending && m.aborted then d.finish m.thread m.opId .aborted 0 0
      else if (!m.ending && !m.complete) || m.retryAt.isSome then
        (streamLate d engine).finish m.thread m.opId .timeout 0 0
      else d) s

/-- A contribution that was refused with NO_RECV_BUF is sent again (R314). -/
def execPeerRetry (engine stream : Nat) (s : State) : Host.Outcome State Fault Refusal :=
  onData (fun k d =>
    match d.mstream (64 * engine + stream) with
    | none => d
    | some m =>
      match m.retryAt with
      | none => d
      | some t => if t ≤ k.ticks ∧ k.ticks < m.deadline then sendPeer d (64 * engine + stream) m else d) s

/-! ### Peer contributions -/

/-- What a stream answers to a contribution on a QP (R314), PERM in a role that takes no part in splits (R19): none accepts it. -/
def peerAnswer (k : Ctl) (d : Data) (q s : Nat) (l : List Byte) : Option Status :=
  if !k.genRole then some .perm else
  match d.mstream s with
  | none => some .noRecvBuf
  | some m =>
    if m.ending then some .noRecvBuf
    else if (d.qp q).part ≠ m.part then some .perm
    else if mfld l 2 2 ≠ m.mtag then some .staleGen
    else if mfld l 6 2 ≠ m.dim ∨ mfld l 8 8 ≠ m.rows ∨ m.toPeer then some .badDesc
    else none

/-- A contribution enters a stream: folded at once in ARRIVAL mode, kept for the end in ORDERED mode. -/
def takePeer (d : Data) (e s : Nat) (l : List Byte) : Data :=
  match d.mstream s with
  | none => d
  | some m =>
    let d1 := d.bump (mrgCnt e 3) 1
    let m1 := { m with came := m.came ++ [(bitsOf (mfld l 4 1) 0 4, l)] }
    let f := if m.ordered then (d1, m1) else
      (List.range m.rows).foldl (fun acc r =>
        foldInto acc.1 e acc.2 r [rowOf false m.dim ((l.drop (16 + r * (8 + 4 * m.dim))).take (8 + 4 * m.dim))]) (d1, m1)
    f.1.setStream s f.2

/-- A peer contribution at the head of a QP (R308, R314, R317). -/
def execPeerContribution (qp : Nat) (s : State) : Host.Outcome State Fault Refusal :=
  onData (fun k d =>
    match d.peekMsg qp 3 (fun _ => true) with
    | none => d
    | some m =>
      let e := mfld m.bytes 0 2 % 16
      let x := 64 * e + mfld m.bytes 0 2 / 16 % 64
      if (mergeOff k e).isSome then d
      else
        match peerAnswer k d qp x m.bytes with
        | some st => takeMsg k (sendNak k d qp m.firstPsn st) qp
        | none => takeMsg k (takePeer d e x m.bytes) qp) s

end Sys2Proof.Machine
end

