-- ==== Sys2Proof/Machine/Transport.lean ====
section
/-!
DEFINITION. The sender of the transport: regions under revocation (R445), completion of operations (R433), the failure of a QP (R418, R443), the
next packet of a QP and its retransmission (R437, R442), and congestion control (R447).
-/
namespace Sys2Proof.Machine

/-- A counter of TTX_CNT (R452). -/
def ttxCnt (i : Nat) : Nat := cntAddr 0x1B 0 i
/-- Sets a bit of TTX_STS (R451). -/
def Data.ttxSts (d : Data) (i : Nat) : Data := d.setSts 0x1B00140 i

/-! ### Regions -/

/-- A region slot never registered. -/
def regionReset : Region := ⟨.free, 0, 0, 0, 0, 0, [], 0, []⟩
/-- Region `i`. -/
def Data.region (d : Data) (i : Nat) : Region := Tab.getD d.ttx.regions i regionReset
/-- Sets region `i`. -/
def Data.setRegion (d : Data) (i : Nat) (r : Region) : Data :=
  { d with ttx := { d.ttx with regions := Tab.put regionReset d.ttx.regions i r } }

/-- A DRAINING region whose accepted operations have all finished becomes FREE under a new GEN, and its revokes complete (R445). -/
def settleRegion (d : Data) (i : Nat) : Data :=
  let r := d.region i
  if r.state = .draining ∧ r.openOps.isEmpty then
    r.revokes.foldl (fun e x => e.finish x.1 x.2 .ok r.abandoned 0)
      (d.setRegion i { r with state := .free, gen := (r.gen + 1) % 2 ^ 17, abandoned := 0, revokes := [] })
  else d

/-- An operation of a QP is accepted on a region. -/
def openRegion (d : Data) (i q : Nat) : Data := d.setRegion i { d.region i with openOps := (d.region i).openOps ++ [q] }
/-- It has finished. -/
def closeRegion (d : Data) (i q : Nat) : Data :=
  settleRegion (d.setRegion i { d.region i with openOps := (d.region i).openOps.erase q }) i

/-- Every operation of a QP on any region is abandoned (R445). -/
def abandonOps (d : Data) (q : Nat) : Data :=
  d.ttx.regions.foldl (fun e x =>
    let r := e.region x.1
    let n := (r.openOps.filter (fun y => y == q)).length
    if n = 0 then e
    else settleRegion (e.setRegion x.1 { r with
      openOps := r.openOps.filter (fun y => y != q)
      abandoned := if r.state = .draining then r.abandoned + n else 0 }) x.1) d

/-! ### Completion -/

/-- The counter of FAB_CNT that a fabric access counts in. -/
def fabKind (opc : Nat) : Nat := if opc = 0x30 then 0 else if opc = 0x32 then 1 else 2

/-- A fabric access or global operation of a partition has completed with DEAD_TARGET: its teardown event is due (R460). -/
def deadPend (d : Data) (p node : Nat) : Data := { d with fab := { d.fab with deadPend := d.fab.deadPend ++ [(p, node)] } }

/-- An operation of a QP completes. A message of a Spool operation completes that operation only when it fails. -/
def completeTx (d : Data) (part node : Nat) (o : TxOp) (st : Status) (count : Nat) : Data :=
  match o.owner with
  | .nobody => d
  | .thr t i _ => d.finish t i st count 0
  | .eng t i c => d.finish t i st (if st = .ok then c else 0) 0
  | .mrg s t i => mrgSent d s t i st
  | .spool t i => if st.good then d else d.finish t i st 0 0
  | .fab t i _ =>
    let d1 := (d.finish t i st count 0).bump (fabCnt (fabKind o.opc)) 1
    let d2 := if fabKind o.opc < 2 then d1.bump (fabCnt 3) count else d1
    if st = .deadTarget then deadPend d2 part node else d2

/-- Every byte of an operation has been handed to packets, or no more will be. -/
def TxOp.allSent (o : TxOp) : Bool := o.fail.isSome || (o.firstPsn.isSome && decide (o.len ≤ o.sent))

/-- The operations of a QP that are sent and acknowledged in full complete, with the bytes placed (R430). What a snapshot waits for may then
have drained (R466). -/
def settleTx (k : Ctl) (d : Data) (q : Nat) : Data :=
  let x := d.qp q
  let ended := fun (o : TxOp) => o.allSent && !x.unacked.any (fun u => u.opId == o.id)
  let d1 := d.onQp q (fun y => { y with txq := y.txq.filter (fun o => !ended o) })
  gopAll k ((x.txq.filter ended).foldl (fun e o => completeTx e x.part x.peerNode o (o.fail.getD .ok) o.sent) d1)

/-! ### The end of a QP -/

/-- A QP leaves READY or is freed: every operation on it completes with a status, posted buffers included, accepted operations on regions are
abandoned, and what the engines hold for it ends by `f` (R418, R445). -/
def qpClose (k : Ctl) (d : Data) (q : Nat) (st : Status) (final : Qp) (f : Data → Data) : Data :=
  let x := d.qp q
  let d1 := x.txq.foldl (fun e o => completeTx e x.part x.peerNode o st 0) (d.setQp q final)
  let d2 := x.slots.foldl (fun e s => if s.2.posted then e.finish s.2.thread s.2.opId st 0 0 else e) d1
  let d3 := match x.connOp with
    | some (t, i) => d2.finish t i st 0 0
    | none => d2
  gopAll k (gopQpFail k (f (abandonOps d3 q)) q st)

/-- A QP leaves READY or is freed as one that has failed (R107). -/
def qpEnd (k : Ctl) (d : Data) (q : Nat) (st : Status) (final : Qp) : Data := qpClose k d q st final (fun e => enginesQpFail k e q st)

/-- A READY QP enters ERROR with TIMEOUT or DEAD_TARGET (R418). Its receive slots keep their GEN. -/
def qpError (k : Ctl) (d : Data) (q : Nat) (st : Status) : Data :=
  let x := d.qp q
  if x.state ≠ .ready then d
  else
    (qpEnd k d q st { x with
      state := .error
      status := st.code
      txq := []
      unacked := []
      held := []
      rx := none
      applied := 0
      ackDue := none
      slots := Tab.mapVals x.slots (fun _ s => { s with posted := false }) }).ttxSts (if st = .timeout then 0 else 1)

/-- A QP becomes FREE (R418, R79); it keeps only its INCARN. -/
def qpFree (k : Ctl) (d : Data) (q : Nat) (st : Status) : Data := qpEnd k d q st { qpReset with incarn := (d.qp q).incarn }

/-- A QP becomes FREE with its partition or in a fabric reset (R79, R93, R418): no Basket reverts and none is orphaned, since R107 names neither. -/
def qpDrop (k : Ctl) (d : Data) (q : Nat) : Data :=
  qpClose k d q .aborted { qpReset with incarn := (d.qp q).incarn } (fun e => enginesQpEnd k e q .aborted)

/-- A connect ends without success: the QP returns to INIT (R418). -/
def connFail (d : Data) (q : Nat) (st : Status) : Data :=
  let x := d.qp q
  let d1 := d.setQp q { x with state := .init, connOp := none }
  match x.connOp with
  | some (t, i) => d1.finish t i st 0 0
  | none => d1

/-- A node is lost: READY QPs toward it enter ERROR with DEAD_TARGET, connecting ones return to INIT (R443). -/
def nodeLost (k : Ctl) (d : Data) (node : Nat) : Data :=
  d.ttx.qps.foldl (fun e y =>
    let x := e.qp y.1
    if x.peerNode ≠ node then e
    else if x.state = .ready then qpError k e y.1 .deadTarget
    else if x.state = .connecting then connFail e y.1 .deadTarget
    else e) d

/-! ### Packets of a QP -/

/-- PAYLOAD in bytes (R420). -/
def Qp.payBytes (x : Qp) : Nat := 1024 * 2 ^ x.payload

/-- The line rate of the link a QP sends on, in Gb/s; of its first link while none is UP. -/
def lineRate (k : Ctl) (d : Data) (q : Nat) : Nat :=
  match Data.pathOf k d q, (d.qp q).links with
  | some x, _ => modeRate (k.portMode x.1)
  | none, x :: _ => modeRate (k.portMode x.1)
  | none, [] => 0

/-- The retransmission timer for a count k (R437). -/
def Ctl.rto (k : Ctl) (n : Nat) : Nat := usTicks (k.fld 0x1B00080 16 8 * 2 ^ Nat.min n 6)
/-- RETRY_MAX (R449). -/
def Ctl.ttxRetry (k : Ctl) : Nat := k.fld 0x1B00080 24 4
/-- MAX_INFLIGHT. -/
def Ctl.maxInflight (k : Ctl) : Nat := k.fld 0x1B00080 32 12
/-- ACK_EVERY. -/
def Ctl.ackEvery (k : Ctl) : Nat := k.fld 0x1B00080 48 8
/-- MIN_RATE. -/
def Ctl.minRate (k : Ctl) : Nat := k.fld 0x1B00088 32 12

/-- Opcodes whose packets stay unacknowledged until their answer comes: atomics (R440) and fabric loads (R457). -/
def answered (opc : Nat) : Bool := opc == 3 || opc == 4 || opc == 0x33 || opc == 0x34 || opc == 0x30
/-- Atomics. -/
def isAtomic (opc : Nat) : Bool := answered opc && opc != 0x30

/-- What a QP would send next: a packet again, or the next packet of an operation. -/
inductive NextTx where
  | again (u : SentPkt)
  | op (o : TxOp)

/-- The class of what is sent. -/
def NextTx.cls : NextTx → Nat
  | .again u => u.pkt.cls
  | .op o => o.cls

/-- What a READY QP would send next, as far as its path, pacer and regulator permit (R442, R447, R493): packets to be sent again, then load data,
then operations in the order they came, within MAX_INFLIGHT and 64 atomics (R437, R440), past those that a snapshot holds (R466). -/
def nextTx (k : Ctl) (d : Data) (q : Nat) : Option NextTx :=
  let x := d.qp q
  if x.state ≠ .ready ∨ (Data.pathOf k d q).isNone ∨ k.ticks < x.paceAt ∨ !Data.mayGrant k d x.part 1 then none
  else
    match x.unacked.find? (fun u => u.again) with
    | some u => some (.again u)
    | none =>
      match x.txq.find? (fun o => o.opc == 0x31) with
      | some o => some (.op o)
      | none =>
        match x.txq.find? (fun o => !o.allSent && !heldTx d x.part o) with
        | none => none
        | some o =>
          if k.maxInflight ≤ x.unacked.length then none
          else if isAtomic o.opc ∧ 64 ≤ (x.unacked.filter (fun u => isAtomic u.pkt.opcode)).length then none
          else some (.op o)

/-- A packet with a PSN, or of load data, of a QP toward its peer (R425). Load data is not encrypted, having no PSN for a nonce. -/
def Qp.dataPkt (k : Ctl) (x : Qp) (q opc cls psn : Nat) (first last : Bool) (ext : Ext) (data : List Byte) : Packet :=
  { x.ctrl k q opc ext with
    cls := cls
    sec := x.sec && opc != 0x31
    first := first
    last := last
    psn := psn
    data := data }

/-- Sends a packet that the pacer counts (R447). -/
def sendPaced (k : Ctl) (d : Data) (q : Nat) (p : Packet) : Data :=
  match Data.pathOf k d q with
  | none => d
  | some _ =>
    let d1 := Data.sendQp k d q p
    let d2 := if p.opcode = 0x31 then d1 else d1.bump (ttxCnt 0) 1
    let d3 := if p.retx then d2.bump (ttxCnt 1) 1 else d2
    d3.onQp q (fun x => { x with paceAt := Nat.max x.paceAt k.ticks + ceilDiv (4 * pktBytes p) (Nat.max 1 x.rate) })

/-- Changes the record of one unacknowledged packet. -/
def onSent (d : Data) (q psn : Nat) (f : SentPkt → SentPkt) : Data :=
  d.onQp q (fun x => { x with unacked := x.unacked.map (fun u => if u.pkt.psn = psn then f u else u) })

/-- A packet is sent again with RETX = 1 and its timer restarts (R437); with no link UP nothing is sent and the timer runs (R442). -/
def resend (k : Ctl) (d : Data) (q psn : Nat) : Data :=
  match (d.qp q).unacked.find? (fun u => u.pkt.psn == psn) with
  | none => d
  | some u =>
    sendPaced k (onSent d q psn (fun v => { v with again := false, marks := 0, due := k.ticks + k.rto v.k })) q
      { u.pkt with retx := true, txTime := k.ns % 2 ^ 32 }

/-- The bytes of an operation from offset `o`, and whether its source is poisoned there. -/
def TxOp.part (d : Data) (x : TxOp) (o n : Nat) : List Byte × Bool :=
  match x.src with
  | some a => (memBytes d.mem (a + o) n, d.bad (a + o) n)
  | none => ((x.inl.drop o).take n, false)

/-- The extension of an operation's packet from byte `o` on (R427). -/
def TxOp.ext (x : TxOp) (o : Nat) : Ext :=
  match x.opc with
  | 2 => .write x.target (x.off + o) x.len x.fin
  | 3 => .atomic x.target x.off x.o1 x.o2
  | 4 => .atomic x.target x.off x.o1 x.o2
  | 0x30 => .fload x.off x.len
  | 0x31 => .floadResp x.o1 o
  | 0x32 => .fstore (x.off + o) x.len
  | 0x33 => .atomic 0 x.off x.o1 x.o2
  | 0x34 => .atomic 0 x.off x.o1 x.o2
  | 0x39 => x.gop
  | 0x3A => x.gop
  | _ => .msg x.consumer x.len o

/-- Replaces an operation of a QP's queue. -/
def setTx (d : Data) (q : Nat) (o : TxOp) : Data :=
  d.onQp q (fun x => { x with txq := x.txq.map (fun y => if y.id = o.id then o else y) })

/-- Sends the next packet of an operation. A poisoned source, or one that cannot be read, stops the operation there (R433). A SEC QP whose count of PSN wraps would overflow
enters ERROR (R428). The last packet of load data ends its access of the region. -/
def sendNew (k : Ctl) (d : Data) (q : Nat) (o : TxOp) : Data :=
  let x := d.qp q
  let whole := answered o.opc
  let n := if whole then 0 else Nat.min x.payBytes (o.len - o.sent)
  let b := o.part d o.sent n
  let rd := match o.src with | some a => hbmLink k d .read (a + o.sent) n | none => (d, false)
  let done := whole || decide (o.len ≤ o.sent + n)
  if o.opc = 0x31 then
    let d1 := sendPaced k d q (x.dataPkt k q 0x31 o.cls 0 (o.sent == 0) done (o.ext o.sent) b.1)
    if done then closeRegion (d1.onQp q (fun y => { y with txq := y.txq.filter (fun z => z.id != o.id) })) o.o2 q
    else setTx d1 q { o with sent := o.sent + n }
  else if rd.2 then settleTx k (setTx rd.1 q { o with fail := some .uncorrectable }) q
  else if b.2 then settleTx k (setTx d q { o with fail := some .poison }) q
  else if x.sec ∧ x.wraps = 2 ^ 16 then qpError k d q .timeout
  else
    let p := x.dataPkt k q o.opc o.cls x.nextPsn o.firstPsn.isNone done (o.ext o.sent) b.1
    let d1 := setTx d q { o with
      sent := if whole then o.len else o.sent + n
      firstPsn := some (o.firstPsn.getD x.nextPsn)
      lastPsn := some x.nextPsn }
    let d2 := d1.onQp q (fun y => { y with
      nextPsn := (x.nextPsn + 1) % 2 ^ 24
      wraps := if x.nextPsn + 1 = 2 ^ 24 then x.wraps + 1 else x.wraps
      unacked := y.unacked ++ [⟨p, o.id, 0, k.ticks + k.rto 0, 0, false, false⟩] })
    sendPaced k d2 q p

/-- Whether an operation of a QP is prompt work in role P+G (R239): a message of a prefix pull or an offer, or of a push or its answer that names a Basket of that kind. -/
def promptMsg (k : Ctl) (d : Data) (o : TxOp) : Bool :=
  k.role == 4 && o.opc == 5 && o.consumer == 1 &&
  (match msgType o.inl with
   | 0x10 | 0x18 | 0x1A => true
   | 0x02 => promptBsk k d (msgRecv o.inl)
   | 0x01 | 0x03 | 0x04 | 0x07 => promptBsk k d (msgSend o.inl)
   | _ => false)

/-- Whether what a QP would send next is prompt work. -/
def promptNext (k : Ctl) (d : Data) (q : Nat) : Bool :=
  match nextTx k d q with
  | some (.op o) => promptMsg k d o
  | some (.again u) => (d.qp q).txq.any (fun o => o.id == u.opId && promptMsg k d o)
  | none => false

/-- The tick from which a QP is ready with what it sends next: its pacer permits a frame, and its operation is there (R492). -/
def readySince (k : Ctl) (d : Data) (q : Nat) : Nat :=
  Nat.max (d.qp q).paceAt (match nextTx k d q with | some (.op o) => o.at_ | _ => 0)

/-- A link's arbiter (R492): class 0 in the order in which its QPs became ready, the others class by class under R485; within a class generation work before prompt work, whose
QPs take turns. -/
def arbiterPicks (k : Ctl) (d : Data) (l : Nat × Nat) (q c : Nat) : Bool :=
  let a := 4 * l.1 + l.2
  let ready := fun (cl y : Nat) => Data.pathOf k d y == some l && ((nextTx k d y).map NextTx.cls) == some cl
  let qs := d.ttx.qps.map (fun y => y.1)
  let all := qs.filter (ready c)
  let gen := all.filter (fun y => !promptNext k d y)
  let both := if gen.isEmpty then all else gen
  let mine := if c = 0 then both.filter (fun y => both.all (fun z => decide (readySince k d y ≤ readySince k d z))) else both
  let last := Tab.getD d.ttx.turns (8 * a + c) 0
  let turn := match mine.find? (fun y => decide (last < y)) with
    | some y => some y
    | none => mine.head?
  pickClass d.ttx.tags a (fun cl => qs.any (ready cl)) == some c && turn == some q

/-- The next packet of a QP leaves where its pacer, its regulator, its link's arbiter and the power cap permit (R447, R492, R683). -/
def execPacketTransmit (qp : Nat) (s : State) : Host.Outcome State Fault Refusal :=
  onData (fun k d =>
    match Data.pathOf k d qp, nextTx k d qp with
    | some l, some nx =>
      let a := 4 * l.1 + l.2
      let g := capGrant k d (16 + a) nx.cls (d.qp qp).part false
      if !arbiterPicks k d l qp nx.cls then d
      else if !g.2 then g.1
      else
        let len := match nx with
          | .again u => pktBytes u.pkt
          | .op o => pktBytes ((d.qp qp).dataPkt k qp o.opc o.cls 0 false false (o.ext 0)
              (List.replicate (if answered o.opc then 0 else Nat.min (d.qp qp).payBytes (o.len - o.sent)) 0#8))
        let d1 := { g.1 with ttx := { g.1.ttx with
          tags := serveClass k d.ttx.tags a nx.cls len
          turns := Tab.set d.ttx.turns (8 * a + nx.cls) qp } }
        match nx with
        | .again u => resend k d1 qp u.pkt.psn
        | .op o => sendNew k d1 qp o
    | _, _ => d) s

/-- A packet's retransmission timer expires (R437): it is sent again with k one higher and the rate halved (R447), or, with k at RETRY_MAX, the
QP enters ERROR with TIMEOUT. -/
def execQpRetxTimer (qp psn : Nat) (s : State) : Host.Outcome State Fault Refusal :=
  onData (fun k d =>
    match (d.qp qp).unacked.find? (fun u => u.pkt.psn == psn) with
    | none => d
    | some u =>
      if (d.qp qp).state ≠ .ready ∨ k.ticks < u.due then d
      else if k.ttxRetry ≤ u.k then qpError k d qp .timeout
      else
        let d1 := (onSent d qp psn (fun v => { v with k := v.k + 1 })).onQp qp (fun x => { x with rate := Nat.max k.minRate (x.rate / 2) })
        resend k d1 qp psn) s

/-! ### Acknowledgements at the sender -/

/-- The rate after a round trip of `t` ns (R447), in whole Gb/s, rounded down. -/
def nextRate (k : Ctl) (line rate t : Nat) : Nat :=
  let target := k.fld 0x1B00088 0 16 * 100
  if t ≤ target then Nat.min line (rate + k.fld 0x1B00088 20 12)
  else Nat.max k.minRate (rate * (16 * t - k.fld 0x1B00088 16 4 * (t - target)) / (16 * t))

/-- The sender takes one delay measurement a round trip (R447). -/
def takeRtt (k : Ctl) (d : Data) (q echo : Nat) : Data :=
  let t := (k.ns % 2 ^ 32 + 2 ^ 32 - echo % 2 ^ 32) % 2 ^ 32
  if k.ticks < (d.qp q).rttAt then d
  else d.onQp q (fun x => { x with rate := nextRate k (lineRate k d q) x.rate t, rttAt := k.ticks + t / 2 })

/-- Every PSN up to `a` is acknowledged. Packets that wait for an answer stay until it comes. Progress sets the count of every packet still
unacknowledged to 0 and restarts its timer (R437). -/
def ackUpTo (k : Ctl) (d : Data) (q a : Nat) : Data :=
  let covered := fun (u : SentPkt) => decide (psnSub a u.pkt.psn < 2 ^ 23)
  let x := d.qp q
  if !x.unacked.any (fun u => covered u && !(answered u.pkt.opcode && u.sacked)) then d
  else
    settleTx k (d.onQp q (fun y => { y with
      unacked := (y.unacked.filter (fun u => !covered u || answered u.pkt.opcode)).map (fun u =>
        { u with k := 0, due := k.ticks + k.rto 0, sacked := u.sacked || covered u }) })) q

/-- The SACK marks of an ACK: packets reported are received; a packet still missing behind a reported one is sent again at its third mark
(R437). -/
def takeSack (k : Ctl) (d : Data) (q a : Nat) (sack : BitVec 64) : Data :=
  let got := fun (psn : Nat) => let i := psnSub psn (a + 2); decide (i < 64) && bitAt sack i
  let tops := ((List.range 64).filter (fun i => bitAt sack i)).map (fun i => (a + 2 + i) % 2 ^ 24)
  let late := fun (u : SentPkt) => !u.sacked && !got u.pkt.psn && tops.any (fun t => decide (0 < psnSub t u.pkt.psn) && decide (psnSub t u.pkt.psn < 2 ^ 23))
  let due := ((d.qp q).unacked.filter (fun u => late u && decide (2 ≤ u.marks))).map (fun u => u.pkt.psn)
  let d1 := d.onQp q (fun y => { y with unacked := y.unacked.map (fun u =>
    { u with sacked := u.sacked || got u.pkt.psn, marks := if late u then u.marks + 1 else u.marks }) })
  due.foldl (fun e psn => resend k e q psn) d1

/-- Whether an answer from the peer is for a READY QP as it now is: its node and its INCARN (R425, R435). -/
def fromPeer (d : Data) (p : Packet) : Bool :=
  (d.qp p.dstQp).state == .ready && (d.qp p.dstQp).peerNode == p.srcNode && (d.qp p.dstQp).incarn == p.incarn

/-- A received packet that is no data packet: it counts for nothing unless this Kratal takes part in the transport (R29), on a link that
passes frames, with its trailer right (R428). -/
def onPacket (opc port link : Nat) (crc : Bool) (p : Packet) (f : Ctl → Data → Data) (k : Ctl) (d : Data) : Data :=
  if !k.nodeOn || !Data.carries k d (port, link) || p.opcode != opc then d
  else if !crc then d.bump (ttxCnt 6) 1
  else f k d

/-- The sender takes an ACK (R437, R438, R447). -/
def execAck (port link : Nat) (crc : Bool) (pkt : Packet) (s : State) : Host.Outcome State Fault Refusal :=
  onData (onPacket 0x10 port link crc pkt (fun k d =>
    match pkt.ext with
    | .ack a _ echo sack =>
      if !fromPeer d pkt then d
      else takeSack k (takeRtt k (ackUpTo k d pkt.dstQp a) pkt.dstQp echo) pkt.dstQp a sack
    | _ => d)) s

/-- The sender takes a NAK (R443): DEAD_TARGET fails the QP; any other status refuses the operation whose packet it names, at once, and its
packets not yet sent are dropped. A NAK that names no unacknowledged packet of the QP is discarded and counted. -/
def execNak (port link : Nat) (crc : Bool) (pkt : Packet) (s : State) : Host.Outcome State Fault Refusal :=
  onData (onPacket 0x11 port link crc pkt (fun k d =>
    match pkt.ext with
    | .nak psn code =>
      let x := d.qp pkt.dstQp
      match x.unacked.find? (fun u => u.pkt.psn == psn) with
      | none => d.bump (ttxCnt 8) 1
      | some u =>
        if x.state = .free ∨ x.peerNode ≠ pkt.srcNode then d.bump (ttxCnt 8) 1
        else if code = Status.deadTarget.code then qpError k d pkt.dstQp .deadTarget
        else
          let d1 := d.onQp pkt.dstQp (fun y => { y with
            txq := y.txq.filter (fun o => o.id != u.opId)
            unacked := y.unacked.filter (fun v => !(v.opId == u.opId && answered v.pkt.opcode)) })
          match x.txq.find? (fun o => o.id == u.opId) with
          | some o => gopAll k (completeTx d1 x.part x.peerNode o ((Status.ofCode? code).getD .checkFail) 0)
          | none => d1
    | _ => d)) s

/-- The initiator takes the result of an atomic (R430, R440): with OK the old value is written to LOCAL. It acknowledges every PSN up to its
own (R436). -/
def execAtomicResp (port link : Nat) (crc : Bool) (pkt : Packet) (s : State) : Host.Outcome State Fault Refusal :=
  onData (onPacket 0x12 port link crc pkt (fun k d =>
    match pkt.ext with
    | .resp psn code val =>
      let q := pkt.dstQp
      if !fromPeer d pkt then d
      else
        match (d.qp q).unacked.find? (fun u => u.pkt.psn == psn && isAtomic u.pkt.opcode) with
        | none => ackUpTo k d q psn
        | some u =>
          let st : Status := (Status.ofCode? code).getD .checkFail
          let d1 := match (d.qp q).txq.find? (fun o => o.id == u.opId) with
            | none => d
            | some o =>
              match o.owner with
              | .thr _ _ a => if st = Status.ok then d.wr a 8 val else d
              | .fab _ _ a => if st = Status.ok then d.wr a 8 val else d
              | _ => d
          let d2 := d1.onQp q (fun y => { y with
            txq := y.txq.map (fun (o : TxOp) => if o.id = u.opId ∧ st ≠ Status.ok then { o with fail := some st, sent := 0 } else o) })
          let d3 := ackUpTo k d2 q psn
          settleTx k (d3.onQp q (fun y => { y with unacked := y.unacked.filter (fun v => v.pkt.psn != psn) })) q
    | _ => d)) s

/-- The initiator takes load data into LOCAL (R456, R457). The access is complete once every packet of it has come. -/
def execFloadResp (port link : Nat) (crc : Bool) (pkt : Packet) (s : State) : Host.Outcome State Fault Refusal :=
  onData (onPacket 0x31 port link crc pkt (fun k d =>
    match pkt.ext with
    | .floadResp psn off =>
      let q := pkt.dstQp
      let x := d.qp q
      match x.txq.find? (fun o => o.firstPsn == some psn && o.opc == 0x30) with
      | none => d
      | some o =>
        if !fromPeer d pkt ∨ o.len < off + pkt.data.length then d
        else
          let d1 := match o.owner with
            | .fab _ _ a => d.wrBytes (a + off) pkt.data
            | _ => d
          let i := off / x.payBytes
          let got := if o.got.testBit i then o.got else o.got + 2 ^ i
          let d2 := setTx d1 q { o with got := got }
          if got = 2 ^ ceilDiv o.len x.payBytes - 1 then
            settleTx k (d2.onQp q (fun y => { y with unacked := y.unacked.filter (fun v => v.pkt.psn != psn) })) q
          else d2
    | _ => d)) s

end Sys2Proof.Machine
end

