-- ==== Sys2Proof/Machine/TransportOps.lean ====
section
/-!
DEFINITION. The transport's commands: queue pairs and their handshake (R417 to R422), operations (R430 to R433), the receive pipeline (R434 to
R440), and regions (R444 to R446).
-/
namespace Sys2Proof.Machine

/-! ### The connect handshake -/

/-- What a connect packet of a QP carries (R427). -/
def Qp.connExt (x : Qp) (q : Nat) (st : Nat) : Ext := .conn q x.incarn x.payload x.sec st

/-- Whether a QP holds a path set toward the sender of a packet (R424). -/
def Qp.toward (x : Qp) (node qp : Nat) : Bool := x.connected && x.peerNode == node && x.peerQp == qp

/-- An answer to a packet for a QP: on the QP's own path set where it has one toward the requester, else on the link on which the packet
arrived, if it still passes frames (R424, R443). -/
def answerPkt (k : Ctl) (d : Data) (q port link : Nat) (p : Packet) (rq opc : Nat) (ext : Ext) : Data :=
  let x := d.qp q
  if x.toward p.srcNode rq then Data.sendQp k d q (x.ctrl k q opc ext)
  else if Data.carries k d (port, link) then
    d.sendOnLink (port, link) { qpReset.ctrl k q opc ext with
      dstNode := p.srcNode
      dstQp := rq
      part := p.part
      incarn := 0
      v4 := p.v4
      addr := p.addr }
  else d

/-- A QP becomes READY (R418): it holds the peer's INCARN, both PSN counts start at 0, and it sends at the line rate (R447). -/
def qpReady (k : Ctl) (d : Data) (q incarn : Nat) : Data :=
  let x := d.qp q
  let d1 := d.setQp q { x with
    state := .ready
    peerIncarn := incarn
    connOp := none
    rate := lineRate k d q
    rttAt := 0
    paceAt := 0
    nextPsn := 0
    wraps := 0
    epsn := 0
    applied := 0
    ackDue := none
    echo := 0
    cache := [] }
  match x.connOp with
  | some (t, i) => d1.finish t i .ok 0 0
  | none => d1

/-- A QP in CONNECTING sends its CONN_REQ; the next is due 100 µs later (R421). -/
def sendConnReq (k : Ctl) (d : Data) (q : Nat) : Data :=
  let x := d.qp q
  (Data.sendQp k d q (x.ctrl k q 0x20 (x.connExt q 0))).onQp q (fun y => { y with connAt := k.ticks + usTicks 100 })

/-- A QP in CONNECTING sends CONN_REQ every 100 µs (R421). -/
def execConnReqResend (qp : Nat) (s : State) : Host.Outcome State Fault Refusal :=
  onData (fun k d => if (d.qp qp).state = .connecting ∧ (d.qp qp).connAt ≤ k.ticks then sendConnReq k d qp else d) s

/-- A CONN_REQ is answered by the state of the QP it names (R421). -/
def execConnReq (port link : Nat) (crc : Bool) (pkt : Packet) (s : State) : Host.Outcome State Fault Refusal :=
  onData (onPacket 0x20 port link crc pkt (fun k d =>
    match pkt.ext with
    | .conn rq inc pay sec _ =>
      let q := pkt.dstQp
      let x := d.qp q
      let mine := x.peerNode == pkt.srcNode && x.peerQp == rq
      let answer := fun (e : Data) (opc : Nat) (st : Status) => answerPkt k e q port link pkt rq opc (x.connExt q st.code)
      if k.qpPart q ≠ some pkt.part then
        let d1 := answer d 0x22 .perm
        if x.state = .connecting ∧ mine then connFail d1 q .perm else d1
      else if x.state = .connecting ∧ mine then
        if pay ≠ x.payload ∨ sec ≠ x.sec then connFail (answer d 0x22 .cfgInvalid) q .cfgInvalid
        else answer (qpReady k d q inc) 0x21 .ok
      else if x.state = .ready ∧ mine ∧ x.peerIncarn = inc then answer d 0x21 .ok
      else if x.state = .free ∨ x.state = .init then answer d 0x23 .ok
      else answer d 0x22 .deadTarget
    | _ => d)) s

/-- CONN_ACC makes the CONNECTING QP READY (R418). -/
def execConnAcc (port link : Nat) (crc : Bool) (pkt : Packet) (s : State) : Host.Outcome State Fault Refusal :=
  onData (onPacket 0x21 port link crc pkt (fun k d =>
    match pkt.ext with
    | .conn rq inc _ _ _ =>
      if (d.qp pkt.dstQp).state = .connecting ∧ (d.qp pkt.dstQp).toward pkt.srcNode rq then qpReady k d pkt.dstQp inc else d
    | _ => d)) s

/-- CONN_REJ returns the CONNECTING QP to INIT, and its connect completes with the refusal (R418). -/
def execConnRej (port link : Nat) (crc : Bool) (pkt : Packet) (s : State) : Host.Outcome State Fault Refusal :=
  onData (onPacket 0x22 port link crc pkt (fun _ d =>
    match pkt.ext with
    | .conn rq _ _ _ st =>
      if (d.qp pkt.dstQp).state = .connecting ∧ (d.qp pkt.dstQp).toward pkt.srcNode rq then
        connFail d pkt.dstQp ((Status.ofCode? st).getD .cfgInvalid)
      else d
    | _ => d)) s

/-- CONN_WAIT changes nothing: the requester keeps sending until CONN_TMO (R421). -/
def execConnWait (port link : Nat) (crc : Bool) (pkt : Packet) (s : State) : Host.Outcome State Fault Refusal :=
  onData (onPacket 0x23 port link crc pkt (fun _ d => d)) s

/-- CONN_TMO returns a CONNECTING QP to INIT with TIMEOUT (R418). -/
def execConnTmo (qp : Nat) (s : State) : Host.Outcome State Fault Refusal :=
  onData (fun k d => if (d.qp qp).state = .connecting ∧ (d.qp qp).connDue ≤ k.ticks then connFail d qp .timeout else d) s

/-- CLOSE fails the READY QP with DEAD_TARGET (R443). -/
def execClose (port link : Nat) (crc : Bool) (pkt : Packet) (s : State) : Host.Outcome State Fault Refusal :=
  onData (onPacket 0x24 port link crc pkt (fun k d => if fromPeer d pkt then qpError k d pkt.dstQp .deadTarget else d)) s

/-! ### The target's checks -/

/-- The target's check of a region key (R427, R433, R446): `right` is the access bit. -/
def keyCheck (d : Data) (part key right off len : Nat) : Option Status :=
  let r := d.region (bitsOf key 0 14)
  firstOf [failIf (r.state == .free || r.gen != bitsOf key 14 17 || bitsOf key 31 1 == 1) .revoked,
    failIf (r.part != part || bitsOf r.access right 1 == 0 || decide (r.size < off + len)) .perm,
    failIf (r.state == .draining) .revoked]

/-- The region that lets a peer's fabric access in (R361, R444): a VALID one of the peer's partition that holds the range and grants the right;
else REVOKED where a region that is being or has been revoked holds it, else PERM. -/
def fabRegion (d : Data) (part right off len : Nat) : Nat × Option Status :=
  let holds := fun (r : Region) => r.part == part && decide (r.size ≠ 0) && inside off (Nat.max 1 len) r.base r.size
  match d.ttx.regions.find? (fun x => holds x.2 && x.2.state == .valid && bitsOf x.2.access right 1 == 1) with
  | some x => (x.1, none)
  | none =>
    if d.ttx.regions.any (fun x => holds x.2 && x.2.state == .valid) then (0, some .perm)
    else if d.ttx.regions.any (fun x => holds x.2) then (0, some .revoked)
    else (0, some .perm)

/-- The posted slot of a QP that came first (R431). -/
def oldestSlot (x : Qp) : Option (Nat × RSlot) :=
  x.slots.foldl (fun best s =>
    if !s.2.posted then best
    else match best with
      | none => some s
      | some b => if s.2.order < b.2.order then some s else best) none

/-- An operation that a QP receives, accepted. -/
def rxOp0 : RxOp := ⟨false, false, 0, none, none, 0, [], 0⟩

/-- The target refuses an operation by NAK; its later packets have no effect (R433, R435). -/
def refuseRx (k : Ctl) (d : Data) (q psn : Nat) (st : Status) : Data :=
  let d1 := (sendNak k d q psn st).onQp q (fun x => { x with rx := some { rxOp0 with refused := true, firstPsn := psn } })
  if st = .revoked then d1.bump (ttxCnt 10) 1 else if st = .staleGen then d1.bump (ttxCnt 11) 1 else d1

/-- The operation being received ends, if there is one: its region is left. -/
def endRx (d : Data) (q : Nat) : Data :=
  let d1 := d.onQp q (fun x => { x with rx := none })
  match (d.qp q).rx with
  | some r => (match r.region with | some i => closeRegion d1 i q | none => d1)
  | none => d1

/-- A receive buffer is consumed: its `tq.recv` completes (R431). -/
def consumeSlot (d : Data) (q n count : Nat) : Data :=
  match Tab.get? (d.qp q).slots n with
  | none => d
  | some s => (d.onQp q (fun x => { x with slots := Tab.set x.slots n { s with posted := false } })).finish s.thread s.opId .ok count 0

/-- The first packet of a message, write or store: the checks of R433. -/
def beginRx (k : Ctl) (d : Data) (q : Nat) (p : Packet) : Data :=
  let x := d.qp q
  let accept := fun (e : Data) (r : RxOp) => e.onQp q (fun y => { y with rx := some { r with firstPsn := p.psn } })
  let onRegion := fun (i base : Nat) => accept (openRegion d i q) { rxOp0 with region := some i, base := base }
  match p.opcode, p.ext with
  | 1, .msg _ len _ =>
    match oldestSlot x with
    | none => refuseRx k d q p.psn .noRecvBuf
    | some (n, s) => if s.len < len then refuseRx k d q p.psn .noSpace else accept d { rxOp0 with slot := some n, base := s.dpa }
  | 2, .write target off total _ =>
    if bitsOf target 31 1 = 0 then
      match keyCheck d x.part target 0 off total with
      | some st => refuseRx k d q p.psn st
      | none => onRegion (bitsOf target 0 14) (d.region (bitsOf target 0 14)).base
    else
      match Tab.get? x.slots (bitsOf target 0 6) with
      | none => refuseRx k d q p.psn .staleGen
      | some s =>
        if !s.posted ∨ s.gen ≠ bitsOf target 6 16 then refuseRx k d q p.psn .staleGen
        else if s.len < off + total then refuseRx k d q p.psn .noSpace
        else accept d { rxOp0 with slot := some (bitsOf target 0 6), base := s.dpa }
  | 0x32, .fstore off total =>
    match fabRegion d x.part 3 off total with
    | (_, some st) => refuseRx k d q p.psn st
    | (i, none) => onRegion i 0
  | _, .msg c _ _ => accept d { rxOp0 with message := true, consumer := c }
  | _, _ => accept d { rxOp0 with message := true }

/-- The types of Spool messages (R226). -/
def spoolTypes : List Nat := [1, 2, 3, 4, 5, 6, 7, 8, 9, 10, 11, 0x10, 0x11, 0x12, 0x18, 0x19, 0x1A, 0x1B]

/-- Whether the engine that a message names takes messages of its type; the spec gives no CONSUMER beyond four (R427). -/
def engineTakes (c : Nat) (m : List Byte) : Bool := c == 1 || (c == 2 && mfld m 0 1 == 1) || c == 3 || (c == 4 && mfld m 0 2 == 1)

/-- A message is whole. Answers to this Kratal's own requests take effect at once; a Spool message of a reserved type is discarded (R226), and
so is one that no engine takes; the others wait for their engine in order. -/
def deliver (k : Ctl) (d : Data) (q : Nat) (p : Packet) (first : Nat) (buf : List Byte) : Data :=
  match p.ext with
  | .gop .. => gopArrive k d (d.qp q).part (d.qp q).peerNode (p.opcode == 0x39) p.ext buf
  | .msg c _ _ =>
    if c = 4 ∧ mfld buf 0 2 = 2 then lookupAnswer d q buf
    else if c = 2 ∧ mfld buf 0 1 = 2 then fetchAnswer d q buf
    else if c = 1 ∧ !spoolTypes.contains (msgType buf) then d.bump (splCnt (msgRecv buf % 4) 5) 1
    else if !engineTakes c buf then d
    else { d with ttx := { d.ttx with inbox := d.ttx.inbox ++ [⟨q, c, first, p.psn, p.cls, buf⟩] } }
  | _ => d

/-- A packet of an accepted message, write or store: its data is gathered or placed, and the last packet ends the operation. A place that cannot be written refuses it
with UNCORRECTABLE (R433). -/
def bodyRx (k : Ctl) (d : Data) (q : Nat) (p : Packet) : Data :=
  match (d.qp q).rx with
  | none => d
  | some r =>
    if r.refused then (if p.last then endRx d q else d)
    else if r.message then
      let buf := r.buf ++ p.data
      if p.last then deliver k (endRx d q) q p r.firstPsn buf
      else d.onQp q (fun x => { x with rx := some { r with buf := buf } })
    else
      let (off, fin, whole) := match p.ext with
        | .msg _ n o => (o, true, some n)
        | .write _ o _ f => (o, f, none)
        | .fstore o _ => (o, false, none)
        | _ => (0, false, none)
      let h := hbmLink k d .write (r.base + off) p.data.length
      if h.2 then
        let e := refuseRx k (endRx h.1 q) q r.firstPsn .uncorrectable
        if p.last then endRx e q else e
      else
      let d1 := d.wrBytes (r.base + off) p.data
      let d2 := match r.slot with
        | some n => d1.onQp q (fun x => { x with slots := Tab.alter x.slots n (fun s => { s with high := Nat.max s.high (off + p.data.length) }) })
        | none => d1
      if !p.last then d2
      else
        let d3 := endRx d2 q
        match r.slot with
        | some n => if fin then consumeSlot d3 q n (whole.getD (((Tab.get? (d3.qp q).slots n).map (fun s => s.high)).getD 0)) else d3
        | none => d3

/-- The result of an atomic (R427). -/
def atomicNew (cas : Bool) (old op1 op2 : Nat) : Nat := if cas then (if old = op1 then op2 else old) else (old + op1) % 2 ^ 64

/-- Remembers an atomic's answer; the last 64 are kept (R440). -/
def cacheAdd (d : Data) (q psn st old : Nat) : Data :=
  d.onQp q (fun x => { x with cache := (x.cache ++ [(psn, st, old)]).drop (x.cache.length + 1 - 64) })

/-- Sends ATOMIC_RESP (R427). -/
def sendResp (k : Ctl) (d : Data) (q psn st old : Nat) : Data :=
  Data.sendQp k d q ((d.qp q).ctrl k q 0x12 (.resp psn st old))

/-- An atomic is applied once (R440); a refused one is answered by NAK. -/
def applyAtomic (k : Ctl) (d : Data) (q : Nat) (p : Packet) : Data :=
  match p.ext with
  | .atomic key off op1 op2 =>
    let fab := decide (0x30 ≤ p.opcode)
    let st := if fab then (fabRegion d (d.qp q).part 1 off 8).2 else keyCheck d (d.qp q).part key 1 off 8
    let a := if fab then off else (d.region (bitsOf key 0 14)).base + off
    let rd := hbmLink k d .read a 8
    let wr := hbmLink k rd.1 .write a 8
    match firstOf [st, failIf (rd.2 || wr.2) .uncorrectable, failIf (d.bad a 8) .poison] with
    | some st => cacheAdd (endRx (refuseRx k (if st = .uncorrectable then wr.1 else d) q p.psn st) q) q p.psn st.code 0
    | none =>
      let old := d.rd a 8
      let d1 := d.wr a 8 (atomicNew (p.opcode == 4 || p.opcode == 0x34) old op1 op2)
      sendResp k (cacheAdd d1 q p.psn 0 old) q p.psn 0 old
  | _ => d

/-- A fabric load is performed (R457): its data is queued as FLOAD_RESP packets, which read the region until they are sent; data that is poisoned or cannot be read refuses
it (R433). -/
def applyLoad (k : Ctl) (d : Data) (q : Nat) (p : Packet) : Data :=
  match p.ext with
  | .fload off len =>
    match fabRegion d (d.qp q).part 2 off len with
    | (_, some st) => endRx (refuseRx k d q p.psn st) q
    | (i, none) =>
      let rd := hbmLink k d .read off len
      if rd.2 then endRx (refuseRx k rd.1 q p.psn .uncorrectable) q
      else if d.bad off len then endRx (refuseRx k d q p.psn .poison) q
      else (openRegion d i q).enqueue q { txOp0 with opc := 0x31, cls := p.cls, src := some off, len := len, o1 := p.psn, o2 := i }
  | _ => d

/-- A packet is applied (R435): counted, judged where it is the first of its operation, and its effect made visible. A first packet ends an
operation that its sender has cut short. -/
def applyPkt (k : Ctl) (d : Data) (q : Nat) (p : Packet) : Data :=
  let d1 := d.bump (ttxCnt 2) 1
  let d2 := if p.first then endRx d1 q else d1
  if isAtomic p.opcode then applyAtomic k d2 q p
  else if p.opcode = 0x30 then applyLoad k d2 q p
  else bodyRx k (if p.first then beginRx k d2 q p else d2) q p

/-- Applies a packet, and after it those held that follow (R435); whether an ACK is due at once (R436). -/
def applyFrom (k : Ctl) (q : Nat) : Nat → Packet → Data → Data × Bool
  | 0, _, d => (d, false)
  | n + 1, p, d =>
    let d1 := (applyPkt k d q p).onQp q (fun x => { x with epsn := (p.psn + 1) % 2 ^ 24, applied := x.applied + 1, echo := p.txTime })
    match (d1.qp q).held.find? (fun h => h.2.psn == (p.psn + 1) % 2 ^ 24) with
    | none => (d1, p.ackReq || p.last)
    | some h =>
      let r := applyFrom k q n h.2 (d1.onQp q (fun x => { x with held := x.held.filter (fun y => y.2.psn != h.2.psn) }))
      (r.1, r.2 || p.ackReq || p.last)

/-- The bytes held in a port's reorder buffer. -/
def heldBytes (d : Data) (port : Nat) : Nat :=
  d.ttx.qps.foldl (fun n x => x.2.held.foldl (fun m h => if h.1 = port then m + pktBytes h.2 else m) n) 0

/-- A packet behind the expected PSN (R438, R440, R457). -/
def rxDuplicate (k : Ctl) (d : Data) (q : Nat) (p : Packet) : Data :=
  if p.opcode = 0x30 then applyLoad k d q p
  else
    let d1 := (d.bump (ttxCnt 3) 1).onQp q (fun x => { x with echo := p.txTime })
    match isAtomic p.opcode, (d.qp q).cache.find? (fun c => c.1 == p.psn) with
    | true, some c => sendResp k d1 q c.1 c.2.1 c.2.2
    | _, _ => sendAck k d1 q .duplicate

/-- The receive pipeline of R435 for a data packet whose trailer is right. -/
def rxData (k : Ctl) (d : Data) (port link : Nat) (auth : Bool) (p : Packet) : Data :=
  let q := p.dstQp
  let x := d.qp q
  if x.state ≠ .ready ∨ p.incarn ≠ x.incarn ∨ p.srcNode ≠ x.peerNode then
    (answerPkt k d q port link p p.srcQp 0x11 (.nak p.psn Status.deadTarget.code)).bump (ttxCnt 9) 1
  else if x.sec ≠ p.sec ∨ (x.sec ∧ !auth) then (d.bump (ttxCnt 7) 1).ttxSts 2
  else
    let n := psnSub p.psn x.epsn
    if 2 ^ 23 ≤ n then rxDuplicate k d q p
    else if 2048 ≤ n then d.bump (ttxCnt 4) 1
    else if 0 < n then
      let d1 := d.onQp q (fun y => { y with echo := p.txTime })
      if x.held.any (fun h => h.2.psn == p.psn) then sendAck k d1 q .ok
      else if 4194304 < heldBytes d port + pktBytes p then (d.bump (ttxCnt 5) 1).ttxSts 3
      else sendAck k (d1.onQp q (fun y => { y with held := y.held ++ [(port, p)] })) q .ok
    else
      let r := applyFrom k q (x.held.length + 1) p d
      if r.2 ∨ k.ackEvery ≤ (r.1.qp q).applied then sendAck k r.1 q .ok
      else r.1.onQp q (fun y => { y with ackDue := some (y.ackDue.getD (k.ticks + usTicks 2)) })

/-- Every opcode of R426 and R456 that travels on Tether. -/
def tetherOpcodes : List Nat :=
  [1, 2, 3, 4, 5, 0x10, 0x11, 0x12, 0x20, 0x21, 0x22, 0x23, 0x24, 0x30, 0x31, 0x32, 0x33, 0x34, 0x38, 0x39, 0x3A]

/-- A received packet with a PSN of the opcodes `ops`: outside the transport it counts for nothing; a bad trailer, a VLAN tag, a bad version or
a reserved opcode discards it, counted (R423, R425, R426, R428). -/
def onDataPkt (ops : List Nat) (port link : Nat) (crc auth bad : Bool) (p : Packet) (k : Ctl) (d : Data) : Data :=
  if !k.nodeOn || !Data.carries k d (port, link) then d
  else if !ops.contains p.opcode && tetherOpcodes.contains p.opcode then d
  else if !crc then d.bump (ttxCnt 6) 1
  else if bad || !ops.contains p.opcode then d.bump (ttxCnt 8) 1
  else rxData k d port link auth p

/-- A data packet: SEND, WRITE, atomics, ENGINE, FSTORE, FFADD or FCAS (R435). -/
def execDataPacket (port link : Nat) (crc auth bad : Bool) (pkt : Packet) (s : State) : Host.Outcome State Fault Refusal :=
  onData (onDataPkt [1, 2, 3, 4, 5, 0x32, 0x33, 0x34] port link crc auth bad pkt) s

/-- The target performs a fabric load and sends its data (R457). -/
def execFloadReq (port link : Nat) (crc auth bad : Bool) (pkt : Packet) (s : State) : Host.Outcome State Fault Refusal :=
  onData (onDataPkt [0x30] port link crc auth bad pkt) s

/-- A member receives GOP_UP of a child (R463). -/
def execGopUp (port link : Nat) (crc auth bad : Bool) (pkt : Packet) (s : State) : Host.Outcome State Fault Refusal :=
  onData (onDataPkt [0x39] port link crc auth bad pkt) s

/-- A member receives GOP_DOWN (R463). -/
def execGopDown (port link : Nat) (crc auth bad : Bool) (pkt : Packet) (s : State) : Host.Outcome State Fault Refusal :=
  onData (onDataPkt [0x3A] port link crc auth bad pkt) s

/-- An ACK is sent 2 µs after the first packet not yet acknowledged (R436). -/
def execAckTimer (qp : Nat) (s : State) : Host.Outcome State Fault Refusal :=
  onData (fun k d =>
    match (d.qp qp).ackDue with
    | some t => if (d.qp qp).state = .ready ∧ t ≤ k.ticks then sendAck k d qp .ok else d
    | none => d) s

/-! ### Queue pair operations -/

/-- A QP outside the thread's partition is refused. -/
def Ctl.qpCheck (k : Ctl) (th : Thread) (q : Nat) : Option Status := failIf (k.qpPart q != some th.part) .perm

/-- The lowest FREE QP of a range. -/
def lowestQp (d : Data) (lo n : Nat) : Option Nat := ((List.range n).find? (fun i => (d.qp (lo + i)).state == .free)).map (fun i => lo + i)

/-- What `qp.create` does (R419). -/
def runQpCreate : EngRun := engRun (fun k d t id th o =>
  let x := o.desc
  let depth := df x 0 0 7
  checked d t id
    [failIf (!descOk x [(0, 0, 7)] || depth == 0 || decide (64 < depth)) .badDesc, failIf (!k.nodeOn) .cfgInvalid]
    (match lowestQp d (k.qpBase th.part) (k.qpCount th.part) with
     | none => d.finish t id .noSpace 0 0
     | some q =>
       let inc := ((d.qp q).incarn + 1) % 256
       (d.setQp q { qpReset with state := .init, incarn := inc, part := th.part, rqDepth := depth }).finish t id .ok 0 (q + inc * 2 ^ 14)))

/-- `qp.create`. -/
def execQpCreate (t : Nat) (p : BitVec 2) (ts : BitVec 5) (ds : BitVec 4) (s : State) : Host.Outcome State Fault Refusal :=
  onData (issue 6 0 noBsk runQpCreate t p ts ds) s

/-- Whether the elements of a list differ. -/
def allDiffer : List (Nat × Nat) → Bool
  | [] => true
  | a :: r => !r.contains a && allDiffer r

/-- What `qp.connect` does (R420, R603). -/
def runQpConnect : EngRun := engRun (fun k d t id th o =>
  let x := o.desc
  let q := df x 0 0 14
  let n := df x 7 0 3
  let links := (List.range n).map (fun i => (df x (8 + 2 * i) 0 4, df x (8 + 2 * i) 4 2))
  let v4 := df x 6 2 1 == 1
  let sec := df x 6 3 1 == 1
  let pay := df x 6 0 2
  let key := 256 * th.part + df x 32 0 16
  checked d t id
    [failIf (!descOk x [(0, 0, 14), (2, 0, 16), (4, 0, 14), (6, 0, 4), (7, 0, 3), (8, 0, 6), (10, 0, 6), (12, 0, 6), (14, 0, 6), (16, 0, 128),
       (32, 0, 16)] || n == 0 || decide (4 < n) || !allDiffer links) .badDesc,
     k.qpCheck th q, failIf (!links.all (fun l => decide (l.2 < modeLinks (k.portMode l.1)))) .badDesc, failIf ((d.qp q).state != .init) .cfgInvalid,
     failIf (links.any (fun l => decide (k.fld (ttpCfg l.1) 8 14 < 1024 * 2 ^ pay + 138))) .cfgInvalid,
     failIf (!k.nodeOn || k.fld 0x1B00040 (if v4 then 18 else 17) 1 == 0) .cfgInvalid,
     failIf (sec && (decide (256 ≤ df x 32 0 16) || !Tab.has k.sec.qpKeys key)) .cfgInvalid]
    (sendConnReq k ((d.start t id).onQp q (fun y => { y with
      state := .connecting
      peerNode := df x 2 0 16
      peerQp := df x 4 0 14
      peerIncarn := 0
      payload := pay
      v4 := v4
      sec := sec
      links := links
      peerAddr := if v4 then df x 16 0 32 else df x 16 0 128
      key := if sec then Tab.getD k.sec.qpKeys key 0 else 0
      connOp := some (t, id)
      connDue := k.ticks + k.fld 0x1B00088 44 12 * 500000 })) q))

/-- `qp.connect`. -/
def execQpConnect (t : Nat) (p : BitVec 2) (ts : BitVec 5) (ds : BitVec 4) (s : State) : Host.Outcome State Fault Refusal :=
  onData (issue 6 1 noBsk runQpConnect t p ts ds) s

/-- What `qp.destroy` does (R418, R422). -/
def runQpDestroy : EngRun := engRun (fun k d t id th o =>
  let q := df o.desc 0 0 14
  let y := d.qp q
  checked d t id [failIf (!descOk o.desc [(0, 0, 14)]) .badDesc, k.qpCheck th q, failIf (y.state == .free) .badDesc]
    (let d1 := if y.state = .ready then Data.sendQp k d q (y.ctrl k q 0x24 (y.connExt q 0)) else d
     (qpFree k d1 q .aborted).finish t id .ok 0 0))

/-- `qp.destroy`. -/
def execQpDestroy (t : Nat) (p : BitVec 2) (ts : BitVec 5) (ds : BitVec 4) (s : State) : Host.Outcome State Fault Refusal :=
  onData (issue 6 2 noBsk runQpDestroy t p ts ds) s

/-! ### Transport operations -/

/-- The bits of R430's descriptor. -/
def tqFields : List (Nat × Nat × Nat) :=
  [(0, 0, 14), (8, 0, 48), (16, 0, 25), (20, 0, 32), (24, 0, 48), (32, 0, 1), (40, 0, 64), (48, 0, 64)]

/-- The checks of R433 at the initiator, in the order of R81; `rd` for an operation that reads its local range. -/
def tqChecks (k : Ctl) (d : Data) (th : Thread) (x : Desc) (n : Nat) (rd more : Bool) : List (Option Status) :=
  [failIf (!descOk x tqFields || more) .badDesc, k.qpCheck th (df x 0 0 14), (if rd then readCheck k d th.part (df x 8 0 48) n false else k.dpaCheck th.part (df x 8 0 48) n false),
   (d.qp (df x 0 0 14)).refusal]

/-- What `tq.send` does (R430, R432). -/
def runTqSend : EngRun := engRun (fun k d t id th o =>
  let x := o.desc
  let n := df x 16 0 25
  let d := permRead k d th.part (df x 8 0 48) n
  checked d t id (tqChecks k d th x n true (decide (16777216 < n)))
    ((d.start t id).enqueue (df x 0 0 14) { txOp0 with
      opc := 1
      cls := o.cls
      src := some (df x 8 0 48)
      len := n
      owner := .thr t id 0 }))

/-- `tq.send`. -/
def execTqSend (t : Nat) (p : BitVec 2) (ts : BitVec 5) (ds : BitVec 4) (s : State) : Host.Outcome State Fault Refusal :=
  onData (issue 6 3 noBsk runTqSend t p ts ds) s

/-- What `tq.recv` does (R431). -/
def runTqRecv : EngRun := engRun (fun k d t id th o =>
  let x := o.desc
  let q := df x 0 0 14
  let n := df x 16 0 25
  let sl := df x 20 0 6
  let gen := df x 22 0 16
  let old := Tab.get? (d.qp q).slots sl
  checked d t id
    [failIf (!descOk x [(0, 0, 14), (8, 0, 48), (16, 0, 25), (20, 0, 6), (22, 0, 16)] || decide (16777216 < n)) .badDesc,
     k.qpCheck th q, k.dpaCheck th.part (df x 8 0 48) n false, (d.qp q).refusal,
     failIf (decide ((d.qp q).rqDepth ≤ sl)) .badDesc,
     failIf (match old with | some s => s.posted || s.gen == gen | none => false) .badDesc]
    ((d.start t id).onQp q (fun y => { y with
      slots := Tab.set y.slots sl ⟨true, gen, df x 8 0 48, n, y.order, t, id, 0⟩
      order := y.order + 1 })))

/-- `tq.recv`. -/
def execTqRecv (t : Nat) (p : BitVec 2) (ts : BitVec 5) (ds : BitVec 4) (s : State) : Host.Outcome State Fault Refusal :=
  onData (issue 6 4 noBsk runTqRecv t p ts ds) s

/-- What `tq.write` does (R430, R432). -/
def runTqWrite : EngRun := engRun (fun k d t id th o =>
  let x := o.desc
  let n := df x 16 0 25
  let tgt := df x 20 0 32
  let buf := bitsOf tgt 31 1 == 1
  let d := permRead k d th.part (df x 8 0 48) n
  checked d t id
    (tqChecks k d th x n true (decide (16777216 < n) || (buf && bitsOf tgt 22 9 != 0)) ++ [failIf (n == 0 && !(buf && df x 32 0 1 == 1)) .okEmpty])
    ((d.start t id).enqueue (df x 0 0 14) { txOp0 with
      opc := 2
      cls := o.cls
      src := some (df x 8 0 48)
      len := n
      target := tgt
      off := df x 24 0 48
      fin := buf && df x 32 0 1 == 1
      owner := .thr t id 0 }))

/-- `tq.write`. -/
def execTqWrite (t : Nat) (p : BitVec 2) (ts : BitVec 5) (ds : BitVec 4) (s : State) : Host.Outcome State Fault Refusal :=
  onData (issue 6 5 noBsk runTqWrite t p ts ds) s

/-- What an atomic does (R430, R440). -/
def runAtomic (opc : Nat) : EngRun := engRun (fun k d t id th o =>
  let x := o.desc
  checked d t id (tqChecks k d th x 8 false (df x 24 0 3 != 0 || df x 20 31 1 != 0))
    ((d.start t id).enqueue (df x 0 0 14) { txOp0 with
      opc := opc
      cls := o.cls
      len := 8
      target := df x 20 0 32
      off := df x 24 0 48
      o1 := df x 40 0 64
      o2 := if opc = 4 then df x 48 0 64 else 0
      owner := .thr t id (df x 8 0 48) }))

/-- `tq.fadd`. -/
def execTqFadd (t : Nat) (p : BitVec 2) (ts : BitVec 5) (ds : BitVec 4) (s : State) : Host.Outcome State Fault Refusal :=
  onData (issue 6 6 noBsk (runAtomic 3) t p ts ds) s
/-- `tq.cas`. -/
def execTqCas (t : Nat) (p : BitVec 2) (ts : BitVec 5) (ds : BitVec 4) (s : State) : Host.Outcome State Fault Refusal :=
  onData (issue 6 7 noBsk (runAtomic 4) t p ts ds) s

/-! ### Registration -/

/-- A valid Tether lend range of a partition that holds a range (R360, R361, R367). -/
def Ctl.tetherLent (k : Ctl) (p a n : Nat) : Bool :=
  (List.range 64).any (fun i =>
    let w := (k.word (objKey 0x1800100 i)).toNat
    bitsOf w 0 1 == 1 && bitsOf w 1 2 == 0 && bitsOf w 3 4 == p && inside a n (bitsOf w 12 36 * 4096) (k.fld (objKey 0x1800108 i) 0 36 * 4096))

/-- What `tq.reg` does (R444). -/
def runTqReg : EngRun := engRun (fun k d t id th o =>
  let x := o.desc
  let a := df x 0 0 48
  let n := df x 8 0 48
  checked d t id
    [failIf (!descOk x [(0, 0, 48), (8, 0, 48), (16, 0, 4)] || a % 4096 != 0 || n % 4096 != 0 || n == 0) .badDesc,
     failIf (k.tierOf a n == .unmapped) .badDesc,
     failIf (!k.tetherLent th.part a n) .perm]
    (match (List.range 16384).find? (fun i => (d.region i).state == .free) with
     | none => d.finish t id .noSpace 0 0
     | some i =>
       let r := d.region i
       (d.setRegion i { r with state := .valid, base := a, size := n, access := df x 16 0 4, part := th.part }).finish t id .ok 0 (i + r.gen * 2 ^ 14)))

/-- `tq.reg`. -/
def execTqReg (t : Nat) (p : BitVec 2) (ts : BitVec 5) (ds : BitVec 4) (s : State) : Host.Outcome State Fault Refusal :=
  onData (issue 6 8 noBsk runTqReg t p ts ds) s

/-- What `tq.revoke` does (R445): the key is in bytes 0 to 3. -/
def runTqRevoke : EngRun := engRun (fun _ d t id th o =>
  let key := df o.desc 0 0 32
  let i := bitsOf key 0 14
  let r := d.region i
  let known := r.state != .free && r.gen == bitsOf key 14 17 && bitsOf key 31 1 == 0
  checked d t id
    [failIf (!descOk o.desc [(0, 0, 32)]) .badDesc, failIf (known && r.part != th.part) .perm, failIf (!known) .badDesc]
    (settleRegion ((d.start t id).setRegion i { r with state := .draining, revokes := r.revokes ++ [(t, id)] }) i))

/-- `tq.revoke`. -/
def execTqRevoke (t : Nat) (p : BitVec 2) (ts : BitVec 5) (ds : BitVec 4) (s : State) : Host.Outcome State Fault Refusal :=
  onData (issue 6 9 noBsk runTqRevoke t p ts ds) s

end Sys2Proof.Machine
end

