-- ==== Sys2Proof/Machine/FabricOps.lean ====
section
/-!
DEFINITION. Fabric accesses (R453 to R460), the time limits of global operations (R464), the fabric-wide reset's tree (R468), heartbeats (R469 to
R472) and failover (R474 to R476).
-/
namespace Sys2Proof.Machine

/-! ### Fabric accesses -/

/-- The QP that a partition's route table gives toward a node, which must be READY toward it (R454, R459). -/
def routeCheck (k : Ctl) (d : Data) (p node : Nat) : Option Status :=
  match routeQp k d p node with
  | none => some .cfgInvalid
  | some q =>
    let y := d.qp q
    if y.state = .error ∧ y.peerNode = node then some ((Status.ofCode? y.status).getD .timeout)
    else failIf (y.state != .ready || y.peerNode != node || y.part != p) .cfgInvalid

/-- What a fabric access does (R455, R459): `opc` is its packet. -/
def runFab (opc : Nat) : EngRun := engRun (fun k d t id th o =>
  let x := o.desc
  let atom := opc == 0x33 || opc == 0x34
  let node := df x 0 48 16
  let off := df x 0 0 48
  let loc := df x 8 0 48
  let n := if atom then 8 else df x 16 0 25
  let d := if opc = 0x32 then permRead k d th.part loc n else d
  let st := firstOf
    [failIf (!descOk x [(0, 0, 64), (8, 0, 48), (16, 0, 25), (20, 0, 64), (28, 0, 64)] || decide (16777216 < n) || (atom && off % 8 != 0) ||
       decide (8192 ≤ node) || node == k.node) .badDesc,
     if opc = 0x32 then readCheck k d th.part loc n false else k.dpaCheck th.part loc n false, failIf (d.fab.teardown.contains th.part) .aborted, routeCheck k d th.part node,
     failIf (n == 0) .okEmpty]
  match st with
  | some s =>
    let d1 := d.finish t id s 0 0
    if s = .deadTarget then deadPend d1 th.part node else d1
  | none =>
    (d.start t id).enqueue ((routeQp k d th.part node).getD 0) { txOp0 with
      opc := opc
      cls := o.cls
      src := if opc = 0x32 then some loc else none
      len := n
      off := off
      o1 := df x 20 0 64
      o2 := if opc = 0x34 then df x 28 0 64 else 0
      owner := .fab t id loc })

/-- `fab.load`, which holds its thread's slot until its completion has been posted (R458, R577). -/
def execFabLoad (t : Nat) (p : BitVec 2) (ts : BitVec 5) (ds : BitVec 4) (s : State) : Host.Outcome State Fault Refusal :=
  onData (issue 7 0 noBsk (runFab 0x30) t p ts ds) s
/-- `fab.store`. -/
def execFabStore (t : Nat) (p : BitVec 2) (ts : BitVec 5) (ds : BitVec 4) (s : State) : Host.Outcome State Fault Refusal :=
  onData (issue 7 1 noBsk (runFab 0x32) t p ts ds) s
/-- `fab.fadd`. -/
def execFabFadd (t : Nat) (p : BitVec 2) (ts : BitVec 5) (ds : BitVec 4) (s : State) : Host.Outcome State Fault Refusal :=
  onData (issue 7 2 noBsk (runFab 0x33) t p ts ds) s
/-- `fab.cas`. -/
def execFabCas (t : Nat) (p : BitVec 2) (ts : BitVec 5) (ds : BitVec 4) (s : State) : Host.Outcome State Fault Refusal :=
  onData (issue 7 3 noBsk (runFab 0x34) t p ts ds) s

/-- A fabric access or global operation of a partition has completed with DEAD_TARGET (R460): TEARDOWN_MAP and the record, and every other one
of the partition completes with ABORTED. -/
def execTeardown (part : Nat) (s : State) : Host.Outcome State Fault Refusal :=
  onData (fun k d =>
    match d.fab.deadPend.find? (fun x => x.1 == part) with
    | none => d
    | some x =>
      let d1 := fabEvent k { d with fab := { d.fab with
        deadPend := d.fab.deadPend.filter (fun y => y.1 != part)
        teardown := if d.fab.teardown.contains part then d.fab.teardown else d.fab.teardown ++ [part] } } 1 part x.2 Status.deadTarget.code
      let d2 := d1.fab.groups.foldl (fun e g => if k.grpPart g.1 = part then finishGop k e g.1 .aborted else e) d1
      let mine := d2.fyl.threads.flatMap (fun y =>
        if y.2.part = part then (y.2.ops.filter (fun o => o.eng == 7 && decide (o.op < 5) && o.done.isNone)).map (fun o => (y.1, o.id)) else [])
      gopAll k (abortList k d2 mine .aborted)) s

/-! ### Fabric-wide reset -/

/-- The `fab.reset` of a group is over (R468). -/
def endReset (k : Ctl) (d : Data) (g count : Nat) : Data :=
  match d.fab.resetOps.find? (fun o => o.group == g) with
  | none => d
  | some o =>
    Data.finish { d with fab := { d.fab with resetOps := d.fab.resetOps.filter (fun x => x.group != g) } } o.thread o.opId
      (if count = k.grpN g then .ok else .part) count 0

/-- A member answers FRESET_ACK to its parent; the Kratal that asked takes its own answer (R468). -/
def answerReset (k : Ctl) (d : Data) (g : Nat) (x : FrMember) : Data :=
  let d1 := { d with fab := { d.fab with resets := Tab.erase d.fab.resets g } }
  if x.parent = k.node then endReset k d1 g x.count else d1.mgmt 0x3F x.parent (bytesLE 2 g ++ bytesLE 2 x.count)

/-- A member forwards FRESET to its children and waits for their answers (R468); the count is of members acknowledged, itself included. -/
def forwardReset (k : Ctl) (d : Data) (g parent : Nat) : Data :=
  let kids := (childrenOf (k.grpN g) (k.grpRank g)).map (grpNode k d g)
  let x : FrMember := ⟨parent, kids, 1, k.ticks + k.fld 0x1C00040 24 8 * 500000⟩
  let d1 := kids.foldl (fun e n => e.mgmt 0x3E n (bytesLE 2 g)) d
  if kids.isEmpty then answerReset k d1 g x else { d1 with fab := { d1.fab with resets := Tab.set d1.fab.resets g x } }

/-- What `fab.reset` does (R468): FRESET goes to rank 0; the Kratal that asks does not reset itself. -/
def runFabReset : EngRun := engRun (fun k d t id th o =>
  let g := df o.desc 0 0 4
  checked d t id
    [failIf (!descOk o.desc [(0, 0, 4)]) .badDesc, failIf (th.part != 0) .perm,
     failIf (!k.grpOn g || d.fab.resetOps.any (fun x => x.group == g)) .cfgInvalid]
    (let d1 := d.start t id
     let d2 := { d1 with fab := { d1.fab with resetOps := d1.fab.resetOps ++ [⟨t, id, g, k.ticks + 2 * (k.fld 0x1C00040 24 8 * 500000)⟩] } }
     if k.grpRank g = 0 then forwardReset k d2 g k.node else d2.mgmt 0x3E (grpNode k d2 g 0) (bytesLE 2 g)))

/-- `fab.reset`. -/
def execFabReset (t : Nat) (p : BitVec 2) (ts : BitVec 5) (ds : BitVec 4) (s : State) : Host.Outcome State Fault Refusal :=
  onData (issue 7 5 noBsk runFabReset t p ts ds) s

/-- A child's FRESET_ACK is counted; the last one answers the parent. At the Kratal that asked, rank 0's answer ends the operation (R468). -/
def execFresetAck (group node count : Nat) (s : State) : Host.Outcome State Fault Refusal :=
  onData (fun k d =>
    match Tab.get? d.fab.resets group with
    | some x =>
      if !x.left.contains node then d
      else
        let y := { x with left := x.left.erase node, count := x.count + count }
        if y.left.isEmpty then answerReset k d group y else { d with fab := { d.fab with resets := Tab.set d.fab.resets group y } }
    | none => if grpNode k d group 0 = node then endReset k d group count else d) s

/-- GOP_TMO has passed for a group (R464, R468): its operation completes with TIMEOUT and it is BROKEN; a member that waits for FRESET_ACKs
answers; a `fab.reset` not answered completes with PARTIAL. -/
def execGopTmo (group : Nat) (s : State) : Host.Outcome State Fault Refusal :=
  onData (fun k d =>
    let d1 := match (d.grp group).op with
      | some o => if o.deadline ≤ k.ticks then finishGop k d group .timeout else d
      | none => d
    let d2 := match Tab.get? d1.fab.resets group with
      | some x => if x.deadline ≤ k.ticks then answerReset k d1 group x else d1
      | none => d1
    if d2.fab.resetOps.any (fun o => o.group == group && decide (o.deadline ≤ k.ticks)) then endReset k d2 group 0 else d2) s

/-! ### The watch table -/

/-- DPAs of the entries of the watch table (R469, R479). -/
def Ctl.watch (k : Ctl) : List Nat := (List.range (k.fld 0x1C00080 48 7)).map (fun i => k.fld 0x1C00080 6 42 * 64 + 32 * i)
/-- NODE of an entry. -/
def watchNode (d : Data) (a : Nat) : Nat := d.rd a 2
/-- DEAD. -/
def watchDead (d : Data) (a : Nat) : Bool := bitsOf (d.rd (a + 4) 1) 3 1 == 1
/-- FGROUP. -/
def watchGroup (d : Data) (a : Nat) : Nat := bitsOf (d.rd (a + 4) 1) 0 3
/-- TMISS_NOW. -/
def watchT (d : Data) (a : Nat) : Nat := bitsOf (d.rd (a + 4) 1) 4 4
/-- MMISS_NOW. -/
def watchM (d : Data) (a : Nat) : Nat := d.rd (a + 5) 1
/-- The entry of a node. -/
def watchOf (k : Ctl) (d : Data) (node : Nat) : Option Nat := k.watch.find? (fun a => watchNode d a == node)

/-- FGROUP of this Kratal (R478). -/
def Ctl.fgroup (k : Ctl) : Nat := k.fld 0x1C00040 1 3
/-- ELECT_WAIT in ticks. -/
def Ctl.electWait (k : Ctl) : Nat := k.fld 0x1C00040 12 12 * usTicks 100
/-- The watch entries of this Kratal's failover group (R474). -/
def groupWatch (k : Ctl) (d : Data) : List Nat := k.watch.filter (fun a => watchGroup d a == k.fgroup)

/-- A heartbeat of a KIND arrives from a node (R470, R471). -/
def heartbeat (k : Ctl) (d : Data) (kind node : Nat) : Data :=
  match watchOf k d node with
  | none => d
  | some a =>
    if watchDead d a then d.bump (fabCnt 7) 1
    else { d with fab := { d.fab with
      seen := if d.fab.seen.contains (2 * node + kind) then d.fab.seen else d.fab.seen ++ [2 * node + kind]
      warned := d.fab.warned.filter (fun w => w != 2 * node + kind) } }

/-- A Tether heartbeat. -/
def execHeartbeat (port link : Nat) (crc : Bool) (pkt : Packet) (s : State) : Host.Outcome State Fault Refusal :=
  onData (onPacket 0x38 port link crc pkt (fun k d => if fromPeer d pkt then heartbeat k d 0 pkt.srcNode else d)) s

/-- A management heartbeat, on either port. -/
def execMgmtHb (node : Nat) (s : State) : Host.Outcome State Fault Refusal := onData (fun k d => heartbeat k d 1 node) s

/-- A node is declared dead (R471): DEAD, the QPs toward it (R443), NODE_DEAD, and, in hardware mode, the election for a node of this Kratal's
failover group, whose ELECT goes to every member (R475). -/
def declareDead (k : Ctl) (d : Data) (node : Nat) : Data :=
  let e := watchOf k d node
  if (match e with | some a => watchDead d a | none => false) then d
  else
    let d1 := match e with
      | some a => d.wr (a + 4) 1 (d.rd (a + 4) 1 + 8)
      | none => d
    let d2 := fabEvent k (nodeLost k d1 node) 2 0 node 0
    let mine := match e with | some a => watchGroup d a == k.fgroup | none => false
    if k.fld 0x1C00040 0 1 = 0 ∨ !mine then d2
    else
      let d3 := (groupWatch k d2).foldl (fun x a => x.mgmt 0x3C (watchNode d2 a) (bytesLE 2 k.node ++ bytesLE 2 node)) d2
      Data.bump { d3 with fab := { d3.fab with elects := d3.fab.elects ++ [⟨node, k.ticks, k.ticks + k.electWait⟩] } } (fabCnt 8) 1

/-- The evaluation of R471 for an entry; misses of one kind alone are reported once. -/
def watchJudge (k : Ctl) (d : Data) (a : Nat) : Data :=
  let node := watchNode d a
  let t := decide (k.fld 0x1C00040 4 4 ≤ watchT d a)
  let m := decide (k.fld 0x1C00040 8 4 ≤ watchM d a)
  let warn := fun (kind ev : Nat) =>
    if d.fab.warned.contains (2 * node + kind) then d
    else fabEvent k { d with fab := { d.fab with warned := d.fab.warned ++ [2 * node + kind] } } ev 0 node 0
  if t && m then declareDead k d node else if t then warn 0 3 else if m then warn 1 4 else d

/-- One entry at a `fab.hb` (R470): its heartbeat is sent, the interval judged and R471 applied. -/
def watchStep (k : Ctl) (kind cls : Nat) (d : Data) (a : Nat) : Data :=
  if watchDead d a then d
  else
    let node := watchNode d a
    let q := bitsOf (d.rd (a + 2) 2) 0 14
    let d1 := if kind = 1 then d.mgmt 0x3B node (bytesLE 2 k.node)
      else if (d.qp q).state = .ready then Data.sendQp k d q { (d.qp q).ctrl k q 0x38 .none with cls := cls }
      else d
    let first := !d.fab.hbDone.contains kind
    let hit := first || d.fab.seen.contains (2 * node + kind)
    let d2 := if kind = 0 then
        d1.wr (a + 4) 1 (d.rd (a + 4) 1 % 16 + 16 * (if first then watchT d a else if hit then 0 else Nat.min 15 (watchT d a + 1)))
      else d1.wr (a + 5) 1 (if first then watchM d a else if hit then 0 else Nat.min 255 (watchM d a + 1))
    watchJudge k (if hit then d2 else d2.bump (fabCnt (5 + kind)) 1) a

/-- What `fab.hb` does (R470). -/
def runFabHb : EngRun := engRun (fun k d t id th o =>
  let kind := df o.desc 0 0 1
  checked d t id [failIf (!descOk o.desc [(0, 0, 1)]) .badDesc, failIf (th.part != 0) .perm]
    (let d1 := k.watch.foldl (watchStep k kind o.cls) d
     Data.finish { d1 with fab := { d1.fab with
       seen := d1.fab.seen.filter (fun x => x % 2 != kind)
       hbDone := if d1.fab.hbDone.contains kind then d1.fab.hbDone else kind :: d1.fab.hbDone } } t id .ok 0 0))

/-- A `fab.hb` command whose descriptor has the other KIND is not that command. -/
def issueHb (kind t : Nat) (p : BitVec 2) (ts : BitVec 5) (ds : BitVec 4) (k : Ctl) (d : Data) : Data :=
  match d.thr t with
  | some th => if df (th.dReg ds.toNat) 0 0 1 = kind ∨ !th.pReg p.toNat then issue 7 6 noBsk runFabHb t p ts ds k d else d
  | none => d

/-- `fab.hb` for Tether. -/
def execFabHbTether (t : Nat) (p : BitVec 2) (ts : BitVec 5) (ds : BitVec 4) (s : State) : Host.Outcome State Fault Refusal :=
  onData (issueHb 0 t p ts ds) s
/-- `fab.hb` for the management network. -/
def execFabHbMgmt (t : Nat) (p : BitVec 2) (ts : BitVec 5) (ds : BitVec 4) (s : State) : Host.Outcome State Fault Refusal :=
  onData (issueHb 1 t p ts ds) s

/-- FAB_DECLARE, through the management path only (R471, R480). -/
def execFabDeclare (path : Path) (node : BitVec 16) (s : State) : Host.Outcome State Fault Refusal :=
  onData (fun k d => match path with | .session _ => declareDead k d node.toNat | .half _ => d) s

/-- A management port gains or loses link (R472): 0 is port A, 1 port B. A change of SINGLE_PATH raises its event. -/
def execMgmtLinkChange (port : Nat) (up : Bool) (s : State) : Host.Outcome State Fault Refusal :=
  onData (fun k d =>
    let d1 := if port = 0 then { d with fab := { d.fab with mgmtA := up } } else if port = 1 then { d with fab := { d.fab with mgmtB := up } } else d
    let was := d.fab.mgmtA != d.fab.mgmtB
    let now := d1.fab.mgmtA != d1.fab.mgmtB
    if was = now then d1 else fabEvent k d1 5 0 k.node (if now then 1 else 0)) s

/-! ### Elections and re-pointing -/

/-- An ELECT for a dead node from a member of this Kratal's group (R475). -/
def execElect (node dead : Nat) (s : State) : Host.Outcome State Fault Refusal :=
  onData (fun k d =>
    if (groupWatch k d).any (fun a => watchNode d a == node) then { d with fab := { d.fab with heard := d.fab.heard ++ [(dead, node, k.ticks)] } }
    else d) s

/-- ELECT_DONE for a dead node: this member does not act (R475). -/
def execElectDone (dead : Nat) (s : State) : Host.Outcome State Fault Refusal :=
  onData (fun _ d => { d with fab := { d.fab with dones := if d.fab.dones.contains dead then d.fab.dones else d.fab.dones ++ [dead] } }) s

/-- Sends a re-point request to its controller on both management ports (R476): the controller's address and UDP port, then the tag, the dead
node and the request. -/
def sendRepoint (k : Ctl) (d : Data) (r : Repoint) : Data :=
  let a := k.fld 0x1C00088 8 40 * 256 + 256 * r.entry
  d.mgmt 0x02 r.node (memBytes d.mem a 18 ++ bytesLE 4 r.tag ++ bytesLE 2 r.node ++ memBytes d.mem (a + 20) (d.rd (a + 18) 2))

/-- The members heard for a dead node in an election's window, this Kratal included. -/
def electors (k : Ctl) (d : Data) (e : Election) : List Nat :=
  (d.fab.heard.filter (fun h => h.1 == e.node && decide (e.declared ≤ h.2.2 + k.electWait))).foldl
    (fun l h => if l.contains h.2.1 then l else h.2.1 :: l) [k.node]

/-- ELECT_WAIT of an election has passed (R475): unless ELECT_DONE has come or a lower node was heard, the member acts with a quorum, else raises
NO_QUORUM. -/
def execElectWait (dead : Nat) (s : State) : Host.Outcome State Fault Refusal :=
  onData (fun k d =>
    match d.fab.elects.find? (fun e => e.node == dead && decide (e.deadline ≤ k.ticks)) with
    | none => d
    | some e =>
      let l := electors k d e
      let d1 := { d with fab := { d.fab with
        elects := d.fab.elects.filter (fun x => x.node != dead)
        heard := d.fab.heard.filter (fun h => h.1 != dead)
        dones := d.fab.dones.filter (fun n => n != dead) } }
      if d.fab.dones.contains dead ∨ l.any (fun n => decide (n < k.node)) then d1
      else if l.length < ((groupWatch k d).length + 1) / 2 + 1 then fabEvent k d1 7 0 dead 0
      else
        let d2 := (groupWatch k d1).foldl (fun x a => x.mgmt 0x3D (watchNode d1 a) (bytesLE 2 dead)) (fabEvent k d1 6 0 dead 0)
        match watchOf k d2 dead with
        | none => d2
        | some a =>
          let r : Repoint := ⟨dead, bitsOf (d2.rd (a + 6) 2) 0 6, d2.fab.nextTag, 1, k.ticks + 500000⟩
          sendRepoint k { d2 with fab := { d2.fab with repoints := d2.fab.repoints ++ [r], nextTag := (d2.fab.nextTag + 1) % 2 ^ 32 } } r) s

/-- A controller echoes a tag (R476). -/
def execOcsReply (tag : Nat) (s : State) : Host.Outcome State Fault Refusal :=
  onData (fun _ d => { d with fab := { d.fab with repoints := d.fab.repoints.filter (fun r => r.tag != tag) } }) s

/-- No reply within 1 ms (R476): the request is sent again, and after three attempts OCS_FAIL is raised. -/
def execOcsRetry (tag : Nat) (s : State) : Host.Outcome State Fault Refusal :=
  onData (fun k d =>
    match d.fab.repoints.find? (fun r => r.tag == tag && decide (r.due ≤ k.ticks)) with
    | none => d
    | some r =>
      let rest := d.fab.repoints.filter (fun x => x.tag != tag)
      if 3 ≤ r.tries then fabEvent k { d with fab := { d.fab with repoints := rest } } 8 0 r.node 0
      else
        let r1 := { r with tries := r.tries + 1, due := k.ticks + 500000 }
        sendRepoint k { d with fab := { d.fab with repoints := rest ++ [r1] } } r1) s

end Sys2Proof.Machine
end

