-- ==== Sys2Proof/Machine/FylMem.lean ====
section
/-!
DEFINITION. Loads, stores and descriptor registers of the Fyley cores (R567 to R570). A store is visible at once: the wait of R568
passes no observable time in the model (log entry 4).
-/
namespace Sys2Proof.Machine

/-- The rules of R567 for an access of `n` bytes at `a`: naturally aligned, else BAD_DESC; in the partition's plain range, outside
the system area and every committed meter and budget table, else PERM. -/
def accessCheck (k : Ctl) (p a n : Nat) : Option Status :=
  if a % n ≠ 0 then some .badDesc
  else if k.inPlain p a n && decide (k.sysTop ≤ a) && decide (a + n ≤ plainTop) && !k.inTables a n then none
  else some .perm

/-- Records the first failed access since the status was last read (R569). -/
def Thread.failAcc (th : Thread) (st : Status) (a : Nat) : Thread :=
  match th.acc with
  | some _ => th
  | none => { th with acc := some (st, a % 2 ^ 48) }

/-- A synchronous load of `n` bytes at `a` for thread `t`: what the thread becomes, given the value read (R567, R569). The load
waits while the partition's HBM bucket withholds it, and, since R569 lists no DOMAIN_OFF, while the plain stack is in reset (DESIGN CHOICE, log entry 187). -/
def loadThr (k : Ctl) (d : Data) (t : Nat) (th : Thread) (a n : Nat) (f : Thread → Nat → Thread) : Data :=
  match accessCheck k th.part a n with
  | some st => d.setThr t (((f th 0).failAcc st a).next 4)
  | none =>
    if !Data.mayGrant k d th.part 0 || k.plainDown a n then d
    else
      let th1 := f th (d.rd a n)
      (Data.charge k d th.part 0 n).setThr t ((if d.bad a n then th1.failAcc .poison a else th1).next 4)

/-- A posted store of the `n` low bytes of `v` at `a` (R567, R568), which waits in the same way while the plain stack is in reset. -/
def storeThr (k : Ctl) (d : Data) (t : Nat) (th : Thread) (a n v : Nat) : Data :=
  match accessCheck k th.part a n with
  | some st => d.setThr t ((th.failAcc st a).next 4)
  | none => if k.plainDown a n then d else (Data.charge k (d.wr a n v) th.part 0 n).setThr t (th.next 4)

/-- `ld`: 1, 2, 4 or 8 bytes of plain HBM at sA + OFF, zero-extended; a failed load returns zero (R567, R569). -/
def execLd (t : Nat) (p : BitVec 2) (size : BitVec 2) (rd ra : BitVec 5) (off : BitVec 12) (s : State) :
    Host.Outcome State Fault Refusal :=
  onData (fylInstr t p 4 (fun k d th =>
    loadThr k d t th (effAddr (th.sReg ra.toNat) off) (sizeBytes size) (fun th v => th.setS rd.toNat (BitVec.ofNat 64 v)))) s

/-- `st`: the low bytes of sS at sA + OFF, posted; a failed store is dropped (R567, R569). -/
def execSt (t : Nat) (p : BitVec 2) (size : BitVec 2) (rs ra : BitVec 5) (off : BitVec 12) (s : State) :
    Host.Outcome State Fault Refusal :=
  onData (fylInstr t p 4 (fun k d th =>
    storeThr k d t th (effAddr (th.sReg ra.toNat) off) (sizeBytes size) (th.sReg rs.toNat).toNat)) s

/-- `desc.ld`: dD receives the 64 bytes at sA, 64-byte aligned (R570). -/
def execDescLd (t : Nat) (p : BitVec 2) (dd : BitVec 4) (ra : BitVec 5) (s : State) : Host.Outcome State Fault Refusal :=
  onData (fylInstr t p 4 (fun k d th =>
    loadThr k d t th (th.sReg ra.toNat).toNat 64 (fun th v => th.setD dd.toNat (BitVec.ofNat 512 v)))) s

/-- `desc.st`: the 64 bytes of dS are stored at sA, posted (R570). -/
def execDescSt (t : Nat) (p : BitVec 2) (ds : BitVec 4) (ra : BitVec 5) (s : State) : Host.Outcome State Fault Refusal :=
  onData (fylInstr t p 4 (fun k d th =>
    storeThr k d t th (th.sReg ra.toNat).toNat 64 (th.dReg ds.toNat).toNat)) s

/-- `desc.set`: dD[POS+W−1:POS] receives sA[W−1:0]; bits beyond 511 are dropped (R570). -/
def execDescSet (t : Nat) (p : BitVec 2) (dd : BitVec 4) (ra : BitVec 5) (pos : BitVec 9) (w1 : BitVec 6) (s : State) :
    Host.Outcome State Fault Refusal :=
  onData (fylRegs t p 4 (fun th =>
    th.setD dd.toNat (setBits (th.dReg dd.toNat) pos.toNat (w1.toNat + 1) (th.sReg ra.toNat).toNat))) s

/-- `desc.get`: sD receives dS[POS+W−1:POS], zero-extended; bits beyond 511 read zero (R570). -/
def execDescGet (t : Nat) (p : BitVec 2) (rd : BitVec 5) (ds : BitVec 4) (pos : BitVec 9) (w1 : BitVec 6) (s : State) :
    Host.Outcome State Fault Refusal :=
  onData (fylRegs t p 4 (fun th =>
    th.setS rd.toNat (BitVec.ofNat 64 (fld (th.dReg ds.toNat) pos.toNat (w1.toNat + 1))))) s

/-- `desc.seti`, a long form: dD[POS+W−1:POS] receives IMM32[W−1:0]; a W − 1 of 32 or more is an undefined encoding (R570, R560). -/
def execDescSeti (t : Nat) (p : BitVec 2) (dd : BitVec 4) (pos : BitVec 9) (w1 : BitVec 6) (imm : BitVec 32) (s : State) :
    Host.Outcome State Fault Refusal :=
  onData (fylInstrE t p 8 (decide (w1.toNat < 32)) (fun _ d th =>
    d.setThr t ((th.setD dd.toNat (setBits (th.dReg dd.toNat) pos.toNat (w1.toNat + 1) imm.toNat)).next 8))) s

/-- `desc.clr`: dD is cleared (R570). -/
def execDescClr (t : Nat) (p : BitVec 2) (dd : BitVec 4) (s : State) : Host.Outcome State Fault Refusal :=
  onData (fylRegs t p 4 (fun th => th.setD dd.toNat 0#512)) s

/-- `desc.mov`: dD receives dS (R570). -/
def execDescMov (t : Nat) (p : BitVec 2) (dd ds : BitVec 4) (s : State) : Host.Outcome State Fault Refusal :=
  onData (fylRegs t p 4 (fun th => th.setD dd.toNat (th.dReg ds.toNat))) s

end Sys2Proof.Machine
end

