-- ==== Sys2Proof/Machine/Fyley.lean ====
section
/-!
DEFINITION. Branches and thread control, waits, flag cells, mailboxes and doorbells, launches and `sys.get` of the Fyley cores
(R571 to R586), and the faults of R78.
-/
namespace Sys2Proof.Machine

/-- The bytes of a thread's program (R571, R609). -/
def Ctl.progBytes (k : Ctl) (th : Thread) : Nat :=
  match Tab.get? k.progs (th.part * 65536 + th.prog) with
  | some g => 4 * g.words.length
  | none => 0

/-- A jump to byte `target`; a target outside the program faults, with nothing written (R571, R78). -/
def branchThr (k : Ctl) (d : Data) (t : Nat) (th th' : Thread) (target : Int) : Data :=
  if 0 ≤ target ∧ target < (k.progBytes th : Int) then d.setThr t (th'.jump target.toNat) else faultThread k d t th

/-- `br`: jumps to its own address + 4 × OFF24 (R571). -/
def execBr (t : Nat) (p : BitVec 2) (off : BitVec 24) (s : State) : Host.Outcome State Fault Refusal :=
  onData (fylInstr t p 4 (fun k d th => branchThr k d t th th ((th.pc : Int) + 4 * off.toInt))) s

/-- `jal`: writes its own address + 4 to sD and jumps to its own address + 4 × OFF19 (R571). -/
def execJal (t : Nat) (p : BitVec 2) (rd : BitVec 5) (off : BitVec 19) (s : State) : Host.Outcome State Fault Refusal :=
  onData (fylInstr t p 4 (fun k d th =>
    branchThr k d t th (th.setS rd.toNat (BitVec.ofNat 64 (th.pc + 4))) ((th.pc : Int) + 4 * off.toInt))) s

/-- `jr`: jumps to sA with bits [1:0] ignored (R571). -/
def execJr (t : Nat) (p : BitVec 2) (ra : BitVec 5) (s : State) : Host.Outcome State Fault Refusal :=
  onData (fylInstr t p 4 (fun k d th => branchThr k d t th th (((th.sReg ra.toNat).toNat / 4 * 4 : Nat) : Int))) s

/-- `yield`: gives up the slot at once; the thread goes to the back of its rank when the slot has switched (R573, R65). -/
def execYield (t : Nat) (p : BitVec 2) (s : State) : Host.Outcome State Fault Refusal :=
  onData (fylInstr t p 4 (fun _ d th => (d.setThr t (th.next 4)).yieldThr t none)) s

/-- `live`, a long form: the declaration that every later explicit yield point uses (R572). -/
def execLive (t : Nat) (p : BitVec 2) (dmask : BitVec 16) (smask : BitVec 24) (s : State) : Host.Outcome State Fault Refusal :=
  onData (fylRegs t p 8 (fun th => { th with dmask := dmask, smask := smask })) s

/-- `end`: discards the held completions and ends the thread with the status in sA[7:0]; a value that R80 does not list posts
BAD_DESC (R574, R77). -/
def execEnd (t : Nat) (p : BitVec 2) (ra : BitVec 5) (s : State) : Host.Outcome State Fault Refusal :=
  onData (fylInstr t p 4 (fun k d th =>
    endThread k d t th ((Status.ofCode? (fld (th.sReg ra.toNat) 0 8)).getD .badDesc) 0)) s

/-- A wait that can be met now leaves the thread `r`; else the thread yields until it is met (R579). -/
def waitThr (d : Data) (t : Nat) (r : Option Thread) (w : Wait) : Data :=
  match r with
  | some th => d.setThr t th
  | none => d.yieldThr t (some w)

/-- `wait.tag`: takes the oldest held completion whose TAG is s(TS)[15:0] (R579). -/
def execWaitTag (t : Nat) (p : BitVec 2) (ts : BitVec 5) (dd : BitVec 4) (wr : Bool) (pd : BitVec 2) (s : State) :
    Host.Outcome State Fault Refusal :=
  onData (fylInstr t p 4 (fun _ d th =>
    waitThr d t (th.tryTake (fun x => x == fld (th.sReg ts.toNat) 0 16) (fld (th.sReg ts.toNat) 0 16) dd.toNat wr pd.toNat)
      (.tag (fld (th.sReg ts.toNat) 0 16) dd.toNat wr pd.toNat))) s

/-- `wait.any`: takes the oldest held completion of any tag (R579). With nothing to await, the word's TAG is 0. -/
def execWaitAny (t : Nat) (p : BitVec 2) (dd : BitVec 4) (wr : Bool) (pd : BitVec 2) (s : State) :
    Host.Outcome State Fault Refusal :=
  onData (fylInstr t p 4 (fun _ d th =>
    waitThr d t (th.tryTake (fun _ => true) 0 dd.toNat wr pd.toNat) (.any dd.toNat wr pd.toNat))) s

/-- `wait.all`: yields until no operation is outstanding, then discards every held completion (R579). -/
def execWaitAll (t : Nat) (p : BitVec 2) (dd : BitVec 4) (wr : Bool) (pd : BitVec 2) (s : State) :
    Host.Outcome State Fault Refusal :=
  onData (fylInstr t p 4 (fun _ d th =>
    waitThr d t (th.tryAll dd.toNat wr pd.toNat) (.all dd.toNat wr pd.toNat))) s

/-- `fence`: the wait until the thread's posted stores are visible to every reader (R581), which the model passes at once. -/
def execFence (t : Nat) (p : BitVec 2) (s : State) : Host.Outcome State Fault Refusal :=
  onData (fylRegs t p 4 (fun th => th)) s

/-! ### Flag cells -/

/-- A flag instruction on the cell that sA names; an index at or beyond FCOUNT faults (R583, R78). While the region of the cell is fenced its flag cells stop, and the
instruction, which has no status, waits (R40, R546; DESIGN CHOICE, log entry 187). -/
def flagInstr (t : Nat) (p : BitVec 2) (ra : BitVec 5) (f : Data → Thread → Nat → Word → Data) : Ctl → Data → Data :=
  fylInstr t p 4 (fun k d th =>
    let i := (th.sReg ra.toNat).toNat
    let cell := (k.frange th.part).1 + i
    if i < (k.frange th.part).2 then (if k.down.contains (64 * (cell % 4) + 63) then d else f d th cell (Tab.getD d.mbx.flags cell 0#64)) else faultThread k d t th)

/-- `flag.set`: the cell receives sB (R583, R548). -/
def execFlagSet (t : Nat) (p : BitVec 2) (ra rb : BitVec 5) (s : State) : Host.Outcome State Fault Refusal :=
  onData (flagInstr t p ra (fun d th cell _ => (d.setThr t (th.next 4)).setFlag cell (th.sReg rb.toNat))) s

/-- `flag.add`: adds sB modulo 2^64 and returns the old value (R547). -/
def execFlagAdd (t : Nat) (p : BitVec 2) (rd ra rb : BitVec 5) (s : State) : Host.Outcome State Fault Refusal :=
  onData (flagInstr t p ra (fun d th cell v =>
    (d.setThr t ((th.setS rd.toNat v).next 4)).setFlag cell (v + th.sReg rb.toNat))) s

/-- `flag.read` (R583). -/
def execFlagRead (t : Nat) (p : BitVec 2) (rd ra : BitVec 5) (s : State) : Host.Outcome State Fault Refusal :=
  onData (flagInstr t p ra (fun d th _ v => d.setThr t ((th.setS rd.toNat v).next 4))) s

/-- `flag.wait`: with the condition met it returns the value and does not yield, else the thread waits (R547, R583). -/
def execFlagWait (t : Nat) (p : BitVec 2) (rd ra rb : BitVec 5) (cc : BitVec 2) (s : State) :
    Host.Outcome State Fault Refusal :=
  onData (flagInstr t p ra (fun d th cell v =>
    if flagCond cc.toNat v (th.sReg rb.toNat) then d.setThr t ((th.setS rd.toNat v).next 4)
    else d.yieldThr t (some (.flag cell cc.toNat (th.sReg rb.toNat) rd.toNat)))) s

/-- A waiting thread whose condition a write has made true becomes ready, with the value that write stored (R549). -/
def execFlagWaiterWake (t : Nat) (s : State) : Host.Outcome State Fault Refusal :=
  onData (fun k d =>
    match d.thr t with
    | some th =>
      match th.wait with
      | some (.flagMet rd v) => (d.setThr t ((th.setS rd v).next 4)).wake t k.ticks
      | _ => d
    | none => d) s

/-! ### Mailboxes and doorbells of the K end -/

/-- The statuses of an instruction that names a channel (R545): PERM for a channel of another partition, channel 0 or a secure
channel, CFG_INVALID for one that is not enabled. -/
def chanCheck (k : Ctl) (p c : Nat) : Option Status :=
  if c = 0 ∨ 32 ≤ c ∨ k.chPart c ≠ p then some .perm
  else if !k.chOn c then some .cfgInvalid
  else none

/-- A mailbox or doorbell instruction on the channel in sA[5:0]; a failed check writes its status to sD (R545, R584). -/
def chanInstr (t : Nat) (p : BitVec 2) (rd ra : BitVec 5) (enc : Bool) (f : Ctl → Data → Thread → Nat → Data) :
    Ctl → Data → Data :=
  fylInstrE t p 4 enc (fun k d th =>
    let c := fld (th.sReg ra.toNat) 0 6
    match chanCheck k th.part c with
    | some st => d.setThr t ((th.setS rd.toNat (statusWord st)).next 4)
    | none => f k d th c)

/-- The thread after its status, and its result in a second scalar. -/
def Thread.result (th : Thread) (rd : Nat) (st : Status) (rb : Nat) (v : Word) : Thread :=
  ((th.setS rd (statusWord st)).setS rb v).next 4

/-- The thread after `mbx.take` has taken a message: the pair receives PTR, and LEN with TAG (R584). -/
def Thread.took (th : Thread) (rd rb : Nat) (ch : Chan) : Thread :=
  (((th.setS rd (statusWord .ok)).setS rb ch.inPtr).setS (rb + 1) ch.inHi).next 4

/-- `mbx.post`: posts an OUT message, or NO_SPACE while OUT FULL; vector 32 + c is raised where MSG_IE is 1 (R545, R543). -/
def execMbxPost (t : Nat) (p : BitVec 2) (rd ra rb : BitVec 5) (s : State) : Host.Outcome State Fault Refusal :=
  onData (chanInstr t p rd ra (pairOk rb.toNat) (fun k d th c =>
    let ch := d.chan c
    if ch.outFull then d.setThr t ((th.setS rd.toNat (statusWord .noSpace)).next 4)
    else
      let d1 := (d.setThr t ((th.setS rd.toNat (statusWord .ok)).next 4)).setChan c
        { ch with outPtr := th.sReg rb.toNat, outHi := th.sReg (rb.toNat + 1), outFull := true }
      if k.chMsgIe c then d1.raiseMsix (k.chHalf c) (32 + c) else d1)) s

/-- `mbx.take`: takes the IN message and clears FULL; with none, OK_EMPTY, or the thread waits where WAIT is 1 (R545). -/
def execMbxTake (t : Nat) (p : BitVec 2) (rd ra rb : BitVec 5) (wait : Bool) (s : State) : Host.Outcome State Fault Refusal :=
  onData (chanInstr t p rd ra (pairOk rb.toNat) (fun _ d th c =>
    let ch := d.chan c
    if ch.inFull then (d.setThr t (th.took rd.toNat rb.toNat ch)).setChan c { ch with inFull := false }
    else if wait then
      let d1 := d.yieldThr t (some (.mbx c rd.toNat rb.toNat))
      { d1 with fyl := { d1.fyl with mbxWait := d1.fyl.mbxWait ++ [t] } }
    else d.setThr t ((th.setS rd.toNat (statusWord .okEmpty)).next 4))) s

/-- `db.ring`: sets the DB_H bits of a mask (R545, R541). -/
def execDbRing (t : Nat) (p : BitVec 2) (rd ra rb : BitVec 5) (s : State) : Host.Outcome State Fault Refusal :=
  onData (chanInstr t p rd ra true (fun k d th c =>
    let ch := d.chan c
    (Data.setDbH k d c (ch.dbH ||| (th.sReg rb.toNat).setWidth 32) ch.dbHEn).setThr t
      ((th.setS rd.toNat (statusWord .ok)).next 4))) s

/-- `db.take`: sB receives DB_K AND mask, and those bits are cleared; OK_EMPTY where the result is zero (R545, R584). -/
def execDbTake (t : Nat) (p : BitVec 2) (rd ra rb : BitVec 5) (s : State) : Host.Outcome State Fault Refusal :=
  onData (chanInstr t p rd ra true (fun _ d th c =>
    let ch := d.chan c
    let r := ch.dbK &&& (th.sReg rb.toNat).setWidth 32
    (d.setThr t (th.result rd.toNat (if r == 0#32 then .okEmpty else .ok) rb.toNat (r.setWidth 64))).setChan c
      { ch with dbK := ch.dbK &&& ~~~ r })) s

/-- `db.wait`: waits until DB_K AND mask is not zero, and clears nothing (R545, R584). -/
def execDbWait (t : Nat) (p : BitVec 2) (rd ra rb : BitVec 5) (s : State) : Host.Outcome State Fault Refusal :=
  onData (chanInstr t p rd ra true (fun _ d th c =>
    let mask : BitVec 32 := (th.sReg rb.toNat).setWidth 32
    let r := (d.chan c).dbK &&& mask
    if r == 0#32 then d.yieldThr t (some (.db c mask rd.toNat rb.toNat))
    else d.setThr t (th.result rd.toNat .ok rb.toNat (r.setWidth 64)))) s

/-! ### Launching and reading the surroundings -/

/-- `thr.launch`: writes d(DS) as a launch descriptor into the partition's ring on TILE, or the real-time ring, and advances PROD
as one step (R585, R551). -/
def execThrLaunch (t : Nat) (p : BitVec 2) (rd : BitVec 5) (ds tile : BitVec 4) (rt : Bool) (s : State) :
    Host.Outcome State Fault Refusal :=
  onData (fylInstr t p 4 (fun k d th =>
    let r := if rt then ringNo true 0 tile.toNat else ringNo false th.part tile.toNat
    let g := d.ring r
    let st : Status :=
      if !k.ringOn r then .cfgInvalid
      else if !k.ringThreads r || (rt && th.part != 0) then .perm
      else if (g.prod + 2 ^ 32 - g.cprod) % 2 ^ 32 = k.ringSize r then .noSpace
      else .ok
    let d1 := d.setThr t ((th.setS rd.toNat (statusWord st)).next 4)
    if st = .ok then
      (d1.wr (k.ringBase r + 64 * (g.prod % Nat.max 1 (k.ringSize r))) 64 (th.dReg ds.toNat).toNat).setRing r
        { g with prod := (g.prod + 1) % 2 ^ 32 }
    else d1)) s

/-- The identity word of SEL 2 (R586). -/
def Thread.ident (t : Nat) (th : Thread) : Word :=
  let cs := match th.run with
    | .inSlot c sl => (c, sl)
    | .leaving c sl => (c, sl)
    | _ => (0, 0)
  BitVec.ofNat 64
    ((match th.bsk with | some b => b % 2 ^ 20 | none => 0xFFFFF) + th.part % 16 * 2 ^ 20 + tileOf t % 16 * 2 ^ 24 +
     cs.1 % 4 * 2 ^ 28 + cs.2 % 8 * 2 ^ 30 + th.cls % 8 * 2 ^ 33 + (if th.rt then 1 else 0) * 2 ^ 36 +
     th.prog % 2 ^ 16 * 2 ^ 37 + (match th.bsk with | some _ => 0 | none => 1) * 2 ^ 53)

/-- The access status or LOST as SEL 4 and SEL 5 read it: STATUS in [7:0], the second part from bit `lo`. -/
def pairWord (x : Option (Status × Nat)) (lo : Nat) : Word :=
  match x with
  | some (st, v) => BitVec.ofNat 64 (st.code + v * 2 ^ lo)
  | none => 0#64

/-- `sys.get`: the thread's surroundings by SEL; a SEL above 5 is an undefined encoding (R586, R560). -/
def execSysGet (t : Nat) (p : BitVec 2) (rd : BitVec 5) (sel : BitVec 9) (s : State) : Host.Outcome State Fault Refusal :=
  onData (fylInstrE t p 4 (decide (sel.toNat ≤ 5)) (fun k d th =>
    let th' := match sel.toNat with
      | 0 => { th.setS rd.toNat (BitVec.ofNat 64 k.ns) with frac := k.frac / 2 ^ 16 }
      | 1 => th.setS rd.toNat (BitVec.ofNat 64 (th.frac % 2 ^ 16))
      | 2 => th.setS rd.toNat (Thread.ident t th)
      | 3 => th.setS rd.toNat (BitVec.ofNat 64 (th.ops.length % 64 + th.held.length % 64 * 2 ^ 8))
      | 4 => { th.setS rd.toNat (pairWord th.acc 16) with acc := none }
      | _ => { th.setS rd.toNat (pairWord th.lost 16) with lost := none }
    d.setThr t (th'.next 4))) s

/-! ### Undefined encodings -/

/-- A field [hi:lo] of an instruction word. -/
def iw (w : BitVec 32) (hi lo : Nat) : Nat := fld w lo (hi + 1 - lo)

/-- Whether a MAJOR has the long form (R563). -/
def longMajor (m : Nat) : Bool := m == 0x09 || m == 0x10 || m == 0x16 || m == 0x1A || m == 0x1B

/-- The operations of each engine code (R577). -/
def engineOps (eng : Nat) : Nat :=
  match eng with
  | 0x1 => 6 | 0x2 => 4 | 0x3 => 1 | 0x4 => 2 | 0x5 => 7 | 0x6 => 10 | 0x7 => 7 | 0x8 => 6 | 0x9 => 3 | 0xA => 14 | 0xB => 5
  | _ => 0

/-- Whether an instruction word, with the word after it, is a defined encoding (R560 to R586). -/
def encodingOk (w0 w1 : BitVec 32) : Bool :=
  match iw w0 31 26 with
  | 0x01 => decide (iw w0 8 0 ≤ 0x011) && (decide (iw w0 8 0 < 0x00F) || iw w0 13 9 == 0)
  | 0x02 => true | 0x03 => true | 0x04 => true | 0x05 => true
  | 0x06 => decide (iw w0 13 12 ≤ 2) && iw w0 11 6 == 0
  | 0x07 =>
    iw w0 23 21 == 0 &&
    (match iw w0 8 6 with
     | 0 => decide (iw w0 2 0 ≤ 5) && iw w0 5 3 == 0
     | 1 => iw w0 18 16 == 0 && iw w0 13 11 == 0
     | 2 => iw w0 18 16 == 0 && iw w0 13 11 == 0
     | 3 => iw w0 18 16 == 0 && iw w0 13 9 == 0
     | 4 => iw w0 13 9 == 0
     | _ => false)
  | 0x08 => decide (iw w0 23 21 ≤ 5)
  | 0x09 => iw w0 18 1 == 0
  | 0x0A => true | 0x0B => true
  | 0x0C => iw w0 14 0 == 0
  | 0x0D => iw w0 14 0 == 0
  | 0x0E => true | 0x0F => true
  | 0x10 => iw w0 19 15 == 0 && decide (iw w0 5 0 < 32)
  | 0x11 => iw w0 15 1 == 0 && (iw w0 0 0 == 1 || iw w0 19 16 == 0)
  | 0x12 => true | 0x13 => true
  | 0x14 => iw w0 23 19 == 0 && iw w0 13 0 == 0
  | 0x15 => iw w0 23 0 == 0
  | 0x16 => iw w0 23 16 == 0 && iw w1 31 24 == 0
  | 0x17 => iw w0 23 19 == 0 && iw w0 13 0 == 0
  | 0x18 => decide (iw w0 13 12 ≤ 2) && iw w0 9 0 == 0
  | 0x19 => iw w0 23 0 == 0
  | 0x1A => iw w0 3 0 == 0 && iw w0 13 9 == 0 && iw w1 31 5 == 0
  | 0x1B => iw w0 3 0 == 0 && iw w1 31 5 == 0
  | 0x1C =>
    decide (iw w0 8 6 ≤ 3) && iw w0 3 0 == 0 && (iw w0 8 6 == 3 || iw w0 5 4 == 0) &&
    (iw w0 8 6 != 0 || iw w0 23 19 == 0) && (iw w0 8 6 != 2 || iw w0 13 9 == 0)
  | 0x1D =>
    decide (iw w0 8 6 ≤ 4) && iw w0 4 0 == 0 && (iw w0 8 6 == 1 || iw w0 5 5 == 0) &&
    (decide (2 ≤ iw w0 8 6) || pairOk (iw w0 13 9))
  | 0x1E => iw w0 9 0 == 0
  | 0x1F => decide (iw w0 8 0 ≤ 5) && iw w0 18 9 == 0
  | 0x20 => decide (iw w0 10 7 < engineOps (iw w0 14 11)) && iw w0 6 0 == 0
  | _ => false

/-- The byte that a branch word jumps to, for the three branch instructions (R571). -/
def branchTarget (th : Thread) (w0 : BitVec 32) : Option Int :=
  match iw w0 31 26 with
  | 0x12 => some ((th.pc : Int) + 4 * ((w0.extractLsb' 0 24).toInt))
  | 0x13 => some ((th.pc : Int) + 4 * ((w0.extractLsb' 0 19).toInt))
  | 0x14 => some (((th.sReg (iw w0 18 14)).toNat / 4 * 4 : Nat) : Int)
  | _ => none

/-- Whether a thread that meets a word faults on it (R78): an undefined encoding, a misaligned long form, or, where its predicate
reads 1, a branch outside its program or a flag cell beyond its partition's range. -/
def faultsOn (k : Ctl) (th : Thread) (w0 w1 : BitVec 32) : Bool :=
  !encodingOk w0 w1 ||
  (longMajor (iw w0 31 26) && th.pc % 8 != 0) ||
  (th.pReg (iw w0 25 24) &&
    ((match branchTarget th w0 with
      | some x => !(decide (0 ≤ x) && decide (x < (k.progBytes th : Int)))
      | none => false) ||
     (iw w0 31 26 == 0x1C && decide ((k.frange th.part).2 ≤ (th.sReg (iw w0 18 14)).toNat))))

/-- A thread meets a word (with the word after it) that faults: it stops at the instruction and ends with BAD_DESC (R78). A word that
does not fault has no effect by this command; its own command is its step. -/
def execUndefinedEncodingFault (t : Nat) (w0 w1 : BitVec 32) (s : State) : Host.Outcome State Fault Refusal :=
  onData (fun k d =>
    match d.thr t with
    | some th => if th.running && faultsOn k th w0 w1 then faultThread k d t th else d
    | none => d) s

end Sys2Proof.Machine
end

