-- ==== Sys2Proof/Machine/Mailbox.lean ====
section
/-!
DEFINITION. The H end of the mailbox channels and launch rings (R535 to R555), the partition pages (R544, R699), and the refusals of R12, R537, R554 and R589.
-/
namespace Sys2Proof.Machine

/-- MBX_STS (R559). -/
def mbxSts : Nat := 0x0600140
/-- A counter of MBX_CNT (R559): 0 OVERRUN, 1 BAD_PROD, 2 OFF_DROP, 3 SEC_VIOL, 4 MSIX_SENT. -/
def mbxCnt (i : Nat) : Nat := cntAddr 0x06 0 i

/-- The number of a path in GLB_TRAP (R705): 0 for the management path. -/
def trapPath : Path → Nat
  | .half h => 1 + h
  | .session _ => 0

/-! ### Refused accesses -/

/-- An unmapped access (R12, R704, R705). -/
def unmapped (x : Ctl × Data) (path : Path) (a : Nat) (write : Bool) : Ctl × Data :=
  let k := x.1
  let first := !x.2.stsBit 0x0000080 0
  (if first then { k with shell := { k.shell with uTrap := some (a % 2 ^ 26, write, trapPath path) } } else k, x.2.setSts 0x0000080 0)

/-- An action dropped because its block's domain is down (R50, R705). -/
def droppedAction (x : Ctl × Data) (path : Path) (a : Nat) : Ctl × Data :=
  let k := x.1
  let first := !x.2.stsBit 0x0000080 1
  (if first then { k with shell := { k.shell with dTrap := some (a % 2 ^ 26, trapPath path) } } else k, x.2.setSts 0x0000080 1)

/-- A Bridle access that R589 refuses, for a partition: HOST_VIOL, its counter and a SECURITY record (R611, R625). -/
def hostViol (k : Ctl) (d : Data) (p : Nat) : Data :=
  plainRec k ((d.setSts (objKey 0x07000C0 p) 6).bump (cntAddr 0x07 p 0) 1) 7 0

/-- An access to a secure channel that R537 refuses. -/
def secViol (k : Ctl) (d : Data) : Data := plainRec k ((d.setSts mbxSts 0).bump (mbxCnt 3) 1) 7 0

/-- Whether the K ends of a partition's channels and launch rings are down (R554): the chip is not running. -/
def Ctl.kDown (k : Ctl) : Bool := k.pwr.state != .run || k.rst.stage != 15

/-- Whether the K end of a channel is down (R554). -/
def Ctl.chDown (k : Ctl) (c : Nat) : Bool :=
  if c = 0 ∨ c = 32 then false else if c < 32 then k.kDown else k.pwr.state == .s3

/-- An access to a channel or launch block whose K end is down (R554). -/
def offAccess (d : Data) (path : Path) (a : Nat) (write : Bool) : Data :=
  match path with
  | .session _ => d.emit (.refuse path a)
  | .half _ => if write then (d.setSts mbxSts 4).bump (mbxCnt 2) 1 else d.emit (.refuse path a)

/-! ### Channels -/

/-- A message posted on IN meets a thread that waits for it (R545): the first to have begun its wait takes it. -/
def serveTake (k : Ctl) (d : Data) (c : Nat) : Data :=
  let isOf := fun (t : Nat) => match d.thr t with
    | some th => (match th.wait with | some (.mbx ch _ _) => ch == c | _ => false)
    | none => false
  if !(d.chan c).inFull then d
  else
    match d.fyl.mbxWait.find? isOf with
    | none => d
    | some t =>
      match d.thr t with
      | some th =>
        match th.wait with
        | some (.mbx _ rd rb) =>
          let ch := d.chan c
          let d1 := (d.setThr t (th.took rd rb ch)).setChan c { ch with inFull := false }
          Data.wake { d1 with fyl := { d1.fyl with mbxWait := d1.fyl.mbxWait.filter (fun y => y != t) } } t k.ticks
        | _ => d
      | none => d

/-- Every thread that waits in `db.wait` on a channel and whose mask a set bit meets becomes ready with its result (R545). -/
def serveBells (k : Ctl) (d : Data) (c : Nat) : Data :=
  (d.fyl.threads.map (fun e => e.1)).foldl (fun e t =>
    match e.thr t with
    | some th =>
      match th.wait with
      | some (.db ch mask rd rb) =>
        let r := (e.chan c).dbK &&& mask
        if ch = c ∧ r ≠ 0#32 then (e.setThr t (th.result rd .ok rb (r.setWidth 64))).wake t k.ticks else e
      | _ => e
    | none => e) d

/-- STS of a channel (R544). -/
def chanSts (k : Ctl) (d : Data) (c : Nat) : Word :=
  let ch := d.chan c
  BitVec.ofNat 64 (b2n ch.inFull + b2n ch.outFull * 2 + b2n ch.ovr * 4 + b2n (k.chDown c) * 8)

/-- What a read of the field at byte `o` of a channel block returns (R544). -/
def chanRead (k : Ctl) (d : Data) (c o : Nat) : Word :=
  let ch := d.chan c
  match o with
  | 0x10 => ch.outPtr
  | 0x18 => ch.outHi
  | 0x20 => chanSts k d c
  | 0x30 => ch.dbH.setWidth 64
  | 0x38 => ch.dbHEn.setWidth 64
  | _ => 0#64

/-- What a read of it changes: a read of OUT_HI takes the message (R539). -/
def chanReadEffect (d : Data) (c o : Nat) : Data :=
  if o = 0x18 then d.setChan c { d.chan c with outFull := false } else d

/-- A write into the field at byte `o` of a channel block, of the bits of `m` (R539, R541, R543, R544). -/
def chanWrite (k : Ctl) (d : Data) (c o : Nat) (v m : Word) : Data :=
  let ch := d.chan c
  let lo : BitVec 32 := (v &&& m).setWidth 32
  match o with
  | 0x00 =>
    if ch.inFull then ((d.setChan c { ch with ovr := true }).setSts mbxSts 1).bump (mbxCnt 0) 1
    else if m = BitVec.allOnes 64 then d.setChan c { ch with inPtr := v } else d
  | 0x08 =>
    if ch.inFull then ((d.setChan c { ch with ovr := true }).setSts mbxSts 1).bump (mbxCnt 0) 1
    else serveTake k (d.setChan c { ch with inHi := (ch.inHi &&& ~~~ m) ||| (v &&& m), inFull := true }) c
  | 0x20 => if bitAt (v &&& m) 2 then d.setChan c { ch with ovr := false } else d
  | 0x28 => serveBells k (d.setChan c { ch with dbK := ch.dbK ||| lo }) c
  | 0x30 => Data.setDbH k d c (ch.dbH &&& ~~~ lo) ch.dbHEn
  | 0x38 => Data.setDbH k d c ch.dbH ((ch.dbHEn &&& ~~~ (m.setWidth 32)) ||| lo)
  | _ => d

/-! ### Launch blocks -/

/-- What a read of a launch block returns: PROD, CONS, CPROD, CCONS (R544). -/
def ringRead (d : Data) (r o : Nat) : Word :=
  let g := d.ring r
  BitVec.ofNat 64 (match o with | 0 => g.prod | 8 => g.cons | 16 => g.cprod | 24 => g.ccons | _ => 0)

/-- A write into a launch block (R551): PROD of a ring fed by the host, within CCONS + SIZE, or CCONS up to CPROD. -/
def ringWrite (k : Ctl) (d : Data) (r o : Nat) (v m : Word) : Data :=
  let g := d.ring r
  let x := fld v 0 32
  let ahead := fun (a b : Nat) => (a + 2 ^ 32 - b) % 2 ^ 32
  if !k.ringOn r || fld m 0 32 != 2 ^ 32 - 1 then d
  else
    match o with
    | 0 =>
      if k.ringThreads r then d
      else if ahead (g.ccons + k.ringSize r) g.prod < ahead x g.prod then (d.setSts mbxSts 2).bump (mbxCnt 1) 1
      else d.setRing r { g with prod := x }
    | 24 => if !k.ringThreads r && decide (ahead x g.ccons ≤ ahead g.cprod g.ccons) then d.setRing r { g with ccons := x } else d
    | _ => d

/-! ### Pages -/

/-- What an offset of a partition's page names (R544). -/
inductive PageItem where
  | ring (r o : Nat)
  | chan (c o : Nat)
  | nothing
deriving DecidableEq, Repr

/-- The item at an 8-byte offset of the page of partition `p`. -/
def Ctl.pageItem (k : Ctl) (p o : Nat) : PageItem :=
  if o < 0x200 then .ring (ringNo false p (o / 32)) (o % 32 / 8 * 8)
  else if o < 0x400 ∧ p = 0 then .ring (ringNo true 0 ((o - 0x200) / 32)) (o % 32 / 8 * 8)
  else if 0x1000 ≤ o ∧ o < 0x1800 ∧ k.chPart ((o - 0x1000) / 64) = p then .chan ((o - 0x1000) / 64) (o % 64 / 8 * 8)
  else .nothing

/-- The control-space address of an offset of a partition's page (R699). -/
def pageAddr (p o : Nat) : Nat := 0x03F00000 + 0x10000 * p + o

/-- Whether a path may reach a partition's registers and page (R589). -/
def Ctl.pathMay (k : Ctl) (path : Path) (p : Nat) : Bool :=
  match path with
  | .session _ => true
  | .half h => k.halfMay p h

/-- A write to a partition's page. -/
def pageWrite (x : Ctl × Data) (path : Path) (p o : Nat) (v m : Word) : Ctl × Data :=
  let k := x.1
  let d := x.2
  let a := pageAddr p o
  if !k.pathMay path p then (k, hostViol k d p)
  else
    match k.pageItem p o with
    | .nothing => unmapped x path a true
    | .ring r f => if k.kDown then (k, offAccess d path a true) else (k, ringWrite k d r f v m)
    | .chan c f =>
      if k.chDown c then (k, offAccess d path a true)
      else if !k.chOn c then x
      else (k, chanWrite k d c f v m)

/-- A read of a partition's page. -/
def pageRead (x : Ctl × Data) (path : Path) (p o : Nat) : Ctl × Data :=
  let k := x.1
  let d := x.2
  let a := pageAddr p o
  let out := fun (e : Data) (v : Word) => (k, e.emit (.readData path a v))
  if !k.pathMay path p then out (hostViol k d p) 0#64
  else
    match k.pageItem p o with
    | .nothing => ((unmapped x path a false).1, (unmapped x path a false).2.emit (.readData path a 0#64))
    | .ring r f => if k.kDown then (k, offAccess d path a false) else out d (ringRead d r f)
    | .chan c f =>
      if k.chDown c && f != 0x20 then (k, offAccess d path a false)
      else if !k.chOn c then out d 0#64
      else out (chanReadEffect d c f) (chanRead k d c f)

/-- The offset of a field of a channel's block in its owner's page. -/
def chanOff (c o : Nat) : Nat := 0x1000 + 64 * c + o

/-- The H end's block of a secure channel (R698), which only the management path reaches (R537). -/
def secureAddr (c o : Nat) : Nat := 0x0810000 + 64 * (c - 32) + o

/-- A write to a secure channel's block. -/
def secureWrite (x : Ctl × Data) (path : Path) (c o : Nat) (v m : Word) : Ctl × Data :=
  let k := x.1
  match path with
  | .half _ => (k, secViol k x.2)
  | .session _ =>
    if k.chDown c then (k, offAccess x.2 path (secureAddr c o) true)
    else if !k.chOn c then x
    else (k, chanWrite k x.2 c o v m)

/-- A read of a secure channel's block. -/
def secureRead (x : Ctl × Data) (path : Path) (c o : Nat) : Ctl × Data :=
  let k := x.1
  let d := x.2
  match path with
  | .half _ => (k, (secViol k d).emit (.readData path (secureAddr c o) 0#64))
  | .session _ =>
    if k.chDown c && o != 0x20 then (k, offAccess d path (secureAddr c o) false)
    else if !k.chOn c then (k, d.emit (.readData path (secureAddr c o) 0#64))
    else (k, (chanReadEffect d c o).emit (.readData path (secureAddr c o) (chanRead k d c o)))

/-- A write of the H end to a field of a channel, through the page that path uses or the block of a secure channel. -/
def hWrite (x : Ctl × Data) (path : Path) (part c o : Nat) (v : Word) : Ctl × Data :=
  if 32 ≤ c ∧ c < 64 then secureWrite x path c o v (BitVec.allOnes 64)
  else if c < 32 ∧ part < 16 then pageWrite x path part (chanOff c o) v (BitVec.allOnes 64)
  else x

/-- The H end writes IN_LO (R539). -/
def execInLo (path : Path) (part chan : Nat) (value : BitVec 64) (s : State) : Host.Outcome State Fault Refusal :=
  onBoth (fun x => hWrite x path part chan 0x00 value) s
/-- The H end writes IN_HI, which posts the message (R539). -/
def execInHi (path : Path) (part chan : Nat) (value : BitVec 64) (s : State) : Host.Outcome State Fault Refusal :=
  onBoth (fun x => hWrite x path part chan 0x08 value) s
/-- The H end reads OUT_HI, which takes the message (R539). -/
def execOutHi (path : Path) (part chan : Nat) (s : State) : Host.Outcome State Fault Refusal :=
  onBoth (fun x =>
    if 32 ≤ chan ∧ chan < 64 then secureRead x path chan 0x18
    else if chan < 32 ∧ part < 16 then pageRead x path part (chanOff chan 0x18)
    else x) s
/-- The H end rings DB_K bits (R541). -/
def execDbKSet (path : Path) (part chan : Nat) (bits : BitVec 32) (s : State) : Host.Outcome State Fault Refusal :=
  onBoth (fun x => hWrite x path part chan 0x28 (bits.setWidth 64)) s
/-- The H end clears DB_H bits (R541). -/
def execDbH (path : Path) (part chan : Nat) (bits : BitVec 32) (s : State) : Host.Outcome State Fault Refusal :=
  onBoth (fun x => hWrite x path part chan 0x30 (bits.setWidth 64)) s
/-- The H end writes DB_H_EN (R543). -/
def execDbHEn (path : Path) (part chan : Nat) (bits : BitVec 32) (s : State) : Host.Outcome State Fault Refusal :=
  onBoth (fun x => hWrite x path part chan 0x38 (bits.setWidth 64)) s

/-- The offset of a launch block in a page (R544). -/
def launchOff (tile : Nat) (rt : Bool) (o : Nat) : Nat := (if rt then 0x200 else 0) + 32 * tile + o

/-- The host writes PROD of a launch ring (R551). -/
def execLaunchProd (path : Path) (part tile : Nat) (rt : Bool) (value : BitVec 32) (s : State) : Host.Outcome State Fault Refusal :=
  onBoth (fun x => if part < 16 ∧ tile < 16 then pageWrite x path part (launchOff tile rt 0) (value.setWidth 64) (BitVec.allOnes 64) else x) s
/-- The host writes CCONS of a launch ring (R551). -/
def execCcons (path : Path) (part tile : Nat) (rt : Bool) (value : BitVec 32) (s : State) : Host.Outcome State Fault Refusal :=
  onBoth (fun x => if part < 16 ∧ tile < 16 then pageWrite x path part (launchOff tile rt 24) (value.setWidth 64) (BitVec.allOnes 64) else x) s

/-- A Bridle half reaches for a secure channel (R537): it reads zero, changes nothing, and is recorded. -/
def execSecViol (half chan : Nat) (write : Bool) (s : State) : Host.Outcome State Fault Refusal :=
  onBoth (fun x =>
    if 8 ≤ half ∨ chan < 32 ∨ 64 ≤ chan then x
    else if write then secureWrite x (.half half) chan 0 0#64 0#64
    else secureRead x (.half half) chan 0) s

/-- A pending MSI-X vector of a half is sent once when it is unmasked, or when the half has returned to L0 (R543). -/
def execMsixSend (half vec : Nat) (unmask : Bool) (s : State) : Host.Outcome State Fault Refusal :=
  onData (fun _ d =>
    let i := 64 * half + vec
    if 8 ≤ half ∨ 64 ≤ vec then d
    else
      let d1 := if unmask && !d.mbx.msixOn.contains i then { d with mbx := { d.mbx with msixOn := d.mbx.msixOn ++ [i] } } else d
      if d1.mbx.msixPend.contains i && d1.mbx.msixOn.contains i && (d1.half half).up then
        (Data.emit { d1 with mbx := { d1.mbx with msixPend := d1.mbx.msixPend.filter (fun y => y != i) } } (.msix half vec)).bump (mbxCnt 4) 1
      else d1) s

end Sys2Proof.Machine
end

