-- ==== Sys2Proof/Machine/Sched.lean ====
section
/-!
DEFINITION. What runs the threads and their operations: the start of operations at the heads of the engines' queues (R577, R487), the meters' decisions on them
(R489), the posting of completions (R74), launches (R59, R60, R69, R552), and the slots' switching (R64 to R69).
-/
namespace Sys2Proof.Machine

/-! ### Starting operations -/

/-- The work of each operation, by engine and operation code (R577). -/
def runOp (eng op : Nat) : EngRun :=
  match eng, op with
  | 1, 0 => runPushLayer | 1, 1 => runPushEnd | 1, 2 => runPullPages | 1, 3 => runFeedLayer | 1, 4 => runPushPrefix | 1, 5 => runBdlRelease
  | 2, 0 => runSailCmd false | 2, 1 => runSailCmd true | 2, 2 => runSailAttn | 2, 3 => runSailDelta
  | 3, 0 => runMrgOpen
  | 4, 0 => runEnvPack | 4, 1 => runEnvUnpack
  | 5, 0 => runMatSearch | 5, 1 => runMatInsert | 5, 2 => runMatDelete | 5, 3 => runMatSpread | 5, 4 => runMatHash | 5, 5 => runMatRun
  | 5, 6 => runTieEvict
  | 6, 0 => runQpCreate | 6, 1 => runQpConnect | 6, 2 => runQpDestroy | 6, 3 => runTqSend | 6, 4 => runTqRecv | 6, 5 => runTqWrite
  | 6, 6 => runAtomic 3 | 6, 7 => runAtomic 4 | 6, 8 => runTqReg | 6, 9 => runTqRevoke
  | 7, 0 => runFab 0x30 | 7, 1 => runFab 0x32 | 7, 2 => runFab 0x33 | 7, 3 => runFab 0x34 | 7, 4 => runGop | 7, 5 => runFabReset | 7, 6 => runFabHb
  | 8, 0 => runBlsRead | 8, 1 => runBlsWrite | 8, 2 => runBlsTrim | 8, 3 => runBlsFlush | 8, 4 => runBlsFormat | 8, 5 => runBlsMaint
  | 9, 0 => runKvwMap | 9, 1 => runKvwUnmap | 9, 2 => runKvAppend
  | 10, 0 => runBskAdmit | 10, 1 => runBskRelease | 10, 2 => runBskQuery | 10, 3 => runBskPark | 10, 4 => runBskResume | 10, 5 => runBskUnhold
  | 10, 6 => runAdpPublish | 10, 7 => runAdpPin | 10, 8 => runAdpUnpin | 10, 9 => runAdpRetire | 10, 10 => runAdpFetch | 10, 11 => runAdpPlace
  | 10, 12 => runSpecCommit | 10, 13 => runBskPrefill
  | 11, 0 => runBudCharge | 11, 1 => runBudSet | 11, 2 => runBudQuery | 11, 3 => runTrfMset | 11, 4 => runTrfMget
  | _, _ => fun _ d _ _ => d

/-- Starts what a thread's engines can start now. -/
def kick (k : Ctl) (d : Data) (t : Nat) : Data :=
  match d.thr t with
  | some th => startOps runOp k t th.ops d []
  | none => d

/-- Starts what any thread's engines can start now. -/
def kickAll (k : Ctl) (d : Data) : Data := d.fyl.threads.foldl (fun e x => kick k e x.1) d

/-! ### Meters -/

/-- B of an operation (R487). -/
def meterBytes (k : Ctl) (d : Data) (th : Thread) (o : Op) : Nat :=
  let x := o.desc
  let b := th.bsk.getD 0
  let m := (d.basket b).model
  match o.eng, o.op with
  | 1, 0 => if df x 0 9 1 = 1 then 0 else (pushPages k d b (df x 0 0 8) (df x 4 0 32) (df x 8 0 21)).2.length * k.pageBytes m
  | 1, 2 => df x 8 0 13 * df x 17 0 9 * k.pageBytes m
  | 1, 3 => 4 * df x 8 0 13 * k.mdlT m * k.mdlKh m * k.mdlD m
  | 1, 4 => df x 8 0 13 * k.mdlLayers m * k.pageBytes m
  | 2, 3 =>
    let es := (List.range (df x 0 10 6)).map (fun i => d.rd (df x 8 0 48 + 4 * i) 4)
    let a := match es with
      | e :: _ => ((adpFind k d th.part (d.basket (bitsOf e 0 20)).adapter.toNat).map (fun y => y.1)).getD 0
      | [] => 0
    4 * es.foldl (fun n e => n + bitsOf e 20 7) 0 * (if a = 0 then 0 else avNout d a (df x 0 8 2))
  | 3, 0 =>
    let dim := 64 * 2 ^ df x 0 12 2
    if df x 20 3 1 = 1 then df x 2 0 13 * (8 + 4 * dim) else df x 2 0 13 * dim * (if df x 0 14 1 = 1 then 4 else 2) * df x 20 0 3
  | 4, 1 => 4096 * df x 20 0 23
  | 6, 6 => 8
  | 6, 7 => 8
  | 6, _ => df x 16 0 25
  | 7, 2 => 8
  | 7, 3 => 8
  | 7, _ => df x 16 0 25
  | 8, _ => 16384 * df x 16 0 17
  | 10, _ => df x 16 0 40
  | _, _ => 0

/-- An operation is held by a meter no longer: the time is counted (R506). -/
def unhold (k : Ctl) (d : Data) (t id : Nat) : Data :=
  match d.trf.meterHeld.find? (fun h => h.thread == t && h.opId == id) with
  | none => d
  | some h =>
    let p := match d.thr t with | some th => th.part | none => 0
    Data.bump { d with trf := { d.trf with meterHeld := d.trf.meterHeld.filter (fun y => !(y.thread == t && y.opId == id)) } } (trfCnt p 3)
      (2 * (k.ticks - h.since))

/-- The meter passes an operation in a class: the engine starts it, unless its stream is open already (R307), and then what it held. -/
def letPass (k : Ctl) (d : Data) (t : Nat) (o : Op) (cls : Nat) : Data :=
  let d1 := (unhold k d t o.id).onOp t o.id (fun y => { y with cls := cls, metered := true })
  kick k (if o.started then d1 else runOp o.eng o.op k d1 t o.id) t

/-- The meter decides on an operation (R488, R489). -/
def meterOp (k : Ctl) (d : Data) (t : Nat) (th : Thread) (o : Op) : Data :=
  match metering k d th o with
  | .pass => letPass k d t o o.cls
  | .unmetered => letPass k (d.trfSts 4) t o o.cls
  | .entry a =>
    let b := meterBytes k d th o
    let r := meterTake d th.part a k.ns o.pre b
    match meterAct r.1 a r.2 with
    | 1 => letPass k r.1 t o (r.1.rd (a + 17) 1 % 8)
    | 2 =>
      if r.1.trf.meterHeld.any (fun h => h.thread == t && h.opId == o.id) then
        { r.1 with trf := { r.1.trf with
          meterHeld := r.1.trf.meterHeld.map (fun h => if h.thread = t ∧ h.opId = o.id then { h with again := false } else h) } }
      else { r.1 with trf := { r.1.trf with meterHeld := r.1.trf.meterHeld ++ [⟨t, o.id, o.eng, b, a, k.ticks, false⟩] } }
    | _ => letPass k r.1 t o o.cls

/-- Whether an operation is at the head of its engine's queue and not started. -/
def atHead (d : Data) (t : Nat) (th : Thread) (o : Op) : Bool :=
  !o.started && o.done.isNone &&
  ((th.ops.find? (fun x => x.eng == o.eng && !x.started && x.done.isNone)).map (fun x => x.id)) == some o.id &&
  !(match o.bsk with | some b => commitHolds d t o b | none => false)

/-- An operation at the head of its engine's queue is metered, once (R487 to R489); a `mrg.open` also while its stream is open (R307). -/
def execMeterColour (t op : Nat) (s : State) : Host.Outcome State Fault Refusal :=
  onData (fun k d =>
    match d.thr t with
    | none => d
    | some th =>
      match th.ops.find? (fun o => o.id == op) with
      | none => d
      | some o =>
        if !(atHead d t th o || (o.eng == 3 && o.started && o.done.isNone)) || o.metered || d.trf.meterHeld.any (fun h => h.thread == t && h.opId == op) then d else meterOp k d t th o) s

/-- A deferred operation is metered again when TP has become positive, or at once after `trf.mset` (R489, R490). -/
def execMeterDeferRetry (t op : Nat) (s : State) : Host.Outcome State Fault Refusal :=
  onData (fun k d =>
    match d.trf.meterHeld.find? (fun h => h.thread == t && h.opId == op), d.thr t with
    | some h, some th =>
      match th.ops.find? (fun o => o.id == op) with
      | none => d
      | some o => if h.again || decide (0 < (meterGrow d h.entry k.ns).2.1) then meterOp k d t th o else d
    | _, _ => d) s

/-! ### Completions -/

/-- The last lookup or pull of a Basket in PREFIX has completed (R93). -/
def settlePrefix (k : Ctl) (d : Data) (b : Nat) : Data :=
  let x := d.basket b
  if x.state = .inPrefix ∧ !d.fyl.threads.any (fun e => e.2.bsk == some b &&
      e.2.ops.any (fun o => o.started && ((o.eng == 5 && o.op == 5) || (o.eng == 1 && o.op == 2)))) then
    d.onBasket b (fun y => y.enter k .prefill true none)
  else d

/-- What waits for operations to complete goes on: parks, the ends of pushes, speculative commits, and operations held behind them. -/
def settleAll (k : Ctl) (d : Data) : Data :=
  let d1 := d.bsk.tab.foldl (fun e x => settlePark k e x.1) d
  let d2 := settleEnds k d1
  kickAll k (settleCommits k d2.adp.commits d2)

/-- A finished operation's completion word is posted into its thread's ring, its pins dropped (R74, R144); a Basket in PREFIX goes on to PREFILL with its last
lookup or pull (R93), and what waited for the operation goes on. -/
def execCompletionPost (t op : Nat) (s : State) : Host.Outcome State Fault Refusal :=
  onData (fun k d =>
    match d.thr t with
    | none => d
    | some th =>
      match th.ops.find? (fun o => o.id == op) with
      | none => d
      | some o =>
        if o.done.isNone then d
        else
          let d1 := deltaDone k (postOp k (dropPins d t op) t op) t op
          let d2 := match th.bsk with | some b => settlePrefix k d1 b | none => d1
          settleAll k d2) s

/-- An operation that has finished drops its read pins; a frame with REFCNT 0 retires with its last pin (R146). -/
def execPinDropRetire (t op : Nat) (s : State) : Host.Outcome State Fault Refusal :=
  onData (fun _ d => if d.live t op then d else dropPins d t op) s

/-! ### Launches -/

/-- RT_SLOTS in force, as a number of reserved slots (R83). -/
def Ctl.rtSlots (k : Ctl) : Nat := Nat.min 2 (k.fld 0x1000040 16 2)
/-- Whether a slot is reserved for the real-time class: 7, then 6 (R69). -/
def Ctl.slotRt (k : Ctl) (sl : Nat) : Bool := decide (8 ≤ sl + k.rtSlots)

/-- The thread in a slot of a tile, or leaving it. -/
def slotOf (d : Data) (tile core sl : Nat) : Option (Nat × Thread) :=
  d.fyl.threads.find? (fun e => tileOf e.1 == tile && (e.2.run == .inSlot core sl || e.2.run == .leaving core sl))

/-- Whether a core of a tile is in service (R40). -/
def Ctl.coreUp (k : Ctl) (tile core : Nat) : Bool :=
  k.up (tile / 4) (tile % 4) && !k.cells.contains (1024 * (64 * (tile / 4) + tile % 4) + core)

/-- A free reserved slot of a tile: slot 7 of each core, then slot 6. -/
def freeRt (k : Ctl) (d : Data) (tile : Nat) : Option (Nat × Nat) :=
  ((List.range 8).map (fun i => (i % 4, 7 - i / 4))).find? (fun y => k.slotRt y.2 && k.coreUp tile y.1 && (slotOf d tile y.1 y.2).isNone)

/-- A thread as a launch makes it (R59, R61, R572). -/
def freshThread (part : Nat) (x : Desc) (rt : Bool) (run : Run) (now : Nat) : Thread :=
  { part := part
    prog := df x 0 0 16
    bsk := if df x 0 36 1 = 1 then none else some (df x 0 16 20)
    cls := df x 0 37 3
    tag := df x 0 40 16
    rt := rt
    pc := 0
    s := (List.range 7).foldl (fun tb i => Tab.put 0#64 tb (i + 1) (BitVec.ofNat 64 (df x (8 + 8 * i) 0 64))) []
    d := []
    p1 := false
    p2 := false
    p3 := false
    dmask := 0xFFFF#16
    smask := 0xFFFFFF#24
    issued := 0
    run := run
    wait := none
    since := now
    ops := []
    held := []
    nextOp := 0
    acc := none
    lost := none
    frac := 0
    ending := none }

/-- Launches a thread of a partition on a tile (R59, R60, R69): the status of a launch that fails, first BAD_DESC, then PERM, then NO_SPACE. -/
def launch (k : Ctl) (d : Data) (rt : Bool) (part tile : Nat) (x : Desc) : Data × Option Status :=
  if df x 0 56 8 ≠ 0 ∨ (rt && df x 0 37 3 != 0) ∨ !Tab.has k.progs (part * 65536 + df x 0 0 16) then (d, some .badDesc)
  else if df x 0 36 1 = 0 ∧ k.bskPart (df x 0 16 20) ≠ some part then (d, some .perm)
  else
    match Tab.freeIn d.fyl.threads (4096 * tile) 4096 with
    | none => (d.setSts 0x1000080 1, some .noSpace)
    | some t =>
      if rt then
        match freeRt k d tile with
        | none => (d.setSts 0x1000080 2, some .noSpace)
        | some (c, sl) => (d.setThr t (freshThread part x true (.inSlot c sl) k.ticks), none)
      else
        let d1 := d.setThr t (freshThread part x false .ready k.ticks)
        ({ d1 with fyl := { d1.fyl with readyQ := d1.fyl.readyQ ++ [t] } }, none)

/-- The end completion of a launch that has failed or been dropped (R60, R79). -/
def launchFailed (k : Ctl) (d : Data) (r part : Nat) (x : Desc) (st : Status) : Data :=
  postEnd k d r part ⟨st, 0, df x 0 40 16, if df x 0 36 1 = 1 then none else some (df x 0 16 20), part, 0, 0⟩

/-- The launch descriptor at the head of a ring, where the ring is not empty, and the ring moved past it (R550, R552). -/
def takeEntry (k : Ctl) (d : Data) (r : Nat) : Option (Desc × Data) :=
  let g := d.ring r
  if !k.ringOn r ∨ g.cons = g.prod then none
  else some (BitVec.ofNat 512 (d.rd (k.ringBase r + 64 * (g.cons % Nat.max 1 (k.ringSize r))) 64),
    d.setRing r { g with cons := (g.cons + 1) % 2 ^ 32 })

/-- A tile takes launch entry CONS and launches it (R552). -/
def execLaunchTake (rt : Bool) (part tile : Nat) (s : State) : Host.Outcome State Fault Refusal :=
  onData (fun k d =>
    let r := ringNo rt part tile
    if k.kDown || !k.up (tile / 4) (tile % 4) || decide (15 < part) || decide (15 < tile) || (rt && part != 0) then d
    else
      match takeEntry k d r with
      | none => d
      | some (x, d1) =>
        let y := launch k d1 rt part tile x
        match y.2 with
        | none => y.1
        | some st => launchFailed k y.1 r part x st) s

/-! ### Slots -/

/-- A thread that leaves its slot is back in its frame: it waits, or is ready behind the others (R65, R68). -/
def leaveSlot (k : Ctl) (d : Data) (t : Nat) (th : Thread) : Data :=
  if th.wait.isSome || th.ending.isSome then d.setThr t { th with run := .waiting, issued := 0 }
  else
    let d1 := d.setThr t { th with run := .ready, issued := 0, since := k.ticks }
    { d1 with fyl := { d1.fyl with readyQ := d1.fyl.readyQ ++ [t] } }

/-- Whether a thread waits in the ready queue of a tile in class `c`, as prompt or generation work (R20, R64). -/
def readyIn (k : Ctl) (d : Data) (tile : Nat) (prompt : Bool) (c t : Nat) : Bool :=
  tileOf t == tile && (match d.thr t with | some th => th.cls == c && promptThread k d th == prompt | none => false)

/-- The class of the thread that a free slot of a tile takes, and whether it is prompt work (R20, R64, R485). -/
def slotPick (k : Ctl) (d : Data) (tile : Nat) : Option (Nat × Bool) :=
  pickRank d.fyl.tags tile (fun c => d.fyl.readyQ.any (readyIn k d tile false c)) (fun c => d.fyl.readyQ.any (readyIn k d tile true c))

/-- A free slot takes the first ready thread of its tile of the highest rank, unless the power cap withholds the pick (R64, R485, R683). The slot runs it under the SLICE
now in force (R83). -/
def fillSlot (k : Ctl) (d : Data) (tile core sl : Nat) : Data :=
  if !k.coreUp tile core || k.slotRt sl || (slotOf d tile core sl).isSome then d
  else
    match slotPick k d tile with
    | none => d
    | some (c, prompt) =>
      match d.fyl.readyQ.find? (readyIn k d tile prompt c) with
      | none => d
      | some t =>
        let g := capGrant k d tile c (match d.thr t with | some th => th.part | none => 0) false
        if !g.2 then g.1
        else
          let d1 := g.1.onThr t (fun th => { th with run := .inSlot core sl, issued := 0, slice := k.fld 0x1000040 0 16 })
          { d1 with fyl := { d1.fyl with
            readyQ := d1.fyl.readyQ.filter (fun y => y != t)
            tags := serveClass k d1.fyl.tags tile c 1 } }

/-- A slot switches (R64 to R66): the thread that is leaving is saved in its frame, and the slot takes the head of the ready queue. A switch is counted where a thread
leaves the slot, and not where a slot whose thread has ended takes the next (R85; DESIGN CHOICE, log entry 184). -/
def execThreadSwitch (tile core slot : Nat) (s : State) : Host.Outcome State Fault Refusal :=
  onData (fun k d =>
    if 16 ≤ tile ∨ 4 ≤ core ∨ 8 ≤ slot ∨ !k.up (tile / 4) (tile % 4) then d
    else
      match slotOf d tile core slot with
      | some (t, th) =>
        if th.run = .leaving core slot then fillSlot k ((leaveSlot k d t th).bump (cntAddr 0x10 tile 0) 1) tile core slot else d
      | none => fillSlot k d tile core slot) s

/-- A thread that has issued for a full slice is forced to switch, with every register live (R68); real-time slots have no slice. The slice is the one that its slot
applied at its last switch (R83). -/
def execSliceExpiry (t : Nat) (s : State) : Host.Outcome State Fault Refusal :=
  onData (fun _ d =>
    match d.thr t with
    | none => d
    | some th =>
      match th.run with
      | .inSlot c sl =>
        if th.running && !th.rt && decide (64 * th.slice ≤ th.issued) then
          (d.setThr t { th with run := .leaving c sl }).bump (cntAddr 0x10 (tileOf t) 1) 1
        else d
      | _ => d) s

/-! ### Regulators -/

/-- Whether a partition has demand for a resource that waits for its bucket: packets to send (1), outputs to write (2), flash operations not started (3). -/
def regDemand (k : Ctl) (d : Data) (p r : Nat) : Bool :=
  match r with
  | 1 => d.ttx.qps.any (fun x => x.2.part == p && x.2.state == .ready && x.2.txq.any (fun o => decide (o.sent < o.len) || o.firstPsn.isNone))
  | 2 => d.bdl.jobs.any (fun j => k.winPart (match j.dests with | x :: _ => x.1 | [] => 0) == p)
  | 3 => d.fyl.threads.any (fun e => e.2.part == p && e.2.ops.any (fun o => o.eng == 8 && !o.started && o.done.isNone))
  | _ => false

/-- Every 1 µs each enabled bucket gains RATE × 64 bytes, up to BURST × 4,096 (R494); a bucket empty with demand is counted in HELD_* (R506),
and what waited for it goes on. -/
def execRegulatorRefill (s : State) : Host.Outcome State Fault Refusal :=
  onData (fun k d =>
    if k.ticks < d.trf.refillAt then d
    else
      let d1 := { d with trf := { d.trf with refillAt := k.ticks + usTicks 1 } }
      let d2 := (List.range 64).foldl (fun e i =>
        let p := i / 4
        let r := i % 4
        if !k.regOn p r then e
        else
          let a := 0x1D400C0 + 0x1000 * p + 8 * r
          let e1 := if e.bucket p r ≤ 0 ∧ regDemand k e p r then e.bump (trfCnt p (4 + r)) 1 else e
          { e1 with trf := { e1.trf with
            buckets := Tab.put 0 e1.trf.buckets i (min ((k.fld a 20 12 * 4096 : Nat) : Int) (e1.bucket p r + (k.fld a 0 20 * 64 : Nat))) } }) d1
      kickAll k (pumpOut k d2 (fun _ => true))) s

end Sys2Proof.Machine
end

