-- ==== Sys2Proof/Machine/Windsock.lean ====
section
/-!
DEFINITION. Windsock (R500, R501, R507 to R509): the depth and delay of each queue, the histograms, and the dump.
-/
namespace Sys2Proof.Machine

/-- WSK_STS (R509). -/
def wskSts : Nat := 0x1E000C0

/-- The frame bytes that an operation of a QP has still to send: its bytes, and the headers and trailers of its packets. -/
def txBytes (x : Qp) (o : TxOp) : Nat :=
  let left := o.len - o.sent
  let n := Nat.max (ceilDiv left x.payBytes) (if o.firstPsn.isNone then 1 else 0)
  left + n * (14 + (if x.v4 then 20 else 40) + 8 + 20 + extBytes (o.ext 0) + (if x.sec then 16 else 0) + 8)

/-- The operations that wait to send on a port in a class. -/
def egressOf (k : Ctl) (d : Data) (p c : Nat) : List (Qp × TxOp) :=
  d.ttx.qps.flatMap (fun e =>
    if e.2.state == .ready && (match Data.pathOf k d e.1 with | some l => l.1 == p | none => false) then
      (e.2.txq.filter (fun o => o.cls == c && (decide (o.sent < o.len) || o.firstPsn.isNone))).map (fun o => (e.2, o))
    else [])

/-- The age in ticks of the oldest of a list of ticks; 0 of none. -/
def oldest (now : Nat) (l : List Nat) : Nat := l.foldl (fun n t => Nat.max n (now - t)) 0

/-- The depth of a queue in its unit, with a part of a unit counted whole, and the age of its head in ticks (R500). -/
def queueOf (k : Ctl) (d : Data) (q : Nat) : Nat × Nat :=
  if q < 128 then
    let l := egressOf k d (q / 8) (q % 8)
    (ceilDiv (l.foldl (fun n x => n + txBytes x.1 x.2) 0) 1024, oldest k.ticks (l.map (fun x => x.2.at_)))
  else if q < 256 then
    let l := d.fyl.readyQ.filterMap (fun t =>
      if tileOf t = (q - 128) / 8 then (match d.thr t with | some th => if th.cls = q % 8 then some th.since else none | none => none) else none)
    (l.length, oldest k.ticks l)
  else if q < 264 then
    let r := (q - 256) / 2
    if q % 2 = 0 then
      let l := d.bdl.jobs.filter (fun j => (match j.dests with | x :: _ => k.winHalf x.1 / 2 == r | [] => false))
      (ceilDiv (l.foldl (fun n j => n + j.dests.foldl (fun m x => m + x.2.1.foldl (fun i y => i + y.2.length) 0) 0) 0) 1024,
       l.foldl (fun n j => Nat.max n (j.waited + (match j.since with | some b => k.ticks - b | none => 0))) 0)
    else
      let l := d.bdl.wins.filter (fun e => k.winOn e.1 && !k.winOut e.1 && k.winHalf e.1 / 2 == r)
      (l.foldl (fun n e => n + (e.2.prod - e.2.rel)) 0, oldest k.ticks (l.flatMap (fun e => e.2.times)))
  else
    let c := q - 264
    let l := d.fyl.threads.flatMap (fun e => (e.2.ops.filter (fun o => o.eng == 8 && decide (o.op < 3) && !o.started && o.done.isNone)).map (fun o =>
      (((List.range (df o.desc 16 0 17)).filter (fun i => ((k.blsRange e.2.part).1 + df o.desc 8 0 36 + i) % 8 == c)).length, o.since)))
    (l.foldl (fun n x => n + x.1) 0, oldest k.ticks ((l.filter (fun x => x.1 != 0)).map (fun x => x.2)))

/-- The bin of a value (R501). -/
def binOf (v : Nat) : Nat := if v = 0 then 0 else ((List.range 14).find? (fun i => decide (v < 2 ^ (i + 1)))).elim 15 (fun i => i + 1)

/-- Adds one to a bin, which stays at its maximum with SAT set (R501). -/
def wskAdd (d : Data) (i : Nat) : Data :=
  let n := Tab.getD d.trf.hist i 0
  let d1 := if n + 1 < 2 ^ 32 then { d with trf := { d.trf with hist := Tab.set d.trf.hist i (n + 1) } } else d
  if 2 ^ 32 - 1 ≤ n + 1 then d1.setSts wskSts 1 else d1

/-- Nanoseconds of a delay unit (R507). -/
def Ctl.dunit (k : Ctl) : Nat := match k.fld 0x1E00040 10 2 with | 0 => 10 | 1 => 100 | _ => 1000

/-- Once per PERIOD of KTIME, each queue's depth and delay are sampled (R500, R501). -/
def execWindsockSample (s : State) : Host.Outcome State Fault Refusal :=
  onData (fun k d =>
    let period := 1000 * Nat.max 1 (k.fld 0x1E00040 0 10)
    if k.fld 0x1E00040 12 1 = 0 ∨ k.ns < d.trf.sampleAt then d
    else
      let d1 := (List.range 272).foldl (fun e q =>
        let v := queueOf k d q
        wskAdd (wskAdd e (32 * q + binOf v.1)) (32 * q + 16 + binOf (2 * v.2 / k.dunit))) d
      { d1 with trf := { d1.trf with sampleAt := (k.ns / period + 1) * period, periods := Nat.min 65535 (d1.trf.periods + 1) } }) s

/-- A dump (R501, R508): each queue's record is written at DST and every histogram is cleared. -/
def wskDump (k : Ctl) (d : Data) (dst : Nat) : Data :=
  if k.dpaCheck 0 dst 34816 false != none then d.setSts wskSts 0
  else
    let bytes := (List.range (272 * 32)).flatMap (fun i => bytesLE 4 (Tab.getD d.trf.hist i 0))
    let d1 := d.wrBytes dst bytes
    { d1 with trf := { d1.trf with hist := [], periods := 0 } }

end Sys2Proof.Machine
end

