-- ==== Sys2Proof/Machine/RegView.lean ====
section
/-!
DEFINITION. What the read-only fields and read-only counters of the engines' registers show (windows 0x10 to 0x1F), and the mirror that a shell keeps of them while
its block's domain is down (R50).
-/
namespace Sys2Proof.Machine

/-- A word made of fields: lowest bit, width and value, each saturating at its width. -/
def packWord (l : List (Nat × Nat × Nat)) : Word :=
  BitVec.ofNat 64 (l.foldl (fun n x => n + Nat.min x.2.2 (2 ^ x.2.1 - 1) * 2 ^ x.1) 0)

/-- The most entries that any number in a range has in a list. -/
def mostOf (n : Nat) (l : List Nat) : Nat := (List.range n).foldl (fun m i => Nat.max m (l.filter (fun x => x == i)).length) 0

/-- S1_HOLD (R118): a Basket is PUSHING or HANDING. -/
def s1Hold (d : Data) : Bool := d.bsk.tab.any (fun e => e.2.state == .pushing || e.2.state == .handing)

/-- The codes of the link states (R404). -/
def LState.code : LState → Nat
  | .off => 0 | .laserWait => 1 | .calibrate => 2 | .acquire => 3 | .up => 4 | .hold => 5 | .test => 6 | .hot => 7

/-- The codes of the QP states (R417). -/
def QState.code : QState → Nat
  | .free => 0 | .init => 1 | .connecting => 2 | .ready => 3 | .error => 4

/-! ### Adapter versions and tier charges -/

/-- The records of a partition's adapter pool in a state that a test holds of (R322). -/
def adpRecords (k : Ctl) (d : Data) (p : Nat) (f : Nat → Bool) : List Nat :=
  ((List.range (k.adpCount p)).map (fun i => k.adpRecs p + 64 * i)).filter (fun a => f (avState d a))

/-- Whether a tier index (0 Sail, 1 plain) is that of a DPA. -/
def Ctl.tierIs (k : Ctl) (tier a : Nat) : Bool :=
  match k.tierOf a 1 with
  | .sail => tier == 0
  | .plain => tier == 1
  | _ => false

/-- The raw size of the object of a version record, in whole segments (R180). -/
def adpRaw (d : Data) (a : Nat) : Nat :=
  match objHeader (d.rd (avObj d a) 8) with
  | some (n, _, _) => 4096 * n
  | none => 0

/-- LENT of a partition: the bytes of its valid lend ranges, in the tiers that a test holds of (R369). -/
def lentBytes (k : Ctl) (p : Nat) (f : Nat → Bool) : Nat :=
  (List.range 64).foldl (fun n i => let x := k.lend i; if x.1 && x.2.2.1 == p && f x.2.2.2.1 then n + x.2.2.2.2 else n) 0

/-- CHARGED of a partition and tier (R353). -/
def tierCharged (k : Ctl) (d : Data) (p tier : Nat) : Nat :=
  let mine := (List.range 4096).filter (fun m => k.mdlOn m && k.mdlPart m == p)
  let pools := (mine.filter (fun m => k.mdlTier m == tier)).foldl (fun n m =>
    n + k.mdlFrames m * k.frameBytes m * (if tier = 0 then 2048 else 1)) 0
  let recs := mine.foldl (fun n m => n + 8 * k.mdlFrames m * (if k.mdlTier m = 0 then 2048 else 1)) 0
  let areas := recs + (k.ptPool p).2 * 4096 + k.fld (0x1340048 + 0x1000 * p) 0 6 * 64 * k.fld (0x1340048 + 0x1000 * p) 32 32 +
    (if k.adpCount p = 0 then 0 else 1048576 + 64 * k.adpCount p)
  let objs := (adpRecords k d p (fun s => s != 0)).foldl (fun n a => n + adpRaw d a) 0
  let reserve := roundUp (ceilDiv (k.plainSize p) 256) 1048576
  pools + (if tier = 1 then areas + objs + reserve else 0) + lentBytes k p (k.tierIs tier)

/-! ### Read-only status fields -/

/-- BLS_STS (R394): its read-only fields. -/
def blsView (k : Ctl) (d : Data) : Word :=
  let here := (List.range 8).filter (fun c => (d.chan8 c).present)
  let lost := (List.range 8).foldl (fun n c => if (d.chan8 c).present && !chanOk k d c then n + 2 ^ c else n) 0
  let noBuf := match d.header with | some h => here.any (fun c => sMax k (d.chan8 c) h == 0) | none => false
  let spare := match d.header with
    | some h => here.foldl (fun n c => Nat.min n ((d.chan8 c).spare h)) (if here.isEmpty then 0 else 65535)
    | none => 0
  packWord [(0, 3, tierState k d), (6, 8, lost), (14, 1, b2n noBuf), (16, 16, spare)]

/-- The channel whose geometry BLS_GEOM and BLS_TIME show: the lowest that has dies. -/
def geomChan (d : Data) : FChan := d.chan8 (((List.range 8).find? (fun c => (d.chan8 c).present)).getD 0)

/-- FREE of a partition and tier is below the tier's LOW (R368). -/
def isLow (k : Ctl) (d : Data) (p tier : Nat) : Bool := decide (tierFree k d p tier < (k.wm p tier).1 * 2 ^ 20)

/-- The read-only fields of the word at `a` of windows 0x10 to 0x19; `sel` is the object that its select register names. -/
def engViewA (k : Ctl) (d : Data) (a : Nat) : Word :=
  let p := offOf a % 0x40000 / 0x1000
  match winOf a with
  | 0x10 => if a ≠ 0x1000080 then 0#64 else
      packWord [(3, 1, b2n (k.progs.any (fun e => decide (e.1 < 65536) && e.2.unbounded))), (16, 16, mostOf 16 (d.fyl.threads.map (fun e => tileOf e.1)))]
  | 0x11 =>
    if a = 0x1100080 then packWord [(3, 1, b2n (s1Hold d)), (16, 16, (d.bsk.tab.filter (fun e => e.2.state == .handing)).length)]
    else if a = 0x1100100 then packWord [(16, 16, (List.range 16).foldl (fun n q => n + (adpRecords k d q (fun s => s == 2)).length) 0)]
    else if a = 0x1140048 + 0x1000 * p then packWord [(0, 32, (d.evt p).1), (32, 32, (d.evt p).2)]
    else if a = 0x1140090 + 0x1000 * p then packWord [(32, 17, (adpRecords k d p (fun s => s != 0)).length)]
    else 0#64
  | 0x12 => if a = 0x1240048 + 0x1000 * p then packWord [(32, 32, (d.kvw.units.filter (fun e => e.1 / 2 ^ 32 == p)).length)] else 0#64
  | 0x15 => if a = 0x1500080 then packWord [(16, 16, mostOf 16 ((d.mrg.streams.filter (fun e => (d.mstream e.1).isSome)).map (fun e => e.1 / 64)))] else 0#64
  | 0x17 =>
    if a = 0x1700080 then packWord [(1, 1, b2n ((List.range 32).any (fun b => k.bank b 0 2 == 2 && !spreadOk k d b)))]
    else if a = 0x1740040 + 0x1000 * p then packWord [(32, 19, (prefixEntries k d p).length)] else 0#64
  | 0x18 =>
    if a = 0x1800040 then k.word a
    else if a = 0x1800080 then
      packWord [(0, 1, b2n ((List.range 16).any (fun q => isLow k d q 0))), (1, 1, b2n ((List.range 16).any (fun q => isLow k d q 1))),
        (16, 16, (List.range 16).foldl (fun n q => if d.low.any (fun x => x / 2 == q) then n + 2 ^ q else n) 0)]
    else 0#64
  | 0x19 =>
    let x := geomChan d
    if a = 0x1900080 then blsView k d
    else if a = 0x19000C0 then
      packWord [(0, 3, x.found.bpc), (3, 3, x.found.q), (6, 12, x.found.p), (18, 14, x.found.e),
        (32, 16, match d.header with | some h => x.mapEu h.logical | none => 0)]
    else if a = 0x1900100 then packWord [(0, 16, x.found.tr), (16, 16, x.found.tprog), (32, 16, x.found.ters)]
    else if 0x1900140 ≤ a ∧ a < 0x1900180 then
      let c := (a - 0x1900140) / 8
      let y := d.chan8 c
      packWord [(0, 2, y.found.mode), (2, 12, y.found.rate), (14, 6, y.found.dies), (20, 1, b2n (y.present && !chanOk k d c))]
    else 0#64
  | _ => 0#64

/-- TTP_STS and TTP_LSTS of port `p`, at an offset of its instance region (R412, R413). -/
def ttpView (k : Ctl) (d : Data) (p o : Nat) : Word :=
  let e := d.eng p
  if o = 0xC0 then
    packWord [(0, 2, e.ok), (3, 1, b2n e.hot), (8, 8, Config.light p k.ticks % 256), (16, 8, e.power0), (24, 8, e.power1)]
  else if 0x100 ≤ o ∧ o < 0x120 then
    let x := d.link p ((o - 0x100) / 8)
    packWord [(0, 3, x.state.code), (5, 1, b2n x.remote), (16, 16, x.bringMs)]
  else 0#64

/-- The read-only fields of a port's Bridle registers, at an offset of its instance region (R527, R532, R533), with the data of BDL_CFGD. -/
def bdlView (k : Ctl) (d : Data) (r o : Nat) : Word :=
  let h0 := d.half (2 * r)
  let h1 := d.half (2 * r + 1)
  if o = 0x40 then k.word (0x1F10040 + 0x1000 * r)
  else if o = 0x140 then packWord [(31, 1, b2n (Tab.has d.bdl.cfgReq r)), (32, 3, Tab.getD d.bdl.cfgCpl r 0)]
  else if o = 0x180 then
    packWord [(0, 1, b2n h0.up), (1, 1, b2n h1.up), (8, 3, h0.gen), (11, 5, h0.width), (16, 3, h1.gen), (19, 5, h1.width)]
  else 0#64

/-- SAL_STS and SAL_LOST of Sail stack 3i + 2, at an offset of its instance region (R290, R291). -/
def salView (d : Data) (i o : Nat) : Word :=
  let lost := fun (u : Nat) => (d.sunit (4 * u + i)).lost
  if o = 0x80 then packWord [(3, 1, b2n (d.sal.hot.contains i)), (16, 16, ((List.range 512).filter lost).length)]
  else if 0x100 ≤ o ∧ o < 0x180 then
    packWord [(0, 32, (List.range 32).foldl (fun n j => if lost (32 * ((o - 0x100) / 8) + j) then n + 2 ^ j else n) 0)]
  else 0#64

/-- The read-only fields of the word at `a` of windows 0x10 to 0x1F; `sel` is the object that its select register names. -/
def engView (k : Ctl) (d : Data) (sel a : Nat) : Word :=
  let i := (offOf a - 0x10000) / 0x1000
  let o := offOf a % 0x1000
  match winOf a with
  | 0x14 => if 0x10000 ≤ offOf a ∧ i < 4 then salView d i o else 0#64
  | 0x1A => if 0x10000 ≤ offOf a ∧ i < 16 then ttpView k d i o else 0#64
  | 0x1B =>
    if a = 0x1B00100 then
      let x := d.qp sel
      packWord [(0, 3, x.state.code), (3, 8, x.status), (11, 8, x.incarn), (19, 4, x.part), (32, 16, x.peerNode), (48, 16, x.rate)]
    else if a = 0x1B00140 then packWord [(16, 16, (d.ttx.qps.filter (fun e => e.2.state == .error)).length)] else 0#64
  | 0x1C =>
    if a = 0x1C00100 then
      let g := d.grp sel
      packWord [(32, 2, if g.broken then 2 else if g.op.isSome then 1 else 0)]
    else if a = 0x1C001C0 then
      packWord [(0, 1, b2n (d.fab.mgmtA != d.fab.mgmtB)), (1, 1, b2n d.fab.mgmtA), (2, 1, b2n d.fab.mgmtB), (4, 1, b2n (!d.fab.holds.isEmpty)),
        (16, 16, d.fab.teardown.foldl (fun n p => n + 2 ^ p) 0)]
    else if a = 0x1C40088 then packWord [(0, 32, (d.evt 16).1), (32, 32, (d.evt 16).2)] else 0#64
  | 0x1D =>
    if a = 0x1D00080 then
      packWord [(0, 1, b2n (!d.trf.meterHeld.isEmpty)), (16, 16, (List.range 16).foldl (fun n p =>
        if (List.range 4).any (fun r => k.regOn p r && decide (d.bucket p r ≤ 0) && regDemand k d p r) then n + 2 ^ p else n) 0)]
    else 0#64
  | 0x1E => if a = 0x1E000C0 then packWord [(16, 16, d.trf.periods)] else 0#64
  | 0x1F => if 0x10000 ≤ offOf a ∧ i < 4 then bdlView k d i o else 0#64
  | _ => engViewA k d a

/-- The read-only counters (R119, R151, R255, R369, R397): counter `i` of instance `j` of a window. -/
def engCounter (k : Ctl) (d : Data) (win j i : Nat) : Nat :=
  match win with
  | 0x11 => inUse d j
  | 0x12 => d.kvw.epoch
  | 0x13 => (d.spl.ctxs.filter (fun c => c.1 % 4 == j)).length
  | 0x18 =>
    match i with
    | 0 => tierCharged k d j 0
    | 1 => tierFree k d j 0
    | 2 => tierCharged k d j 1
    | 3 => tierFree k d j 1
    | _ => lentBytes k j (fun _ => true)
  | 0x19 =>
    let x := d.chan8 j
    if i = 6 then x.dead.length * x.found.e + x.retired else x.eraseBase + x.units.foldl (fun n u => Nat.max n u.2.erases) 0
  | _ => 0

/-! ### The mirror of a domain that is down (R50) -/

/-- The words with read-only status that the shell of block `b` of region `r` mirrors. -/
def mirrorWords (r b : Nat) : List Nat :=
  match b with
  | 10 => (0x1410080 + 0x1000 * r) :: (List.range 16).map (fun i => 0x1410100 + 0x1000 * r + 8 * i)
  | 16 => [0x1F10140 + 0x1000 * r, 0x1F10180 + 0x1000 * r]
  | _ => if 12 ≤ b ∧ b ≤ 15 then
      let a := 0x1A10000 + 0x1000 * (4 * r + b - 12)
      (a + 0xC0) :: (List.range 4).map (fun l => a + 0x100 + 8 * l)
    else []

/-- The words with read-only status of the engines that stand in every region, each with the object that it belongs to: those of the chip, of the partitions, of the groups and
of the QPs that are not FREE. -/
def mirrorChip (d : Data) : List (Nat × Nat) :=
  ([0x1000080, 0x1100080, 0x1100100, 0x1500080, 0x1700080, 0x1800080, 0x1900080, 0x19000C0, 0x1900100, 0x1B00140, 0x1C001C0, 0x1C40088, 0x1D00080, 0x1E000C0] ++
    (List.range 8).map (fun c => 0x1900140 + 8 * c) ++
    (List.range 16).flatMap (fun p => [0x1140048, 0x1140090, 0x1240048, 0x1740040].map (fun a => a + 0x1000 * p))).map (fun a => (0, a)) ++
  (List.range 16).map (fun g => (g, 0x1C00100)) ++ (d.ttx.qps.filter (fun e => e.2.state != .free)).map (fun e => (e.1, 0x1B00100))

/-- The read-only counters of those engines. -/
def mirrorCounters : List Nat :=
  [0x11, 0x12, 0x13, 0x18, 0x19].flatMap (fun w => (List.range (cntInstances w)).flatMap (fun j =>
    ((List.range 8).map (fun i => cntAddr w j i)).filter (fun a => counterAt a == some false)))

/-- What a read-only counter of an engine shows. -/
def engCount (k : Ctl) (d : Data) (a : Nat) : Word :=
  let o := offOf a - 0x80000
  BitVec.ofNat 64 (Nat.min (2 ^ 64 - 1) (engCounter k d (winOf a) (o / 0x400) (o % 0x400 / 8)))

/-- Mirrors words, each by its object and address. -/
def mirror (k : Ctl) (d : Data) (l : List (Nat × Nat)) : Ctl :=
  { k with shell := { k.shell with mirror := l.foldl (fun t y => Tab.set t (objKey y.2 y.1) (engView k d y.1 y.2)) k.shell.mirror } }

/-- Mirrors the status of the engines that stand in every region. -/
def mirrorEngines (k : Ctl) (d : Data) : Ctl :=
  let k0 := { k with shell := { k.shell with mirror := Tab.keep k.shell.mirror (fun key _ => key % 2 ^ 26 != 0x1B00100) } }
  let k1 := mirror k0 d (mirrorChip d)
  { k1 with shell := { k1.shell with mirror := mirrorCounters.foldl (fun t a => Tab.set t a (engCount k d a)) k1.shell.mirror } }

/-- A block that is in service mirrors its status, before its domain goes down. -/
def mirrorBlock (k : Ctl) (d : Data) (r b : Nat) : Ctl := if k.up r b then mirror k d ((mirrorWords r b).map (fun a => (0, a))) else k

/-- Whether a region is fenced, in reset or without power. -/
def Ctl.regionDown (k : Ctl) (r : Nat) : Bool := !k.powered 0 || k.down.contains (64 * r + 63)

/-- A region goes down: its blocks mirror their status, and with the last of the four so do the engines that stand in every region. -/
def mirrorRegion (k : Ctl) (d : Data) (r : Nat) : Ctl :=
  let k1 := [10, 12, 13, 14, 15, 16].foldl (fun c b => mirrorBlock c d r b) k
  if (List.range 4).all (fun i => i == r || k.regionDown i) && !k.regionDown r then mirrorEngines k1 d else k1

/-- The regions go down together (R675): every block but the Bridle ports, which stay, mirrors its status. -/
def mirrorAll (k : Ctl) (d : Data) : Ctl :=
  mirrorEngines ((List.range 4).foldl (fun c r => [10, 12, 13, 14, 15].foldl (fun e b => mirrorBlock e d r b) c) k) d

/-- Whether the domain that serves an address of windows 0x10 to 0x1F is down (R50): its block's for an instance region, else all four regions. -/
def Ctl.domainDown (k : Ctl) (a : Nat) : Bool :=
  let i := (offOf a - 0x10000) / 0x1000
  let inst := decide (0x10000 ≤ offOf a) && decide (offOf a < 0x40000)
  let cnt := decide (0x80000 ≤ offOf a)
  let j := (offOf a - 0x80000) / 0x400
  match winOf a with
  | 0x14 => if inst then !k.up i 10 else cnt && !k.up j 10
  | 0x1A => if inst then !k.up (i / 4) (12 + i % 4) else cnt && decide (j < 64) && !k.up (j / 16) (12 + j / 4 % 4)
  | 0x1F => if inst then !k.up i 16 else cnt && !k.up (j / 2) 16
  | w => decide (0x10 ≤ w) && decide (w < 0x20) && (List.range 4).all k.regionDown

/-- What the read-only fields of a word of windows 0x10 to 0x1F show to a read: while its domain is down, the status last mirrored, which before the domain has ever been up
is that of reset (R50). -/
def engRead (k : Ctl) (d : Data) (sel a : Nat) : Word :=
  if k.domainDown a then (match Tab.get? k.shell.mirror (objKey a sel) with | some v => v | none => engView k Data.reset sel a) else engView k d sel a

/-- What a read of a read-only counter of an engine shows. -/
def engCountRead (k : Ctl) (d : Data) (a : Nat) : Word :=
  if k.domainDown a then (match Tab.get? k.shell.mirror a with | some v => v | none => engCount k Data.reset a) else engCount k d a

end Sys2Proof.Machine
end

