-- ==== Sys2Proof/Machine/Reset.lean ====
section
/-!
DEFINITION. Resets and containment (R39, R40, R79, R619 to R622, R653 to R655): what a block, a region or the chip loses when it is fenced or reset, the
fabric reset, the teardown of a partition (R605, R606), and the warm, cold and power-on resets.
-/
namespace Sys2Proof.Machine

/-! ### Blocks -/

/-- The blocks that a region fence stops (R40): every block of R37 but the plain stack controllers and the region control. -/
def fencedBlocks : List Nat := [0, 1, 2, 3, 4, 5, 6, 7, 10, 11, 12, 13, 14, 15, 16, 17, 18, 19, 20, 21]

/-- Whether R37 lists a block index of a region. -/
def blockListed (b : Nat) : Bool := decide (b ≤ 21) || b == 63

/-- Whether an operation has output still to write into plain HBM of stack `i` (R347). -/
def plainJob (k : Ctl) (d : Data) (i t : Nat) (o : Op) : Bool :=
  d.bdl.jobs.any (fun j => j.thread == t && j.opId == o.id &&
    j.dests.any (fun x => !k.winRemote x.1 && x.2.1.any (fun y => plainTouch (k.winAddr x.1 + y.1) y.2.length i)))

/-- Whether an operation is queued to, or running in, block `b` of region `r` (R40). -/
def opInBlock (k : Ctl) (d : Data) (r b t : Nat) (th : Thread) (o : Op) : Bool :=
  let mine := (o.bsk.getD (th.bsk.getD 0)) % 4 == r
  match b with
  | 11 => o.eng == 4 && regionOf t == r
  | 17 => o.eng == 5 && regionOf t == r
  | 18 => o.eng == 9 && mine
  | 19 => o.eng == 1 && o.op != 5 && mine
  | 8 => plainJob k d (2 * r) t o
  | 9 => plainJob k d (2 * r + 1) t o
  | 20 => o.eng == 8 && (decide (3 ≤ o.op) || d.bls.waits.any (fun w => w.thread == t && w.opId == o.id && w.chans.any (fun c => c / 2 == r)) ||
      (List.range (Nat.min 8 (df o.desc 16 0 17))).any (fun i => ((k.blsRange th.part).1 + df o.desc 8 0 36 + i) % 8 / 2 == r))
  | 21 => o.eng == 10 && mine
  | _ => decide (4 ≤ b) && decide (b ≤ 7) && o.eng == 3 && df o.desc 0 0 4 == 4 * r + b - 4

/-- The operations without a posted completion that a test holds of. -/
def opsWhere (d : Data) (f : Nat → Thread → Op → Bool) : List (Nat × Nat) :=
  d.fyl.threads.flatMap (fun e => (e.2.ops.filter (fun o => f e.1 e.2 o)).map (fun o => (e.1, o.id)))

/-- The threads of a tile are lost with it (R79): each will end with ABORTED; its operations complete and are discarded, and its end completion is owed
until the tile rejoins. -/
def tileLost (k : Ctl) (d : Data) (tile : Nat) : Data :=
  let mine := d.fyl.threads.filter (fun e => tileOf e.1 == tile && !Tab.has d.fyl.owed e.1)
  mine.foldl (fun e x =>
    let e1 := { e with fyl := { e.fyl with
      owed := Tab.set e.fyl.owed x.1 x.2
      readyQ := e.fyl.readyQ.filter (fun y => y != x.1)
      mbxWait := e.fyl.mbxWait.filter (fun y => y != x.1) } }
    let th := { x.2 with held := [], wait := none, ending := some (.aborted, 0), run := .waiting }
    if th.ops.isEmpty then finishThread k e1 x.1 th .aborted 0 else e1.setThr x.1 th) d

/-- The tile rejoins (R79): what is left of its lost threads' operations is discarded, and one end completion with ABORTED is posted for each. -/
def tileBack (k : Ctl) (d : Data) (tile : Nat) : Data :=
  let mine := d.fyl.owed.filter (fun e => tileOf e.1 == tile)
  let left := opsWhere d (fun t _ _ => tileOf t == tile)
  let d1 := mine.foldl (fun e x => match e.thr x.1 with | some th => finishThread k e x.1 th .aborted 0 | none => e) (abortList k d left .aborted)
  mine.foldl (fun e x =>
    postEnd k { e with fyl := { e.fyl with owed := Tab.erase e.fyl.owed x.1 } } (ringNo x.2.rt x.2.part tile) x.2.part (x.2.endCpl .aborted 0)) d1

/-- The links of a port restart (R654): those of its MODE wait for their lasers. -/
def portRestart (k : Ctl) (d : Data) (p : Nat) : Data :=
  eachLink d (fun e l => if l < modeLinks (k.portMode p) then linkWait k e p l true else e)

/-- A page walker and a Basket cache slice lose what they hold: the look-aside buffer is empty, and the slice is written back, then emptied (R135, R654). -/
def cachesStop (d : Data) (r b : Nat) : Data :=
  if b = 18 then { d with kvw := { d.kvw with lab := Tab.erase d.kvw.lab r } }
  else if b = 21 then { d with slices := Tab.keep d.slices (fun i _ => i / 256 != r) }
  else d

/-- Block `b` of region `r` is fenced and its work ends (R40, R79, R241, R286, R526): its operations complete with a status. -/
def blockStop (x : Ctl × Data) (r b : Nat) (st : Status) : Ctl × Data :=
  let k := x.1
  let d := x.2
  if b < 4 then (k, tileLost k d (4 * r + b))
  else if b = 10 then (k, stackReset k d r st true)
  else if 12 ≤ b ∧ b ≤ 15 then (k, eachLink d (fun e l => linkGo k e (4 * r + b - 12) l .off true))
  else if b = 16 then halfDown (halfDown x (2 * r)) (2 * r + 1)
  else
    let d1 := if b = 19 then
        (d.spl.ctxs.filter (fun c => c.1 % 4 == r && !(c.2.ops.isEmpty && c.2.endOp.isNone))).foldl (fun e c => cutAndEnd k e c.1 st) d
      else d
    let d2 := abortList k d1 (opsWhere d1 (fun t th o => opInBlock k d1 r b t th o)) st
    let d3 := cachesStop d2 r b
    (k, if b = 20 ∧ d3.header.isSome then { d3 with bls := { d3.bls with rebuilding := true } } else d3)

/-- The threads on a tile, and the Baskets they name. -/
def tileWork (d : Data) (tile : Nat) : Nat × List Nat :=
  let mine := d.fyl.threads.filter (fun e => tileOf e.1 == tile && !Tab.has d.fyl.owed e.1)
  (mine.length, mine.filterMap (fun e => e.2.bsk))

/-- LAST_SOURCE after a reset (R653, R666). -/
def Ctl.resetBy (k : Ctl) (source : Nat) : Ctl := { k with rst := { k.rst with source := source } }

/-- A block is fenced and given a block reset (R40): its work ends with ABORTED, and its RESET record is written, with the Baskets a tile's threads named
(R79, R653). One whose containment is under way is left to it (R621). -/
def blockReset (x : Ctl × Data) (r b : Nat) (asked : Bool) : Ctl × Data :=
  let n := 64 * r + b
  if x.2.ras.steps.any (fun s => s.blk == n) || x.1.down.contains (64 * r + 63) then x
  else
    let w := if b < 4 then tileWork x.2 (4 * r + b) else (0, [])
    let y := blockStop (mirrorBlock x.1 x.2 r b, x.2) r b .aborted
    let source := if asked then 0x09 else 0x08
    let d1 := resetRec y.1 y.2 (locBlock r b) source w.1
    let d2 := (if w.2.isEmpty then d1 else basketsRec y.1 d1 (locBlock r b) w.2).bump (cntAddr 0x09 0 7) 1
    ({ y.1.resetBy source with down := if y.1.down.contains n then y.1.down else y.1.down ++ [n] },
     { d2 with ras := { d2.ras with steps := d2.ras.steps ++ [⟨n, y.1.ticks, asked⟩] } })

/-! ### Regions and the chip -/

/-- Whether a partition has something in a region, so that the fence of the region tears it down (R40). -/
def partIn (k : Ctl) (d : Data) (p r : Nat) : Bool :=
  k.sailSize p != 0 ||
  d.bsk.tab.any (fun e => e.1 % 4 == r && e.2.state != .free && e.2.part == p) ||
  d.ttx.qps.any (fun e => e.2.part == p && e.2.state != .free && e.2.links.any (fun l => l.1 / 4 == r)) ||
  (List.range 1024).any (fun w => k.winOn w && k.winPart w == p && k.winHalf w / 2 == r) ||
  (k.blsRange p).2 != 0 ||
  (List.range 8).any (fun i => k.bankRule (8 * r + i) p) ||
  (List.range 4).any (fun i => decide (i < (k.frange p).2) && ((k.frange p).1 + i) % 4 == r) ||
  d.fyl.threads.any (fun e => e.2.part == p && tileOf e.1 / 4 == r)

/-- The partition teardown event (R40, R460): the partition's bit in TEARDOWN_MAP and a TEARDOWN event, whose node is this one and whose detail is
ABORTED. -/
def raiseTeardown (k : Ctl) (d : Data) (p : Nat) : Data :=
  fabEvent k { d with fab := { d.fab with teardown := if d.fab.teardown.contains p then d.fab.teardown else d.fab.teardown ++ [p] } } 1 p k.node
    Status.aborted.code

/-- A region is fenced (R40): its blocks' work ends with ABORTED, containment below it stops (R621), and each partition with something in the region gets the
teardown event. A region already fenced stays so. -/
def fenceRegion (x : Ctl × Data) (r : Nat) : Ctl × Data :=
  if x.1.down.contains (64 * r + 63) then x
  else
    let hit := (List.range 16).filter (fun p => x.1.prtEnabled p && partIn x.1 x.2 p r)
    let y := fencedBlocks.foldl (fun e b => blockStop e r b .aborted) (mirrorRegion x.1 x.2 r, x.2)
    let asked := match y.1.rst.blk with | some n => decide (n / 64 = r) | none => false
    let k := { y.1 with
      down := y.1.down ++ [64 * r + 63]
      rst := if asked then { y.1.rst with blk := none, result := Status.aborted.code } else y.1.rst }
    let d1 := { y.2 with ras := { y.2.ras with steps := y.2.ras.steps.filter (fun s => s.blk / 64 != r) ++ [⟨64 * r + 63, k.ticks, false⟩] } }
    (k, hit.foldl (fun e p => raiseTeardown k e p) d1)

/-- The chip-level action of R40: every region is fenced, and every partition gets the teardown event. -/
def fenceChip (x : Ctl × Data) : Ctl × Data :=
  let y := (List.range 4).foldl fenceRegion x
  let left := (List.range 16).filter (fun p => y.1.prtEnabled p && !y.2.fab.teardown.contains p)
  (y.1, left.foldl (fun e p => raiseTeardown y.1 e p) { y.2 with ras := { y.2.ras with steps := [] } })

/-- Whether region `r` is fenced, as RAS_STS reports it (R634). -/
def Ctl.fenced (k : Ctl) (r : Nat) : Bool := k.rst.stage == 15 && k.down.contains (64 * r + 63)
/-- Whether the chip-level action is in force. -/
def Ctl.chipFenced (k : Ctl) : Bool := (List.range 4).all k.fenced

/-- The locator of the unit that contains an error of sequencer or arbiter state at a locator (R39, R620): the region for its control, the chip for the Gondola control
fabric and the inter-region network, else the unit itself. -/
def containLoc (loc : Nat) : Nat :=
  if bitsOf loc 20 1 = 1 then (if bitsOf loc 4 6 = 1 ∨ bitsOf loc 4 6 = 6 then locAll else loc)
  else if loc % 4 = 1 ∧ bitsOf loc 4 6 = 63 then locRegion (bitsOf loc 2 2) else loc

/-- Containment at the level of a locator above a cell (R39, R40, R620): the Gondola control fabric and the inter-region network take the chip-level action, the always-on
island contains its own errors, and another chip-level block gets a block reset, which the spec gives no effect on its state (DESIGN CHOICE, log entry 186). -/
def containAt (x : Ctl × Data) (loc : Nat) : Ctl × Data :=
  let r := bitsOf loc 2 2
  let b := bitsOf loc 4 6
  if bitsOf loc 20 1 = 1 then
    (if b = 1 ∨ b = 6 then fenceChip x
     else if b = 0 then x
     else (x.1.resetBy 0x08, (resetRec x.1 x.2 loc 0x08 0).bump (cntAddr 0x09 0 7) 1))
  else
    match loc % 4 with
    | 1 => if b = 63 then fenceRegion x r else if blockListed b then blockReset x r b false else x
    | 2 => fenceRegion x r
    | 3 => fenceChip x
    | _ => x

/-! ### Teardown of a partition (R605, R606) -/

/-- Threads of a partition end with ABORTED, and launches not yet taken are dropped, each with an end completion of ABORTED (R79). -/
def endPart (k : Ctl) (d : Data) (p : Nat) : Data :=
  let d1 := abortList k d (opsWhere d (fun _ th _ => th.part == p)) .aborted
  let d2 := (d1.fyl.threads.filter (fun e => e.2.part == p)).foldl (fun e x => finishThread k e x.1 x.2 .aborted 0) d1
  let rings := (List.range 16).map (fun i => ringNo false p i) ++ (if p = 0 then (List.range 16).map (fun i => ringNo true 0 i) else [])
  rings.foldl (fun e r =>
    let g := e.ring r
    (List.range ((g.prod + 2 ^ 32 - g.cons) % 2 ^ 32)).foldl (fun f _ =>
      match takeEntry k f r with
      | some (x, f1) => launchFailed k f1 r p x .aborted
      | none => f) e) d2

/-- QPs and regions become FREE, and every IN window returns each slot it holds, the credit word written whatever the regulator holds (R605). -/
def freePart (k : Ctl) (d : Data) (p : Nat) : Data :=
  let d1 := (d.ttx.qps.filter (fun e => e.2.part == p && e.2.state != .free)).foldl (fun e x => qpDrop k e x.1) d
  let d2 := { d1 with ttx := { d1.ttx with regions := Tab.keep d1.ttx.regions (fun _ y => y.part != p) } }
  (List.range 1024).foldl (fun e w =>
    if !k.winOn w || k.winOut w || k.winPart w != p then e
    else
      let y := e.win w
      let e1 := e.setWin w { y with rel := y.prod, released := [], times := [], creditDue := false }
      if halfUp k e1 (k.winHalf w) then (e1.emit (.busWrite (k.winHalf w) (k.winCredit w) (bytesLE 8 (y.prod % 2 ^ 32)))).bump (bdlCnt (k.winHalf w) 1) 8
      else e1) d2

/-- The adapter versions of a partition become FREE (R323, R605): its directory and its records are cleared, and each version that was not FREE is counted (R345). -/
def freeVersions (k : Ctl) (d : Data) (p : Nat) : Data :=
  if k.adpCount p = 0 then d
  else
    let n := ((List.range (k.adpCount p)).filter (fun i => bitsOf (d.rd (k.adpRecs p + 64 * i) 8) 32 2 != 0)).length
    ((d.clear (k.adpDir p) 1048576).clear (k.adpRecs p) (64 * k.adpCount p)).bump (cntAddr 0x11 p 18) n

/-- The Match Array's entries of a partition: those of its rule banks are cleared, and its prefix entries are deleted, each record's lease not waited for (R207, R605). -/
def emptyBanks (k : Ctl) (d : Data) (p : Nat) : Data :=
  let d1 := (List.range 32).foldl (fun e b =>
    if k.bankRule b p then e.setBank b []
    else if k.bankPrefix b then (e.bankTab b).foldl (fun f s => if recPart f s.2.assoc = p then dropPrefix f b s.1 s.2 none else f) e
    else e) d
  (((d1.mat.dels.map (fun x => x.record)).filter (fun a => recPart d1 a == p)).eraseDups).foldl (fun e a => endRecord k e a) d1

/-- Baskets and adapter versions become FREE, and the Match Array's entries of the partition are deleted (R605). -/
def emptyPart (k : Ctl) (d : Data) (p : Nat) : Data :=
  let d1 := (d.bsk.tab.filter (fun e => e.2.part == p && e.2.state != .free)).foldl (fun e x => releaseBasket k e x.1) d
  let d2 := freeVersions k d1 p
  emptyBanks k { d2 with adp := { d2.adp with
    pins := d2.adp.pins.filter (fun x => x.2.1 != p)
    retires := d2.adp.retires.filter (fun x => x.2.2.1 != p)
    deltas := d2.adp.deltas.filter (fun x => x.1.2.2 != p) } } p

/-- The wipe of a partition's memory (R606): every byte of its plain range and of its Sail window reads zero. -/
def wipePart (k : Ctl) (d : Data) (p : Nat) : Data :=
  let inIt := fun (a : Nat) => k.inPlain p a 1 || (k.tierOf a 1 == .sail && k.inSail p a 1)
  { d with
    mem := d.mem.filter (fun c => !inIt c.1)
    flaws := d.flaws.filter (fun x => !(x.2 == .one && inIt (32 * x.1)))
    poison := d.poison.filter (fun w => !inIt (32 * w))
    rawUe := d.rawUe.filter (fun w => !inIt (32 * w)) }

/-- Channels, rings and flag cells of a partition are cleared (R555). -/
def clearPart (k : Ctl) (d : Data) (p : Nat) : Data :=
  { d with
    mbx := { d.mbx with
      chans := Tab.keep d.mbx.chans (fun c _ => decide (32 ≤ c) || k.chPart c != p)
      flags := Tab.keep d.mbx.flags (fun c _ => !(decide ((k.frange p).1 ≤ c) && decide (c < (k.frange p).1 + (k.frange p).2))) }
    fyl := { d.fyl with rings := Tab.keep d.fyl.rings (fun r _ => r / 16 % 16 != p) } }

/-- Lend ranges of a partition that a CXL mapping still names (R524). -/
def deadLends (k : Ctl) (p : Nat) : List Nat :=
  ((List.range 8).flatMap (fun h => (List.range 8).filterMap (fun i => k.cxlEntry h i))).filter (fun n => (k.lend n).1 && (k.lend n).2.2.1 == p)

/-- A partition's groups and snapshot holds end, and its bit of TEARDOWN_MAP clears (R460, R605). -/
def fabPartEnd (k : Ctl) (d : Data) (p : Nat) : Data :=
  let d1 := d.fab.groups.foldl (fun e g => if k.grpPart g.1 = p then finishGop k e g.1 .aborted else e) d
  { d1 with
    fab := { d1.fab with
      holds := d1.fab.holds.filter (fun h => h.1 != p)
      deadPend := d1.fab.deadPend.filter (fun y => y.1 != p)
      teardown := d1.fab.teardown.filter (fun y => y != p) }
    bdl := { d1.bdl with cxlDead := d1.bdl.cxlDead ++ (deadLends k p).filter (fun n => !d1.bdl.cxlDead.contains n) } }

/-- The keys, programs and measurement of a partition that a teardown destroys (R601, R605). -/
def dropPartKeys (k : Ctl) (p : Nat) : Ctl :=
  { k with
    progs := Tab.keep k.progs (fun n _ => n / 65536 != p)
    sec := { k.sec with
      prefixKeys := Tab.erase k.sec.prefixKeys p
      qpKeys := Tab.keep k.sec.qpKeys (fun n _ => n / 256 != p)
      measures := Tab.erase k.sec.measures (16 + p) } }

/-- The RESET record of a reset that reaches no one unit of R36: the spec gives it no locator and no LEVEL, and both are free (R626, log entry 194). -/
def resetRecOpen (k : Ctl) (d : Data) (source threads : Nat) : Data :=
  resetRec k { d with free := d.free + 1 } (Config.freeValue d.free % 2 ^ 32) source threads

/-- The teardown of a partition, with or without the wipe (R605), and its RESET record (R653). What it frees counts at the watermarks (R354). -/
def tearPartition (x : Ctl × Data) (p : Nat) (wipe : Bool) : Ctl × Data :=
  let k := x.1
  let n := (x.2.fyl.threads.filter (fun e => e.2.part == p)).length
  let d1 := clearPart k (emptyPart k (freePart k (endPart k x.2 p) p) p) p
  let d2 := wmCheck k (if wipe then wipePart k d1 p else d1) p
  ((dropPartKeys k p).resetBy 0x07, resetRecOpen k (fabPartEnd k d2 p) 0x07 n)

/-! ### Resets that reach the regions -/

/-- The mailboxes without every channel but 0 and 32, and without flag cells (R555, R654). -/
def Mbx.cleared (m : Mbx) (both : Bool) : Mbx :=
  { m with chans := Tab.keep m.chans (fun c _ => both && (c == 0 || c == 32)), flags := [] }

/-- The Ballast tier after a reset of its channels: it rebuilds where it has been formatted (R387); rows and waiting writes are dropped. -/
def Bls.restart (b : Bls) (on : Bool) : Bls := { b with waits := [], rebuilding := on }

/-- What the Sail units keep through a reset that is no power-on reset: which of them are out of service (R285). -/
def Sal.restart (s : Sal) (power : Bool) : Sal :=
  { units := if power then [] else (s.units.filter (fun e => e.2.lost)).map (fun e => (e.1, { unitReset with lost := true })), issues := [], nextId := 0,
    hot := s.hot }

/-- A fabric reset (R468, R654): every region block but the Bridle and Tether ports. Threads end with ABORTED, QPs become FREE, Baskets, ledgers and push contexts
are zeroed; registers, memory, programs and links stay. -/
def fabricReset (x : Ctl × Data) : Ctl × Data :=
  let k := x.1
  let n := x.2.fyl.threads.length
  let d1 := (List.range 16).foldl (fun e p => freePart k (endPart k e p) p) x.2
  let z := Data.reset
  let d2 := { d1 with
    fyl := z.fyl
    mbx := d1.mbx.cleared true
    bsk := z.bsk
    kvw := z.kvw
    adp := z.adp
    mat := z.mat
    spl := z.spl
    ttx := { d1.ttx with regions := [], inbox := [] }
    sal := d1.sal.restart false
    mrg := z.mrg
    bls := d1.bls.restart (d1.header.isSome)
    bdl := { d1.bdl with jobs := [] }
    trf := { d1.trf with charges := [], meterHeld := [] }
    fab := { d1.fab with groups := [], holds := [], deadPend := [] }
    slices := z.slices }
  (k.resetBy 0x06, resetRecOpen k d2 0x06 n)

/-- The registers after a warm, cold or power-on reset (R654): RWS fields are kept through a warm reset, every other field takes its reset value. -/
def Shell.afterReset (s : Shell) (warm : Bool) : Shell :=
  { Shell.reset with
    cfg := if warm then Tab.keep (Tab.mapVals s.cfg (fun a v =>
        ((v &&& maskAt (fun c => c == .rws) a) ||| (resetWord a &&& ~~~ maskAt (fun c => c == .rws) a)) &&& maskAt (fun _ => true) a))
        (fun a v => v != resetWord a)
      else [] }

/-- The security block after such a reset (R601, R654): keys of PRT_DEF's and sessions are gone; Ballast keys, public keys and ownership stay, but that FA ends with a
power-on reset (R608). -/
def Sec.afterReset (s : Sec) (power : Bool) : Sec :=
  { Sec.reset with
    blsKeys := s.blsKeys
    owner := if power && s.owner == 2 then (if s.installers.isEmpty then 0 else 1) else s.owner
    installers := s.installers
    operators := s.operators
    fails := if power then 0 else s.fails
    lockUntil := if power then 0 else s.lockUntil
    fw := s.fw
    fwSlot := s.fwSlot
    svnMin := s.svnMin }

/-- The time service after a reset (R641, R654): from the keeper in HOLDOVER, or void after a power-on reset or where the keeper has lost it. TIM_CFG is at its reset
value, so that PLL_MGT follows TIM_10M_IN where it is present. -/
def Tim.afterReset (t : Tim) (power : Bool) : Tim :=
  let ten := bitsOf t.inputs 7 1 == 1
  if power || t.void then { Tim.reset with inputs := t.inputs, on10m := ten, pcieAt := t.pcieAt }
  else { t with state := .holdover, tod := none, streak := 0, heard := none, edge := none, slew := 0, on10m := ten }

/-- Power and heat after a reset: the supplies and the sensors stay as they are. -/
def Pwr.afterReset (p : Pwr) : Pwr :=
  { p with state := .run, req := none, next := 0, result := 0, capLevel := 0, cap7 := none, therm := 0, hotSince := none, lim := [] }

/-- Start-up from its first step for a reach (R655, R657): the option bytes are read again. -/
def Rst.afterReset (r : Rst) (power warm : Bool) (source : Nat) : Rst :=
  { Rst.reset with
    stage := if power then 1 else 2
    source := source
    optA := r.optA
    optB := r.optB
    perstWarm := r.perstWarm
    persto := if warm then r.persto else []
    nandMts := r.nandMts }

/-- The black box through a reset (R627, R630): a power-on reset loses the queue; BOOT counts power-on and warm resets. -/
def Bbx.afterReset (b : Bbx) (power warm : Bool) : Bbx :=
  { b with
    queue := if power then [] else b.queue
    boot := if power || warm then (b.boot + 1) % 65536 else b.boot
    opened := false
    seen := [] }

/-- The data plane through a warm, cold or power-on reset (R654): memory contents are unspecified afterwards, and read as memory that nothing has written. -/
def dataReset (d : Data) (power warm : Bool) : Data :=
  let z := Data.reset
  let m := d.mbx.cleared (!power)
  { z with
    mbx := { m with msixPend := [], msixOn := [] }
    bls := d.bls.restart false
    sal := d.sal.restart power
    fab := { z.fab with
      mgmtA := warm && d.fab.mgmtA
      mgmtB := warm && d.fab.mgmtB }
    bbx := d.bbx.afterReset power warm
    cnt := Tab.put 0#64 [] (cntAddr 0x0A 0 2) (if power then BitVec.ofNat 64 (65536 - d.bbx.recs.length) else Tab.getD d.cnt (cntAddr 0x0A 0 2) 0#64)
    engs := Tab.mapVals d.engs (fun _ e => { e with hot := false })
    out := d.out
    free := d.free
    tick := d.tick }

/-- A warm, cold or power-on reset (R653, R654), of a SOURCE: the whole chip but what R654 keeps, and start-up begins (R657). -/
def chipReset (x : Ctl × Data) (source : Nat) (power warm : Bool) : Ctl × Data :=
  let k := x.1
  let n := x.2.fyl.threads.length
  let lost := power || k.tim.void
  let k1 : Ctl :=
    { shell := k.shell.afterReset warm
      ticks := k.ticks
      ns := if lost then 0 else k.ns
      frac := if lost then 0 else k.frac / 2 ^ 16 * 2 ^ 16
      progs := []
      sec := k.sec.afterReset power
      tim := k.tim.afterReset power
      pwr := k.pwr.afterReset
      rst := k.rst.afterReset power warm source
      down := heldDown
      cells := [] }
  let d2 := dataReset x.2 power warm
  let d3 := if lost then d2.setSts 0x0400180 6 else d2
  let d4 := if k.tim.state = k1.tim.state then d3 else timeRec k1 (d3.setSts 0x0400180 5) k.tim.state k1.tim.state k.tim.offset 0
  (k1, resetRec k1 d4 locAll source n)

/-- Whether a reset of a reach may be taken while start-up is in progress: a fabric, partition or requested block reset is refused before DONE (R655). -/
def Ctl.done (k : Ctl) : Bool := k.rst.stage == 15

/-- A member receives FRESET (R468): it forwards it, and places its regions in fabric reset unless it asked itself; before STAGE reads DONE it is refused, and
in S1 and S3 the regions are down (R655). -/
def execFreset (group parent : Nat) (s : State) : Host.Outcome State Fault Refusal :=
  onBoth (fun x =>
    if !x.1.done || x.1.pwr.state != .run || !x.1.grpOn group then x
    else
      let d1 := forwardReset x.1 x.2 group parent
      if d1.fab.resetOps.any (fun o => o.group == group) then (x.1, d1) else fabricReset (x.1, d1)) s

end Sys2Proof.Machine
end

