-- ==== Sys2Proof/Machine/Ras.lean ====
section
/-!
DEFINITION. Errors and the black box (chapter 22): uncorrectable SRAM and HBM words, cells out of service, lost links, escalation, corrected errors and storms, the patrol
of the plain stacks, the end of a block reset, and the writing of the black box with its capture slots and event ring.
-/
namespace Sys2Proof.Machine

/-! ### Cells, blocks and Baskets -/

/-- Cells of a block (R37). -/
def cellsOf (b : Nat) : Nat :=
  if b < 4 then 4
  else if b < 8 then 8
  else if b < 10 then 32
  else match b with
    | 10 => 544 | 11 => 24 | 12 => 4 | 13 => 4 | 14 => 4 | 15 => 4 | 16 => 2 | 17 => 8 | 18 => 4 | 19 => 4 | 20 => 2 | _ => 0

/-- The Match entries of a bank are discarded with the bank (R40): a rule bank is marked LOST. -/
def bankOut (k : Ctl) (d : Data) (b : Nat) : Data :=
  let d1 := if k.bankPrefix b then (d.bankTab b).foldl (fun e s => settleMat k (dropPrefix e b s.1 s.2 none)) d else d.setBank b []
  if k.bank b 0 2 = 2 then d1.setSts 0x17000C0 b else d1

/-- What a cell out of service discards: a core the threads of its slots, a MAC its link, a Bridle half its traffic, a Match bank its entries (R40, R616). -/
def cellStop (x : Ctl × Data) (r b c : Nat) : Ctl × Data :=
  let k := x.1
  let d := x.2
  if b < 4 then
    let mine := d.fyl.threads.filter (fun e => tileOf e.1 == 4 * r + b && (match e.2.run with
      | .inSlot cc _ => cc == c | .leaving cc _ => cc == c | _ => false))
    (k, mine.foldl (fun e y => endThread k (e.setThr y.1 { y.2 with run := .waiting }) y.1 { y.2 with run := .waiting } .uncorrectable 0) d)
  else if 12 ≤ b ∧ b ≤ 15 then (k, linkGo k d (4 * r + b - 12) c .off true)
  else if b = 16 then halfDown x (2 * r + c)
  else if b = 17 then (k, bankOut k d (8 * r + c))
  else x

/-- A cell goes out of service (R40): the operations it had accepted complete with UNCORRECTABLE. -/
def cellOut (x : Ctl × Data) (r b c : Nat) (ops : List (Nat × Nat)) : Ctl × Data :=
  let n := 1024 * (64 * r + b) + c
  if cellsOf b ≤ c ∨ x.1.cells.contains n then x
  else if b = 10 ∧ c < 512 then (x.1, unitLost x.1 x.2 (4 * c + r) 0x0A none)
  else
    let y := cellStop x r b c
    ({ y.1 with cells := y.1.cells ++ [n] }, abortList x.1 y.2 (ops.filter (fun o => y.2.live o.1 o.2)) .uncorrectable)

/-- A Basket's record is lost (R618): an ERROR record names it, and a BASKETS record. -/
def loseBasket (k : Ctl) (d : Data) (loc source addr syn b : Nat) : Data :=
  let x := d.basket b
  if x.state = .free ∨ x.lost then d
  else
    let d1 := d.onBasket b (fun y => { y with lost := true })
    basketsRec k (errorRec k d1 loc ⟨source, 1, .uncorrectable, x.part, some addr, some syn, some b, 0⟩) loc [b]

/-- Memory words are marked poisoned (R617): the marks made are counted. -/
def poisonAt (d : Data) (a n : Nat) : Data :=
  { d.bump (cntAddr 0x09 0 3) 1 with poison := markPoison d.poison a n }

/-- Whether the tables of R37 list what a locator names: nothing else is ever reported. Half 1 of a Bridle port is there only when the port is bifurcated. -/
def locListed (k : Ctl) (loc : Nat) : Bool :=
  let r := bitsOf loc 2 2
  let b := bitsOf loc 4 6
  let c := bitsOf loc 10 10
  if 2 ^ 21 ≤ loc then false
  else if bitsOf loc 20 1 = 1 then loc % 4 == 1 && r == 0 && c == 0 && decide (b ≤ 6)
  else
    match loc % 4 with
    | 0 => blockListed b && decide (c < cellsOf b) && !(b == 16 && c == 1 && !k.bifurcated r)
    | 1 => blockListed b && c == 0
    | 2 => b == 0 && c == 0
    | _ => loc == locAll

/-! ### Uncorrectable words -/

/-- A landing or reorder buffer entry is lost as if damaged in flight (R616): a held packet is dropped, the run that waits longest has a bit of its payload
changed, so that its check fails. -/
def damage (d : Data) (q : Nat) (psn : Option Nat) : Data :=
  match psn with
  | some n => d.onQp q (fun x => { x with held := x.held.filter (fun h => h.2.psn != n) })
  | none =>
    match d.ttx.inbox.find? (fun m => m.qp == q && m.consumer == 1 && decide (64 < m.bytes.length)) with
    | some m =>
      let bad := { m with bytes := m.bytes.dropLast ++ [(m.bytes.getLast?.getD 0#8) ^^^ 1#8] }
      { d with ttx := { d.ttx with inbox := d.ttx.inbox.map (fun y => if y = m then bad else y) } }
    | none => d

/-- ACTION of the containment at a locator (R626). -/
def actionAt (loc : Nat) : Nat :=
  match loc % 4 with | 0 => 4 | 1 => 5 | 2 => 6 | _ => 7

/-- The sequencer or arbiter state of a unit is lost (R616, R620, R621): the unit is contained at its level, and the event has its own ERROR record, which names the unit
that contains it (R39). -/
def stateLost (x : Ctl × Data) (loc : Nat) (word syn : Nat) (ops : List (Nat × Nat)) : Ctl × Data :=
  let r := bitsOf loc 2 2
  let b := bitsOf loc 4 6
  let c := bitsOf loc 10 10
  let live := ops.filter (fun o => x.2.live o.1 o.2)
  if loc % 4 = 0 ∧ b = 10 ∧ c < 512 ∧ !(x.2.sunit (4 * c + r)).lost then (x.1, unitLost x.1 (x.2.flipped loc) (4 * c + r) 0x0A (some syn))
  else
    let at_ := containLoc loc
    let st : Status := if loc % 4 = 0 then .uncorrectable else .aborted
    let d := reportUe x.1 (x.2.flipped loc) at_ ⟨0x0A, actionAt at_, st, 0xF, some word, some syn, none, live.length⟩
    if loc % 4 = 0 then cellOut (x.1, d) r b c live else containAt (x.1, d) loc

/-- An SRAM word is found uncorrectable (R616): what it held decides; a Basket's record that its slice does not hold dirty is fetched again. A locator that R37 does not list is none of this chip's, and reports nothing. -/
def execSramUncorrectable (loc : BitVec 32) (word : BitVec 48) (syn : BitVec 64) (held : SramWord) (s : State) : Host.Outcome State Fault Refusal :=
  onBoth (fun x =>
    let k := x.1
    let d := x.2
    let l := loc.toNat
    if !locListed k l || (match held with | .state at_ _ => !locListed k at_.toNat | _ => false) then x else
    match held with
    | .clean => (k, d.rasUe 1)
    | .thread t slot =>
      (match d.thr t with
       | none => (k, d.rasUe 1)
       | some th =>
         let d1 := reportUe k d l ⟨0x01, (if slot then 4 else 3), .uncorrectable, th.part, some word.toNat, some syn.toNat, th.bsk, th.ops.length⟩
         (match slot, th.run with
          | true, .inSlot c _ => cellOut (k, d1) (tileOf t / 4) (tileOf t % 4) c []
          | _, _ => (k, endThread k d1 t th .uncorrectable 0)))
    | .basket b => (k, if d.recDirty b then loseBasket k (d.rasUe 1) l 0x01 word.toNat syn.toNat b else d.rasUe 1)
    | .mergeRow e s r =>
      (match d.mstream (64 * e + s) with
       | none => (k, d.rasUe 1)
       | some m =>
         (k, reportUe k (d.setStream (64 * e + s) { m with bad := if m.bad.contains r then m.bad else r :: m.bad }) l
           ⟨0x01, 1, .poison, m.part, some word.toNat, some syn.toNat, none, 1⟩))
    | .landing q psn => (k, damage (reportUe k d l ⟨0x01, 2, .ok, (d.qp q).part, some word.toNat, some syn.toNat, none, 0⟩) q psn)
    | .state at_ ops => stateLost x at_.toNat word.toNat syn.toNat ops
    | .gondola =>
      let d1 := reportUe k d (locChip 1) ⟨0x01, 5, .domainOff, 0xF, some word.toNat, some syn.toNat, none, 0⟩
      let y := dropSessions (k, d1)
      (y.1.resetBy 0x0A, resetRec y.1 y.2 (locChip 1) 0x0A 0)) s

/-- An HBM word is found uncorrectable (R617): a plain 64-byte line or a 32-byte word of a Sail bank is marked; in the Basket table, the Baskets of the line are LOST (R618).
`chan` is the channel controller that reports it. -/
def hbmBad (k : Ctl) (d : Data) (a chan syn : Nat) : Data :=
  match k.tierOf a 1 with
  | .unmapped => d
  | .aperture => d
  | .sail =>
    let w := a / 32
    let i := (a - 0x010000000000) / 0x002000000000
    let d1 := reportUe k (poisonAt d (32 * w) 32) (locCell i 10 (512 + chan % 32))
      ⟨0x03, 1, .poison, ((List.range 16).find? (fun p => k.prtEnabled p && k.inSail p a 1)).getD 0xF, some (32 * w), some syn, none, 0⟩
    let d2 := (d1.setSts (salSts i) 0).bump (salCnt i 5) 1
    { d2 with rawUe := if d2.rawUe.contains w then d2.rawUe else w :: d2.rawUe }
  | _ =>
    let line := a / 64 * 64
    let stack := a / 4096 % 8
    let loc := locCell (stack / 2) (8 + stack % 2) (chan % 32)
    let d1 := reportUe k (poisonAt d line 64) loc
      ⟨0x02, 1, .poison, ((List.range 16).find? (fun p => k.prtEnabled p && k.inPlain p a 1)).getD 0xF, some line, some syn, none, 0⟩
    if a < ledgerDpa 0 0 then loseBasket k d1 loc 0x02 line syn (a / basketDpa 1) else d1

/-- HBM_UNCORRECTABLE. -/
def execHbmUncorrectable (addr chan : Nat) (syn : BitVec 64) (s : State) : Host.Outcome State Fault Refusal :=
  onData (fun k d => hbmBad k d addr chan syn.toNat) s

/-! ### Beyond one unit -/

/-- An inter-region link has exhausted its 8 retries and closes (R614, R619): the first is routed around; a second takes the chip-level action. -/
def execInterRegionLinkLost (a b : Nat) (s : State) : Host.Outcome State Fault Refusal :=
  onBoth (fun x =>
    let k := x.1
    let d := x.2
    let n := 4 * Nat.min a b + Nat.max a b
    if 4 ≤ a ∨ 4 ≤ b ∨ a = b ∨ d.ras.closed.contains n then x
    else
      let again := !d.ras.closed.isEmpty
      let d1 := Data.bump { d with ras := { d.ras with closed := d.ras.closed ++ [n] } } (cntAddr 0x09 0 4) 8
      let d2 := reportUe k d1 (if again then locAll else locChip 6) ⟨0x05, (if again then 7 else 9), (if again then .aborted else .ok), 0xF, none, none, none, 0⟩
      if again then fenceChip (k, d2) else (k, d2)) s

/-- The block reset of an RST_BLK request ends (R667). -/
def blkResult (k : Ctl) (n : Nat) (st : Status) : Ctl :=
  if k.rst.blk = some n then { k with rst := { k.rst with blk := none, result := st.code } } else k

/-- A containment step has not completed within 1 ms (R620): a block reset fences its region, that of a plain stack controller the chip; a region fence takes the
chip-level action. -/
def execContainmentTimeout (region block : Nat) (s : State) : Host.Outcome State Fault Refusal :=
  onBoth (fun x =>
    let n := 64 * region + block
    match x.2.ras.steps.find? (fun y => y.blk == n) with
    | none => x
    | some st =>
      if 4 ≤ region ∨ 64 ≤ block ∨ x.1.ticks < st.since + 500000 then x
      else
        let k := blkResult x.1 n .timeout
        let chip := block == 63 || block == 8 || block == 9
        let loc := if chip then locAll else locRegion region
        let d := reportUe k { x.2 with ras := { x.2.ras with steps := x.2.ras.steps.filter (fun y => y.blk != n) } } loc
          ⟨0x0A, (if chip then 7 else 6), .aborted, 0xF, none, none, none, 0⟩
        if chip then fenceChip (k, d) else fenceRegion (k, d) region) s

/-- A block's reset completes and the block rejoins, its cells in service again (R40); a tile posts what it owes (R79), a port's links wait for their lasers (R654). A
region that has closed its crossings stays fenced. -/
def execBlockRejoin (region block : Nat) (s : State) : Host.Outcome State Fault Refusal :=
  onBoth (fun x =>
    let n := 64 * region + block
    if !x.2.ras.steps.any (fun y => y.blk == n) then x
    else
      let d := { x.2 with ras := { x.2.ras with steps := x.2.ras.steps.filter (fun y => y.blk != n) } }
      if block = 63 then (x.1, d)
      else
        let k0 := blkResult x.1 n .ok
        let k := { k0 with
          down := k0.down.filter (fun y => y != n)
          cells := k0.cells.filter (fun y => y / 1024 != n) }
        let d1 := if block < 4 then tileBack k d (4 * region + block)
          else if 12 ≤ block ∧ block ≤ 15 then portRestart k d (4 * region + block - 12)
          else d
        (k, kickAll k d1)) s

/-! ### Corrected errors and patrol -/

/-- RAS_INJECT is armed (R632, R708): one bit flips at the next access. In a word of a Sail stack that the unit holds it is an error of one symbol, which the in-die code
corrects as the word is read (R281). -/
def armInject (k : Ctl) (d : Data) (loc bit addr : Nat) : Data :=
  { d with
    ras := { d.ras with inject := some (loc, bit, addr) }
    flaws := if k.tierOf addr 1 = .sail ∧ bitsOf loc 4 6 = 10 ∧ bitsOf loc 2 2 = (sailChan addr).1 then d.flaws ++ [(addr / 32, .one)] else d.flaws }

/-- A cell that R37 lists reports `n` corrected errors (R614, R622). -/
def execCeStorm (loc : BitVec 32) (hbm : Bool) (n : Nat) (s : State) : Host.Outcome State Fault Refusal :=
  onData (fun k d => if n = 0 ∨ fld loc 0 2 ≠ 0 ∨ !locListed k loc.toNat then d else ceAdd k d loc.toNat hbm n) s

/-- The 64-byte lines of a plain stack. -/
def stackLines : Nat := 96 * 2 ^ 30 / 64

/-- The DPA of a line of plain stack `i` (R347). -/
def patrolDpa (i line : Nat) : Nat := (line / 64 * 8 + i) * 4096 + line % 64 * 64

/-- A plain stack controller patrols its next line (R615): a corrected line is counted and written back, an uncorrectable one marked. The last line of a pass that took
longer than PATROL_HRS sets PATROL_LATE (R634). -/
def execPatrolScrub (stack : Nat) (fixed bad : Bool) (syn : BitVec 64) (s : State) : Host.Outcome State Fault Refusal :=
  onData (fun k d =>
    if 8 ≤ stack ∨ k.pwr.state ≠ .run ∨ !k.up (stack / 2) (8 + stack % 2) && !k.fenced (stack / 2) then d
    else
      let p := Tab.getD d.ras.patrol stack (0, 0)
      let loc := locCell (stack / 2) (8 + stack % 2) 0
      let d1 := d.bump (cntAddr 0x09 0 5) 1
      let d2 := if bad then hbmBad k d1 (patrolDpa stack p.1) 0 syn.toNat else if fixed then ceAdd k d1 loc true 1 else d1
      let last := decide (stackLines ≤ p.1 + 1)
      let late := last && decide (k.fld 0x0900040 0 8 * 1800000000000 < k.ticks - p.2)
      let d3 := if late then d2.setSts 0x0900080 25 else d2
      { d3 with ras := { d3.ras with patrol := Tab.set d3.ras.patrol stack (if last then (0, k.ticks) else (p.1 + 1, p.2)) } }) s

/-! ### The black box -/

/-- The 64 bytes of a record (R624). -/
def BbRec.bytes (x : BbRec) (captured : Bool) : List Byte :=
  let body := (x.body ++ bytesLE 38 0).take 38
  let l := bytesLE 6 x.seq ++ bytesLE 1 x.kind ++ bytesLE 1 (b2n captured + 2 * b2n x.after + 4 * b2n x.more) ++ bytesLE 8 x.time ++ bytesLE 4 x.loc ++
    bytesLE 2 x.boot ++ body
  l ++ bytesLE 4 (crc32c l)

/-- The capture slots take an ERROR record (R628): one of level block or above opens slot 0 once in the life of the device, and later the next slot once a boot; every slot
opened takes the next 63. -/
def capture (b : Bbx) (x : BbRec) : Bbx :=
  if x.kind ≠ 1 then b
  else
    let put := fun (c : Bbx) (sl n : Nat) =>
      { c with
        recs := Tab.set c.recs (64 * sl + n) (x.bytes true)
        filling := if n + 1 < 64 then Tab.set c.filling sl (n + 1) else Tab.erase c.filling sl }
    let b1 := b.filling.foldl (fun c e => put c e.1 e.2) b
    if !x.block ∨ b.opened then b1
    else
      let sl := if b.slot0 then b.slot % 63 + 1 else 0
      put { b1 with slot := sl, slot0 := true, opened := true } sl 0

/-- An answer is posted as an OUT message of its channel (R592, R539): LEN of its envelope, body and tag, with a PTR and a TAG that the spec states nowhere. While OUT is
FULL the message write is dropped. -/
def postAnswer (d : Data) (a : Answer) : Data :=
  let ch := d.chan a.chan
  let len := 16 + a.body.length + (if a.session = 0 then 0 else 16)
  let d1 :=
    if ch.outFull then ((d.setChan a.chan { ch with ovr := true }).setSts mbxSts 1).bump (mbxCnt 0) 1
    else
      { (d.setChan a.chan { ch with
          outPtr := BitVec.ofNat 64 (Config.freeValue d.free % 4096)
          outHi := BitVec.ofNat 64 (len + Config.freeValue (d.free + 1) % 2 ^ 32 * 2 ^ 32)
          outFull := true }) with free := d.free + 2 }
  d1.emit (.answer a.chan a.session a.opcode a.status a.seq a.body)

/-- The island writes the next queued record (R627): it becomes durable in the ring and the capture slots, an ERROR record is copied to the RAS event ring (R623), and the
answer that waits for it is given (R598). -/
def bbxWrite (k : Ctl) (d : Data) : Data :=
  match d.bbx.queue with
  | [] => d
  | x :: rest =>
    let b := capture { d.bbx with queue := rest } x
    let b1 := { b with
      recs := Tab.set b.recs (4096 + b.head % 61440) (x.bytes false)
      head := (b.head + 1) % 61440 }
    let d1 := Data.bump { d with bbx := b1 } (cntAddr 0x0A 0 0) 1
    let d2 := if x.kind = 1 then evtPush k d1 17 0x0940040 64 (x.bytes false) 0 (k.fld 0x0940080 0 16) 0x0900080 24 else d1
    match x.answer with
    | some a => postAnswer d2 a
    | none => d2

/-- BLACK_BOX_WRITE: without VAUX18 the island is stopped. -/
def execBlackBoxWrite (s : State) : Host.Outcome State Fault Refusal :=
  onData (fun k d => if k.pwr.vaux then bbxWrite k d else d) s

end Sys2Proof.Machine
end

