-- ==== Sys2Proof/Machine/Time.lean ====
section
/-!
DEFINITION. Reference inputs, KTIME and the time service (R637 to R652): the advance of KTIME at a CLK_MGT cycle, the servo, the states of the service, PPS and PTP.
-/
namespace Sys2Proof.Machine

/-- LOCK_NS (R649). -/
def Ctl.lockNs (k : Ctl) : Nat := k.fld 0x0400040 16 16
/-- STEP_NS in ns. -/
def Ctl.stepNs (k : Ctl) : Nat := k.fld 0x0400040 32 16 * 1000
/-- SLEW_PPM. -/
def Ctl.slewPpm (k : Ctl) : Nat := k.fld 0x0400040 48 10
/-- SRC: 0 NONE, 1 PPS, 2 PTP. -/
def Ctl.timSrc (k : Ctl) : Nat := k.fld 0x0400040 0 2
/-- PTP_EN. -/
def Ctl.ptpOn (k : Ctl) : Bool := k.fld 0x0400040 2 1 == 1
/-- MGT_REF: 0 REFCLK_SYS, 1 10M, 2 AUTO. -/
def Ctl.mgtRef (k : Ctl) : Nat := k.fld 0x0400040 4 2
/-- TIM_STS. -/
def timSts : Nat := 0x0400180
/-- A counter of TIM_CNT (R652): 0 STEPS, 1 SLEWS, 2 PPS_EDGES, 3 PPS_REJECT, 4 PTP_TS. -/
def timCnt (i : Nat) : Nat := cntAddr 0x04 0 i

/-- What a slew takes from INCR at a cycle, in 2^−32 ns: SLEW_PPM of 2 ns (R644). -/
def Ctl.slewStep (k : Ctl) : Nat := Nat.min k.tim.slew (k.slewPpm * 2 ^ 33 / 1000000)

/-- KTIME at the next CLK_MGT cycle (R640): INCR is added to NS and its 32-bit fraction, and the slew is consumed. -/
def tickTime (k : Ctl) : Ctl :=
  let z := k.slewStep
  let x := k.frac + (2 ^ 33 + k.tim.adj).toNat - z
  { k with
    ticks := k.ticks + 1
    ns := (k.ns + x / 2 ^ 32) % 2 ^ 64
    frac := x % 2 ^ 32
    tim := { k.tim with slew := k.tim.slew - z } }

/-- A transition of the time service (R642): its record and STATE_CHG. -/
def timeGo (x : Ctl × Data) (st : TState) : Ctl × Data :=
  let k := { x.1 with tim := { x.1.tim with state := st, valid := x.1.tim.valid || st == .locked } }
  if st = x.1.tim.state then x else (k, timeRec k (x.2.setSts timSts 5) x.1.tim.state st k.tim.offset k.timSrc)

/-- The state without a source: FREERUN, or HOLDOVER if VALID (R642). -/
def Tim.alone (t : Tim) : TState := if t.valid then .holdover else .freerun

/-- Whether the selected source is OK: an offset within the last 2 s (R642). -/
def Ctl.sourceOk (k : Ctl) : Bool :=
  match k.tim.heard with
  | some t => decide (k.ticks < t + 1000000000)
  | none => false

/-- A forward step (R644): STEPPED, its counter, and no pulse for the seconds skipped (R646). -/
def stepTime (x : Ctl × Data) (o : Nat) : Ctl × Data :=
  let k := x.1
  let ns := (k.ns + o) % 2 ^ 64
  let sec := fun (a : Nat) => (ns - k.fld a 2 30) / 1000000000
  ({ k with
     ns := ns
     tim := { k.tim with slew := 0, stepAt := k.ticks, pulse0 := Nat.max k.tim.pulse0 (sec 0x0400080), pulse1 := Nat.max k.tim.pulse1 (sec 0x04000C0) } },
   (x.2.setSts timSts 4).bump (timCnt 0) 1)

/-- A rate within ±500 ppm of INCR, that the servo gives: a free value, in 2^−32 ns. -/
def servoRate (n : Nat) : Int := (Config.freeValue n % 8589935 : Nat) - 4294967

/-- An offset corrects KTIME (R644): a step, a slew, or the servo's rate. -/
def correct (x : Ctl × Data) (o : Int) : Ctl × Data :=
  let k := x.1
  if (k.stepNs : Int) < o then stepTime x o.toNat
  else if o < 0 ∧ k.lockNs < o.natAbs then
    ({ k with tim := { k.tim with slew := o.natAbs * 2 ^ 32 } }, if k.tim.slew = 0 then x.2.bump (timCnt 1) 1 else x.2)
  else
    ({ k with tim := { k.tim with slew := 0, adj := servoRate x.2.free } }, { x.2 with free := x.2.free + 1 })

/-- An offset of the selected source (R642 to R644): it is judged against LOCK_NS and moves the state; `need` holds the state at ACQUIRING. -/
def offsetIn (x : Ctl × Data) (o : Int) (need : Bool) : Ctl × Data :=
  let k := x.1
  let good := decide (o.natAbs ≤ k.lockNs)
  let y : Ctl × Data := ({ k with tim := { k.tim with heard := some k.ticks, offset := o, streak := if good then Nat.min 16 (k.tim.streak + 1) else 0 } }, x.2)
  let z := match k.tim.state with
    | .freerun => timeGo y .acquiring
    | .holdover => timeGo y .acquiring
    | .acquiring => y
    | .locked => if 4 * k.lockNs < o.natAbs then timeGo y .acquiring else y
  let w := if z.1.tim.state = .acquiring ∧ 16 ≤ z.1.tim.streak ∧ !need then timeGo z .locked else z
  correct w o

/-! ### Reference inputs (R637 to R639) -/

/-- PLL_MGT's reference under MGT_REF (R638): under AUTO TIM_10M_IN while present; a lost one is held under 10M. -/
def Ctl.mgtFollow (k : Ctl) : Ctl :=
  let ten := bitsOf k.tim.inputs 7 1 == 1
  { k with tim := { k.tim with on10m := match k.mgtRef with | 0 => false | 1 => ten || k.tim.on10m | _ => ten } }

/-- In S3, or without VIN18, the keeper that has lost both its clocks has lost the time (R639, R641). -/
def Ctl.keeperVoid (k : Ctl) : Ctl :=
  if (k.pwr.state == .s3 || !k.pwr.vin) && bitsOf k.tim.inputs 0 1 == 0 && bitsOf k.tim.inputs 9 1 == 0 then
    { k with tim := { k.tim with void := true } }
  else k

/-- The ports that a REFCLK_ETH input feeds: every link that is UP or in HOLD leaves for ACQUIRE; with `again` links in ACQUIRE start it anew. -/
def ethPorts (k : Ctl) (d : Data) (south again : Bool) : Data :=
  (List.range 8).foldl (fun e i =>
    let p := (if south then 8 else 0) + i
    eachLink e (fun f l =>
      let st := (f.link p l).state
      if again then (if st = .acquire then linkGo k f p l .acquire false else f)
      else if st = .up ∨ st = .hold then linkGo k f p l .acquire true else f)) d

/-- A reference input is lost (R639), by its bit in CLK_STS. SOURCE of the ERROR record of REFCLK_SYS is stated nowhere: a free value. -/
def execClockInputLoss (input : Nat) (s : State) : Host.Outcome State Fault Refusal :=
  onBoth (fun x =>
    if 10 ≤ input ∨ input = 8 ∨ bitsOf x.1.tim.inputs input 1 = 0 then x
    else
      let k0 := { x.1 with tim := { x.1.tim with inputs := x.1.tim.inputs - 2 ^ input } }
      let k := k0.mgtFollow.keeperVoid
      let d := x.2.setSts 0x0300040 11
      match input with
      | 0 => (k, errorRec k { d with free := d.free + 1 } (locChip 4) ⟨Config.freeValue d.free % 256, 0, .ok, 0xF, none, none, none, 0⟩)
      | 1 => (k, ethPorts k d false false)
      | 2 => (k, ethPorts k d true false)
      | 7 => if k.tim.state = .locked ∧ k.timSrc = 1 then timeGo (k, d) .holdover else (k, d)
      | 9 => (k, d)
      | _ => halfDown (halfDown (k, d) (2 * (input - 3))) (2 * (input - 3) + 1)) s

/-- A reference input is present again (R638, R639). -/
def execClockInputReturn (input : Nat) (s : State) : Host.Outcome State Fault Refusal :=
  onBoth (fun x =>
    if 10 ≤ input ∨ input = 8 ∨ bitsOf x.1.tim.inputs input 1 = 1 then x
    else
      let k0 := { x.1 with tim := { x.1.tim with inputs := x.1.tim.inputs + 2 ^ input } }
      let k := k0.mgtFollow
      match input with
      | 1 => (k, ethPorts k x.2 false true)
      | 2 => (k, ethPorts k x.2 true true)
      | _ => (if 3 ≤ input ∧ input < 7 then { k with tim := { k.tim with pcieAt := Tab.put 0 k.tim.pcieAt (input - 3) k.ticks } } else k, x.2)) s

/-- The root halves whose BDL_PERSTO_N may be high (R663): 100 ms after the REFCLK_PCIE of their port was detected, while it is present. -/
def Ctl.rootsClocked (k : Ctl) : List Nat :=
  (List.range 8).filter (fun h => k.halfMode h == 1 && bitsOf k.tim.inputs (3 + h / 2) 1 == 1 && decide (Tab.getD k.tim.pcieAt (h / 2) 0 + 50000000 ≤ k.ticks))

/-- From step 11 on, BDL_PERSTO_N of the root halves rises when it may; an output already high stays high (R663). -/
def perstoRise (k : Ctl) : Ctl :=
  if k.rst.stage ≤ 11 ∨ k.pwr.state = .s3 ∨ !k.pwr.vin ∨ !k.pwr.vaux then k
  else { k with rst := { k.rst with persto := k.rst.persto ++ k.rootsClocked.filter (fun h => !k.rst.persto.contains h) } }

/-- The reference inputs that are present are detected as the supplies come up (R639). -/
def Ctl.detectInputs (k : Ctl) : Ctl :=
  { k with tim := { k.tim with pcieAt := (List.range 4).foldl (fun t r => Tab.put 0 t r k.ticks) k.tim.pcieAt } }

/-! ### Sources (R643, R645) -/

/-- How far, in cycles, an edge lies from where the previous one predicts (R643). -/
def edgeError (prev now : Nat) : Nat :=
  let m := (now - prev) % 500000000
  Nat.min m (500000000 - m)

/-- The offset of an edge (R643): the first after a TOD is second TOD; else the distance from the nearest whole second. -/
def edgeOffset (k : Ctl) : Int :=
  match k.tim.tod with
  | some t => (t : Int) * 1000000000 - k.ns
  | none =>
    let m := k.ns % 1000000000
    if m ≤ 500000000 then -(m : Int) else 1000000000 - (m : Int)

/-- Whether TIM_TOD is needed (R643): it has not been committed since KTIME was last valid. -/
def Ctl.todNeed (k : Ctl) : Bool := k.timSrc == 1 && !k.tim.todOk

/-- A rising edge of TIM_PPS_IN (R643). -/
def execPpsEdge (s : State) : Host.Outcome State Fault Refusal :=
  onBoth (fun x =>
    let k := x.1
    let far := match k.tim.edge with | some t => decide (50000 < edgeError t k.ticks) | none => false
    if k.pwr.state = .s3 ∨ !k.pwr.vin then x
    else if far then (k, x.2.bump (timCnt 3) 1)
    else
      let k1 := { k with tim := { k.tim with edge := some k.ticks } }
      let d := x.2.bump (timCnt 2) 1
      if k.timSrc ≠ 1 then (k1, d)
      else
        let o := edgeOffset k
        offsetIn ({ k1 with tim := { k1.tim with tod := none } }, d) o k.todNeed) s

/-- A PTP event message is stamped at a link, or at a management port (R645, R647); where it ends an exchange, the firmware has its offset and the tick of the
exchange's first timestamp, and an exchange that a step lies within is discarded (R644). -/
def execPtpMessage (port : Option (Nat × Nat)) (offset : Option (Int × Nat)) (s : State) : Host.Outcome State Fault Refusal :=
  onBoth (fun x =>
    let k := x.1
    let on := match port with
      | some (p, l) => decide (p < 16) && decide (l < 4) && bitAt (k.word 0x0400048) (4 * p + l) && Data.carries k x.2 (p, l)
      | none => true
    if !k.ptpOn || !on || k.pwr.state == .s3 || !k.pwr.vin then x
    else
      let d := x.2.bump (timCnt 4) 1
      match offset with
      | some (o, since) => if k.timSrc ≠ 2 ∨ (k.tim.stepAt ≠ 0 ∧ since ≤ k.tim.stepAt) then (k, d) else offsetIn (k, d) o false
      | none => (k, d)) s

/-- The selected source has given no offset for 2 s (R642). -/
def execTimeSourceLoss (s : State) : Host.Outcome State Fault Refusal :=
  onBoth (fun x =>
    if x.1.sourceOk then x
    else
      let y : Ctl × Data := ({ x.1 with tim := { x.1.tim with heard := none, edge := if x.1.timSrc = 1 then none else x.1.tim.edge, streak := 0 } }, x.2)
      match x.1.tim.state with
      | .acquiring => timeGo y y.1.tim.alone
      | .locked => timeGo y .holdover
      | _ => y) s

/-- The tick of the last offset of a source that has just been selected, where it is OK (R642): PPS with an edge in the last 2 s. PTP has no slave port before it is selected. -/
def Ctl.newHeard (k : Ctl) : Option Nat := if k.timSrc = 1 then k.tim.edge.filter (fun t => decide (k.ticks < t + 1000000000)) else none

/-- What a commit of TIM_CFG does to the service (R642, R643): a new SRC moves the state, a TOD written is taken by the next edge. -/
def timCommit (x : Ctl × Data) (oldSrc : Nat) (todWritten : Bool) : Ctl × Data :=
  let k0 := x.1.mgtFollow
  let k1 := if todWritten then { k0 with tim := { k0.tim with tod := some (k0.fld 0x0400050 0 48), todOk := true } } else k0
  if k1.timSrc = oldSrc then (k1, x.2)
  else
    timeGo ({ k1 with tim := { k1.tim with heard := k1.newHeard, streak := 0, adj := if k1.timSrc = 0 then 0 else k1.tim.adj } }, x.2)
      (if k1.newHeard.isSome then .acquiring else k1.tim.alone)

/-! ### Outputs (R645, R646) -/

/-- A PPS output's instant has come (R646): a pulse, but for an output gated while the state is FREERUN or ACQUIRING. -/
def execPpsOutPulse (n : Bool) (s : State) : Host.Outcome State Fault Refusal :=
  onBoth (fun x =>
    let k := x.1
    let a := if n then 0x04000C0 else 0x0400080
    let off := k.fld a 2 30
    let sec := (k.ns - off) / 1000000000
    let last := if n then k.tim.pulse1 else k.tim.pulse0
    if k.ns < off ∨ sec ≤ last then x
    else
      let k1 := { k with tim := if n then { k.tim with pulse1 := sec } else { k.tim with pulse0 := sec } }
      let gated := k.fld a 1 1 == 1 && (k.tim.state == .freerun || k.tim.state == .acquiring)
      if k.fld a 0 1 = 0 ∨ gated ∨ k.pwr.state = .s3 ∨ !k.pwr.vin then (k1, x.2)
      else (k1, x.2.emit (.pps (if n then 1 else 0) (sec * 1000000000 + off) (k.fld a 32 16)))) s

/-- The links on which PTP runs. -/
def ptpLinks (k : Ctl) (d : Data) : List Nat :=
  (List.range 64).filter (fun i => bitAt (k.word 0x0400048) i && Data.carries k d (i / 4, i % 4))

/-- The clockClass announced (R642). The class of a PTP parent comes with its messages, which the commands do not carry: a free value; in ACQUIRING it is announced only
below 128. -/
def Ctl.clockClass (k : Ctl) (n : Nat) : Nat :=
  let parent := Config.freeValue n % 256
  match k.tim.state with
  | .freerun => 248
  | .holdover => 7
  | .acquiring => if k.timSrc = 2 ∧ parent < 128 then parent else 248
  | .locked => if k.timSrc = 2 then parent else 6

/-- A PTP interval passes (R645): Sync (0) or Announce (1) leaves every master port, Delay_Req (2) the slave port. `slave` is the port that the best master clock
algorithm has chosen: link 4p + k, or 64 and 65 for management ports A and B. Without PTP as the source every port is a master (R643). Event messages are stamped. -/
def execSyncInterval (kind : Nat) (slave : Option Nat) (s : State) : Host.Outcome State Fault Refusal :=
  onData (fun k d =>
    if !k.ptpOn || decide (3 ≤ kind) || k.pwr.state == .s3 || !k.pwr.vin then d
    else
      let sl := if k.timSrc = 2 then slave else none
      let mine := fun (i : Nat) => if kind = 2 then sl == some i else sl != some i
      let links := (ptpLinks k d).filter mine
      let mgmt := [64, 65].filter mine
      let n := links.length + mgmt.length
      if n = 0 then d
      else
        let d1 := Data.emit { d with free := d.free + 1 } (.ptp kind (links.foldl (fun m i => m + 2 ^ i) 0) (mgmt.foldl (fun m i => m + 2 ^ (i - 64)) 0) k.ns (if kind = 1 then k.clockClass d.free else 0))
        if kind = 1 then d1 else d1.bump (timCnt 4) n) s

end Sys2Proof.Machine
end

