-- ==== Sys2Proof/Machine/Startup.lean ====
section
/-!
DEFINITION. Option bytes (R659 to R662), start-up (R657, R658), the boot program (R664), program images (R71, R609), and the resets that pins, supplies and the watchdog
take (R653, R656, R670 to R672).
-/
namespace Sys2Proof.Machine

/-! ### Option bytes -/

/-- The CRC of a copy over its first 508 bytes (R659). -/
def obCrc (l : List Byte) : Nat := crc32c (l.take 508)

/-- Whether a run of bytes is zero. -/
def obZero (l : List Byte) (o n : Nat) : Bool := mfld l o n == 0

/-- BDL_PCFG as an option-byte set gives it (R527, R661): MODE 0b11 is reserved, MAXGEN is 3 to 6 where a half is in use, and bits above 9 are zero. -/
def pcfgOk (v : Nat) : Bool :=
  bitsOf v 1 2 != 3 && bitsOf v 4 2 != 3 && decide (v < 1024) &&
  ((bitsOf v 1 2 == 0 && bitsOf v 4 2 == 0) || (decide (3 ≤ bitsOf v 7 3) && decide (bitsOf v 7 3 ≤ 6)))

/-- Whether the fields of bytes 8 to 507 of a copy hold values that the map allows, every reserved byte is zero and partition 0 clears the system area (R659, R661, R688). -/
def obFields (l : List Byte) : Bool :=
  let part := mfld l 56 6
  let b := fun (o n : Nat) => mfld l o n
  b 8 2 == 1 && decide (b 10 1 < 3) && decide (b 11 1 ≤ 64) && decide (50 ≤ b 13 2) && decide (b 13 2 ≤ 3600) && decide (b 15 1 < 4) && b 18 2 != 0 &&
  (List.range 4).all (fun r => pcfgOk (b (24 + 2 * r) 2)) &&
  (List.range 16).all (fun p => decide (bitsOf (b 32 8) (4 * p) 4 ≤ 5)) &&
  (List.range 32).all (fun i => bitsOf (b 48 8) (2 * i) 2 != 3) &&
  decide (part < 2 ^ 41) && bitsOf part 12 12 != 0 && decide (bitsOf part 0 12 + bitsOf part 12 12 ≤ 3072) && decide (bitsOf part 24 9 ≤ 256) &&
  decide (4 * (1 + b 11 1) ≤ bitsOf part 0 12) &&
  decide (600 ≤ b 130 2) && decide (b 130 2 ≤ 1200) && decide (600 ≤ b 128 2) && decide (b 128 2 ≤ b 130 2) &&
  decide (85 ≤ b 132 1) && decide (b 132 1 ≤ 110) && decide (b 132 1 + 5 ≤ b 133 1) && decide (b 133 1 ≤ 120) && decide (b 134 1 < 4) &&
  obZero l 17 1 && obZero l 22 2 && obZero l 46 2 && obZero l 62 2 && obZero l 94 2 && obZero l 135 25 && obZero l 160 348

/-- Whether a copy is good (R659). -/
def obGood (l : List Byte) : Bool := l.length == 512 && mfld l 508 4 == obCrc l && mfld l 0 4 == 0x4B524F42 && obFields l

/-- The safe defaults of the map as a set of bytes (R661, R688): 8 to 507 as laid out, with the addresses that derive from the serial as zero. -/
def obSafe : List Byte :=
  bytesLE 8 0 ++ bytesLE 2 1 ++ bytesLE 1 0 ++ bytesLE 1 0 ++ bytesLE 1 0 ++ bytesLE 2 50 ++ bytesLE 1 1 ++ bytesLE 2 0 ++ bytesLE 2 1000 ++ bytesLE 4 0 ++
  bytesLE 8 (2 * 2 + 6 * 128) ++ bytesLE 8 0 ++ bytesLE 6 0x020000000000 ++ bytesLE 2 0 ++ bytesLE 8 0 ++
  bytesLE 6 (4 + 4 * 2 ^ 12 + 16 * 2 ^ 24 + 2 ^ 33) ++ bytesLE 66 0 ++
  bytesLE 2 600 ++ bytesLE 2 600 ++ bytesLE 1 95 ++ bytesLE 1 105 ++ bytesLE 1 3 ++ bytesLE 377 0

/-- The copy that the loader takes (R660): whether B is used, and SAFE. -/
def obSelect (a b : List Byte) : Bool × Bool :=
  match obGood a, obGood b with
  | true, true => (decide (2 ^ 31 ≤ (mfld a 4 4 + 2 ^ 32 - mfld b 4 4) % 2 ^ 32), false)
  | true, false => (false, false)
  | false, true => (true, false)
  | false, false => (false, true)

/-- The option bytes in force. -/
def Rst.option (r : Rst) : List Byte := if r.safe then obSafe else if r.useB then r.optB else r.optA

/-- BDL_PCFG of a port with the halves that R510 turns OFF: a root half with CXL, and half 1 without BIFURCATE; OPT_CONFLICT is bit 10. -/
def pcfgWord (v : Nat) : Nat :=
  let bad0 := bitsOf v 1 2 == 1 && bitsOf v 3 1 == 1
  let bad1 := (bitsOf v 4 2 == 1 && bitsOf v 6 1 == 1) || (v % 2 == 0 && bitsOf v 4 2 != 0)
  v % 2 + (if bad0 then 0 else bitsOf v 1 3 * 2) + (if bad1 then 0 else bitsOf v 4 3 * 16) + bitsOf v 7 3 * 128 + (if bad0 || bad1 then 1024 else 0)

/-- Sets several fields of words in force: key, lowest bit, width, value. -/
def Ctl.setFlds (k : Ctl) (l : List (Nat × Nat × Nat × Nat)) : Ctl := l.foldl (fun c x => c.setFld x.1 x.2.1 x.2.2.1 x.2.2.2) k

/-- APPLY writes every OB field of every register (R660, R661). -/
def obApply (k : Ctl) (l : List Byte) : Ctl :=
  let b := fun (o n : Nat) => mfld l o n
  let part := b 56 6
  let k1 := k.setFlds ([
    (0x1000040, 16, 2, b 10 1), (0x1800040, 0, 7, b 11 1), (0x1900040, 0, 8, b 12 1), (0x0800040, 16, 1, bitsOf (b 15 1) 0 1),
    (0x0100100, 0, 1, bitsOf (b 15 1) 1 1), (0x0100100, 16, 16, b 18 2), (0x0100100, 32, 16, b 20 2),
    (k.prtDef 0 0, 0, 1, 1), (k.prtDef 0 2, 0, 24, bitsOf part 0 24), (k.prtDef 0 2, 40, 9, bitsOf part 24 9), (k.prtDef 0 3, 0, 8, bitsOf part 33 8),
    (0x0200040, 0, 11, b 128 2), (0x0200080, 0, 11, b 130 2), (0x0200080, 16, 8, b 132 1), (0x0200080, 24, 8, b 133 1), (0x0200080, 32, 2, b 134 1)] ++
    (List.range 4).map (fun r => (0x1F10040 + 0x1000 * r, 0, 11, pcfgWord (b (24 + 2 * r) 2))) ++
    (List.range 16).map (fun p => (ttpCfg p, 0, 4, bitsOf (b 32 8) (4 * p) 4)) ++
    (List.range 64).map (fun i => (0x1A10080 + 0x1000 * (i / 4) + 8 * (i % 4), 0, 48, (b 40 6 + i) % 2 ^ 48)) ++
    (List.range 32).map (fun i => (0x1700100 + 8 * i, 0, 2, bitsOf (b 48 8) (2 * i) 2)))
  { k1 with rst := { k1.rst with
    perstWarm := b 16 1
    nandMts := b 13 2
    seq := b 4 4 } }

/-- The option-byte loader (R660). -/
def obLoad (k : Ctl) : Ctl :=
  let a := k.rst.optA
  let b := k.rst.optB
  let s := obSelect a b
  let k1 := { k with rst := { k.rst with
    aOk := obGood a
    bOk := obGood b
    useB := s.1
    safe := s.2
    otherBad := obGood a != obGood b } }
  obApply k1 k1.rst.option

/-! ### Measurements, firmware and programs -/

/-- Extends a measurement register by an object of a digest (R607). -/
def Sec.extend (s : Sec) (m digest : Nat) : Sec :=
  { s with measures := Tab.set s.measures m (Config.sha384 (bytesLE 48 (Tab.getD s.measures m 0) ++ bytesLE 48 digest)) }

/-- Whether a firmware slot may run (R607): its signature verifies, and its SVN is at least SVN_MIN. -/
def Sec.fwOk (s : Sec) (i : Nat) : Bool :=
  match Tab.get? s.fw i with
  | some f => f.good && decide (s.svnMin ≤ f.svn)
  | none => false

/-- The firmware slot that the boot ROM takes (R607): the higher SVN, then the higher version; without it the other. -/
def Sec.fwPick (s : Sec) : Option Nat :=
  let f := fun (i : Nat) => match Tab.get? s.fw i with | some x => (x.svn, x.version) | none => (0, 0)
  match s.fwOk 0, s.fwOk 1 with
  | true, true => if (f 0).1 < (f 1).1 ∨ ((f 0).1 = (f 1).1 ∧ (f 0).2 < (f 1).2) then some 1 else some 0
  | true, false => some 0
  | false, true => some 1
  | false, false => none

/-- Whether a program word issues an operation without a service bound (R71, R575, R577). -/
def unboundedIssue (w : BitVec 32) : Bool :=
  let eng := fld w 11 4
  let op := fld w 7 4
  match eng with
  | 1 => op == 0 || op == 1 || op == 2 || op == 4
  | 5 => op == 5
  | 6 => decide (op ≤ 9) && !(op == 0 || op == 2 || op == 8)
  | 7 => decide (op ≤ 5)
  | 8 => op == 0
  | 10 => op == 2 || op == 9 || op == 10
  | _ => false

/-- Whether a program has such an issue: the second word of a long form is no instruction (R560, R563). -/
def unboundedIn : List (BitVec 32) → Bool
  | [] => false
  | w :: rest =>
    let major := fld w 26 6
    if major = 0x20 ∧ unboundedIssue w then true
    else match rest with
      | [] => false
      | x :: r => if major = 0x09 ∨ major = 0x10 ∨ major = 0x16 ∨ major = 0x1A ∨ major = 0x1B then unboundedIn r else unboundedIn (x :: r)

/-- A program is loaded into every tile's store (R609). -/
def installProg (k : Ctl) (p n : Nat) (words : List (BitVec 32)) (digest : Nat) : Ctl :=
  { k with
    progs := Tab.set k.progs (65536 * p + n) ⟨words, unboundedIn words⟩
    sec := k.sec.extend (16 + p) digest }

/-- The boot record (R625, R627): the gap in SEQ in its first 6 body bytes, then firmware slot, OWNER, SVN, TIME_LOST in bit 7 of the slot's byte, and the first 16
bytes of M1. -/
def bootRec (k : Ctl) (d : Data) : Data :=
  let firstFree := match Tab.get? d.bbx.recs (4096 + (d.bbx.head + 61439) % 61440) with
    | some l => (mfld l 0 6 + 1) % 2 ^ 48
    | none => 0
  let next := match d.bbx.queue.head? with | some x => x.seq | none => d.bbx.nextSeq
  let lost := if d.stsBit timSts 6 then 128 else 0
  record k d 8 0 (bytesLE 6 (next + 2 ^ 48 - firstFree) ++ bytesLE 1 (k.sec.fwSlot + lost) ++ bytesLE 1 k.sec.owner ++ bytesLE 4 k.sec.svnMin ++
    bytesLE 16 (Tab.getD k.sec.measures 1 0) ++ bytesLE 10 0) false false none

/-- The boot program is launched on tile 0 (R664), through the real-time ring where RT_SLOTS is not 0b00: NO_BASKET = 1, every other field zero. The watchdog awaits its first
feed from then (R656). -/
def bootLaunch (k : Ctl) (d : Data) : Ctl × Data × Bool :=
  if !k.up 0 0 then (k, d, false)
  else
    let r := launch k d (k.rtSlots != 0) 0 0 (BitVec.ofNat 512 (2 ^ 36))
    let cell := Tab.getD d.mbx.flags ((k.frange 0).1 + k.fld 0x0100100 32 16) 0#64
    ({ k with rst := { k.rst with
       wdtFed := some k.ticks
       wdtVal := cell } }, r.1, r.2.isNone)

/-! ### Start-up (R657, R658) -/

/-- The ERROR record of a step that fails (R658), with the step's locator: its SOURCE and its ACTION are not stated, and are free (log entry 194). -/
def stepRec (k : Ctl) (d : Data) (loc : Nat) : Data :=
  let v := Config.freeValue d.free
  reportUe k { d with free := d.free + 1 } loc ⟨v % 256, v / 256 % 256, .uncorrectable, 0xF, none, none, none, 0⟩

/-- A step fails (R658): FAIL, and an ERROR record. -/
def stepFail (x : Ctl × Data) (loc : Nat) : Ctl × Data :=
  ({ x.1 with rst := { x.1.rst with fail := true } }, stepRec x.1 x.2 loc)

/-- The step is complete: the next begins. -/
def stepNext (x : Ctl × Data) : Ctl × Data := ({ x.1 with rst := { x.1.rst with stage := x.1.rst.stage + 1 } }, x.2)

/-- The boot ROM enters recovery (R607): start-up stops at step 2. -/
def recover (x : Ctl × Data) : Ctl × Data :=
  let k := { x.1 with
    rst := { x.1.rst with stage := 2 }
    sec := { x.1.sec with recovery := true } }
  (k, stepRec k x.2 (locChip 2))

/-- Step 2: the Gondola's firmware is verified and measured (R607); `bad` marks the slots whose verification fails. -/
def stepFirmware (x : Ctl × Data) (bad : Nat) : Ctl × Data :=
  let k := x.1
  let s := { k.sec with fw := Tab.mapVals k.sec.fw (fun i f => if bitsOf bad i 1 = 1 then { f with good := false } else f) }
  match s.fwPick with
  | none => recover ({ k with sec := s }, x.2)
  | some i =>
    let dig := match Tab.get? s.fw i with | some f => f.digest | none => 0
    let k1 := { k with sec := { ((s.extend 0 0).extend 1 dig) with fwSlot := i, recovery := false } }
    stepNext (k1, bootRec k1 x.2)

/-- M2 measures the option bytes, M3 the enrolled public keys and SEC_CFG (R607). -/
def measureConfig (k : Ctl) : Ctl :=
  let keys := k.sec.installers.flatMap (fun e => bytesLE 1 e.1 ++ bytesLE 96 e.2) ++ k.sec.operators.flatMap (fun e => bytesLE 1 e.1 ++ bytesLE 96 e.2)
  { k with sec := (k.sec.extend 2 (Config.sha384 k.rst.option)).extend 3 (Config.sha384 (keys ++ bytesLE 8 (k.word 0x0800040).toNat)) }

/-- Step 5: the stacks train; `bad` marks those that fail. A plain stack stops start-up; a Sail stack's controller is fenced. -/
def stepStacks (x : Ctl × Data) (bad : Nat) : Ctl × Data :=
  match (List.range 12).find? (fun i => i % 3 != 2 && bitsOf bad i 1 == 1) with
  | some i => stepFail x (locBlock (i / 3) (8 + i % 3))
  | none =>
    stepNext ((List.range 4).foldl (fun (y : Ctl × Data) r =>
      if bitsOf bad (3 * r + 2) 1 = 1 then
        ({ y.1 with down := y.1.down ++ [64 * r + 10] }, reportUe y.1 y.2 (locBlock r 10) ⟨0x04, 5, .uncorrectable, 0xF, none, none, none, 0⟩)
      else y) x)

/-- The rate that every die of a channel trains to in a mode (1 NV-DDR3, 2 NV-LPDDR4, 3 Toggle DDR), at most the mode's own and NAND_MTS; 0 where a die does not offer
it (R370, R371), and at most what the die loads on DQ allow (R726). -/
def nandRate (mts mode : Nat) (l : List NandDie) : Nat :=
  l.foldl (fun n y => Nat.min n (match mode with | 1 => y.ddr3 | 2 => y.lpddr4 | _ => y.toggle))
    (Nat.min (Nat.min mts (if l.length ≤ 8 then 3600 else if l.length ≤ 16 then 2400 else 1600)) (match mode with | 1 => 1600 | 2 => 3600 | _ => 2400))

/-- The dies of a channel are unfit (R371): different geometry, a page that is no multiple of 16 KiB, less than 256 spare bytes per 4 KiB, more than 2^26 slots on a die, or no
single-bit mode beside a native one of more bits. -/
def nandUnfit (l : List NandDie) : Bool :=
  l.any (fun y => l.any (fun z => (y.bpc, y.page, y.p, y.e) != (z.bpc, z.page, z.p, z.e))) ||
  l.any (fun y => y.page % 16384 != 0 || decide (y.spare < 256 * (y.page / 4096)) || decide (67108864 < y.e * y.p * (y.page / 16384)) ||
    (decide (1 < y.bpc) && !y.slc))

/-- What a Ballast channel finds behind its 8 chip enables with at most 4 LUNs each (R370 to R372): the fastest mode and rate that dies and option bytes allow, the geometry and
the longest times; it is lost where the dies are unfit. -/
def trainChan (k : Ctl) (d : Data) (c : Nat) (dies : List NandDie) : Data :=
  let x := d.chan8 c
  let l := dies.filter (fun y => decide (y.ce < 8) && decide (y.lun < 4))
  let most := fun (f : NandDie → Nat) => l.foldl (fun n y => Nat.max n (f y)) 0
  let best := if l.isEmpty then (0, 0) else [1, 2, 3].foldl (fun (b : Nat × Nat) m =>
    let r := nandRate k.rst.nandMts m l
    if b.2 < r then (m, r) else b) (0, 0)
  d.setChan8 c { x with
    found := ⟨(List.range 32).filter (fun i => l.any (fun y => 4 * y.ce + y.lun == i)), most (fun y => y.bpc), most (fun y => y.page / 16384), most (fun y => y.p), most (fun y => y.e),
      most (fun y => y.tr), most (fun y => y.tprog), most (fun y => y.ters), best.1, best.2⟩
    lost := nandUnfit l }

/-- Steps 6 to 9: a region's SRAM is written, or the region stays fenced; its Ballast channels train, and where the tier has been formatted it rebuilds (R387). -/
def stepRegion (x : Ctl × Data) (r : Nat) (bad : Bool) (nand : List (List NandDie)) : Ctl × Data :=
  if bad then stepNext (x.1, reportUe x.1 x.2 (locRegion r) ⟨0x01, 6, .uncorrectable, 0xF, none, none, none, 0⟩)
  else
    let k := { x.1 with down := x.1.down.filter (fun n => n != 64 * r + 63) }
    let d := (List.range 2).foldl (fun e i => match nand[i]? with | some f => trainChan k e (2 * r + i) f | none => e) x.2
    stepNext (k, { d with bls := { d.bls with rebuilding := d.header.isSome } })

/-- The blocks of every region that a step releases. -/
def release (k : Ctl) (bs : List Nat) : Ctl := { k with down := k.down.filter (fun n => !bs.contains (n % 64)) }

/-- Step 11: the halves train, and the root halves' BDL_PERSTO_N rises where it may (R663). -/
def stepBridle (x : Ctl × Data) : Ctl × Data :=
  let y := stepNext (release x.1 [16], x.2)
  (perstoRise y.1, y.2)

/-- Step 12: the ports of the MODE in force enter LASER_WAIT (R405). -/
def stepTether (x : Ctl × Data) : Ctl × Data :=
  let k := release x.1 [12, 13, 14, 15]
  stepNext (k, (List.range 16).foldl (fun e p => if k.up (p / 4) (12 + p % 4) then portRestart k e p else e) x.2)

/-- Step 13: the boot program is loaded and launched (R664); READY rises and STAGE reads DONE. -/
def stepProgram (x : Ctl × Data) (bad : Bool) : Ctl × Data :=
  let words := match Tab.get? x.1.sec.fw x.1.sec.fwSlot with | some f => f.boot | none => []
  let k := installProg x.1 0 0 words (Config.sha384 (words.flatMap (fun w => bytesLE 4 w.toNat)))
  let y := bootLaunch k x.2
  if bad || !y.2.2 then stepFail x (locBlock 0 0)
  else ({ y.1 with rst := { y.1.rst with stage := 15, ready := true } }, y.2.1)

/-- Start-up's step in progress completes, or fails (R657, R658). `bad` marks what fails: a firmware slot, a stack, or with bit 0 the step itself; `nand` is what the two
Ballast channels of a region find. -/
def execStartupStep (bad : Nat) (nand : List (List NandDie)) (s : State) : Host.Outcome State Fault Refusal :=
  onBoth (fun x =>
    let off := bad % 2 == 1
    if x.1.rst.fail || x.1.sec.recovery || x.1.pwr.state == .s3 || !x.1.pwr.vaux then x
    else
      match x.1.rst.stage with
      | 1 => if off then recover x else stepNext x
      | 2 => stepFirmware x bad
      | 3 => if off then stepFail x (locChip 3) else let k := measureConfig (obLoad x.1); stepNext (k, x.2)
      | 4 => if !x.1.pwr.vin then x else if off then stepFail x (locChip 4) else stepNext x
      | 5 => stepStacks x bad
      | 6 => stepRegion x 0 off nand
      | 7 => stepRegion x 1 off nand
      | 8 => stepRegion x 2 off nand
      | 9 => stepRegion x 3 off nand
      | 10 => stepNext (release x.1 [0, 1, 2, 3], x.2)
      | 11 => stepBridle x
      | 12 => stepTether x
      | 13 => stepProgram x off
      | _ => x) s

/-! ### Pins, supplies and the watchdog -/

/-- VAUX18 rises through its threshold: a power-on reset (R653, R670). -/
def execPowerOn (s : State) : Host.Outcome State Fault Refusal :=
  onBoth (fun x =>
    if x.1.pwr.vaux then x
    else chipReset ({ x.1.detectInputs with pwr := { x.1.pwr with vaux := true, tripped := none } }, x.2) 0x01 true false) s

/-- RESET_N is held low for 1 µs: a cold reset (R653), which also ends S3 (R680). -/
def execResetN (s : State) : Host.Outcome State Fault Refusal :=
  onBoth (fun x => if x.1.pwr.vaux then chipReset x 0x02 false false else x) s

/-- PERST_N low on an endpoint half (R653): that half only, or with its PERST_WARM bit a warm reset. -/
def execPerstN (half : Nat) (s : State) : Host.Outcome State Fault Refusal :=
  onBoth (fun x =>
    if 8 ≤ half ∨ x.1.halfMode half ≠ 2 ∨ x.1.pwr.state = .s3 ∨ !x.1.pwr.vin ∨ !x.1.pwr.vaux then x
    else if bitsOf x.1.rst.perstWarm half 1 = 1 then chipReset x 0x03 false true
    else
      let y := halfDown x half
      let d := { (y.2.setHalf half halfReset) with mbx := { y.2.mbx with
        msixPend := y.2.mbx.msixPend.filter (fun v => v / 64 != half)
        msixOn := y.2.mbx.msixOn.filter (fun v => v / 64 != half) } }
      (y.1.resetBy 0x03, resetRec y.1 d (locCell (half / 2) 16 (half % 2)) 0x03 0)) s

/-- VIN18 falls below 1.68 V with VAUX18 present (R672): a POWER record; every region, every stack and the Gondola lose their contents. -/
def execVin18Loss (s : State) : Host.Outcome State Fault Refusal :=
  onBoth (fun x =>
    if !x.1.pwr.vin then x
    else
      let k := { x.1 with pwr := { x.1.pwr with vin := false } }
      let d := plainRec k x.2 5 (locChip 5)
      if x.1.pwr.state = .s3 ∨ !x.1.pwr.vaux then (k, d)
      else
        ({ k with
           progs := []
           sec := k.sec.afterReset false
           rst := { k.rst with stage := 0, ready := false, persto := [], wdtFed := none, blk := none }
           down := heldDown
           cells := [] }.keeperVoid, dataReset d false false)) s

/-- VIN18 is good again: start-up runs with cold reach (R672, R680). -/
def execVin18Good (s : State) : Host.Outcome State Fault Refusal :=
  onBoth (fun x =>
    if x.1.pwr.vin || !x.1.pwr.vaux then x
    else chipReset ({ x.1.detectInputs with pwr := { x.1.pwr with vin := true } }, x.2) 0x0B false false) s

/-- VAUX18 falls below its minimum (R627): the island finishes the record in progress and stops; records still queued are lost. -/
def execVaux18Loss (s : State) : Host.Outcome State Fault Refusal :=
  onBoth (fun x =>
    if !x.1.pwr.vaux then x
    else
      let d := bbxWrite x.1 x.2
      ({ x.1 with pwr := { x.1.pwr with vaux := false } }, { d with bbx := { d.bbx with queue := [] } })) s

/-- PERIOD of the watchdog in ticks (R668). -/
def Ctl.wdtPeriod (k : Ctl) : Nat := k.fld 0x0100100 16 16 * 500000

/-- The watchdog's period passes (R656): a cell that has changed counts as a feed; else WDT_FIRED and a warm reset. In S1 it is suspended. -/
def execWatchdogExpiry (s : State) : Host.Outcome State Fault Refusal :=
  onBoth (fun x =>
    let k := x.1
    match k.rst.wdtFed with
    | none => x
    | some t =>
      if k.fld 0x0100100 0 1 = 0 ∨ k.pwr.state ≠ .run ∨ k.ticks < t + k.wdtPeriod then x
      else
        let cell := Tab.getD x.2.mbx.flags ((k.frange 0).1 + k.fld 0x0100100 32 16) 0#64
        if cell ≠ k.rst.wdtVal then
          ({ k with rst := { k.rst with
             wdtFed := some k.ticks
             wdtVal := cell } }, x.2)
        else chipReset (k.setFld 0x0100080 5 1 1, x.2) 0x05 false true) s

end Sys2Proof.Machine
end

