-- ==== Sys2Proof/Machine/Power.lean ====
section
/-!
DEFINITION. Power states, the power cap and thermal control (R673 to R692).
-/
namespace Sys2Proof.Machine

/-- Whether an S1 request is refused (R674). -/
def s1Refused (k : Ctl) (d : Data) : Bool :=
  k.fld 0x0200080 32 1 == 0 || d.ttx.qps.any (fun e => e.2.state == .connecting || e.2.state == .ready) || d.fyl.rings.any (fun e => e.2.prod != e.2.cons) ||
  d.fyl.threads.any (fun e => e.2.part != 0)

/-- Whether an S3 request is refused (R674). -/
def s3Refused (k : Ctl) (d : Data) : Bool := k.fld 0x0200080 33 1 == 0 || d.bsk.tab.any (fun e => e.2.state != .free)

/-- REQ_RESULT is posted, and BUSY falls. -/
def reqDone (k : Ctl) (st : Status) : Ctl :=
  { k with pwr := { k.pwr with
    req := none
    next := 0
    result := st.code } }

/-- A POWER record (R625). -/
def powerRec (k : Ctl) (d : Data) : Data := plainRec k d 5 (locChip 5)

/-- S3 entry (R679): a POWER record; keys and sessions are destroyed, outputs take their power-on levels, and all but the island loses power. -/
def enterS3 (x : Ctl × Data) (st : Status) : Ctl × Data :=
  let y := dropSessions (reqDone x.1 st, powerRec x.1 x.2)
  let k1 := y.1
  ({ k1 with
     progs := []
     sec := { k1.sec with
       prefixKeys := []
       qpKeys := [] }
     pwr := { k1.pwr with state := .s3, therm := 0, capLevel := 0, cap7 := none, hotSince := none }
     rst := { k1.rst with ready := false, persto := [], wdtFed := none, blk := none }
     down := heldDown
     cells := [] }.keeperVoid, dataReset y.2 false false)

/-- S1 exit (R678): regions and stacks are served again, the ports bring up their links, the boot program is launched again, and the watchdog awaits its first feed. -/
def exitS1 (x : Ctl × Data) : Ctl × Data :=
  let k0 := x.1.pwr.lim.foldl (fun c e => c.setWord e.1 ((c.word e.1 &&& ~~~ e.2.mask) ||| (e.2.val &&& e.2.mask))) (reqDone x.1 .ok)
  let k := { k0 with pwr := { k0.pwr with state := .run, lim := [] } }
  let d := (List.range 16).foldl (fun e p => if k.up (p / 4) (12 + p % 4) then portRestart k e p else e) x.2
  let y := bootLaunch k d
  (y.1, powerRec y.1 y.2.1)

/-- S3 is judged (R674). -/
def judgeS3 (x : Ctl × Data) : Ctl × Data := if s3Refused x.1 x.2 then (reqDone x.1 .cfgInvalid, x.2) else enterS3 x .ok

/-- A request of PWR_CTL: 1 S1, 2 S3, 3 EXIT (R674, R681). One made during S1 entry waits for it; one from a state that R674 does not name is refused. -/
def pwrRequest (x : Ctl × Data) (r : Nat) : Ctl × Data :=
  let k := x.1
  if r = 0 ∨ 3 < r then x
  else if k.pwr.req.isSome then
    (if r = 1 ∨ k.pwr.next ≠ 0 then x else ({ k with pwr := { k.pwr with next := r } }, x.2))
  else match k.pwr.state, r with
    | .run, 1 => if s1Refused k x.2 then (reqDone k .cfgInvalid, x.2) else ({ k with pwr := { k.pwr with req := some k.ticks } }, x.2)
    | .s1, 3 => exitS1 x
    | .run, 2 => judgeS3 x
    | .s1, 2 => judgeS3 x
    | _, _ => (reqDone k .cfgInvalid, x.2)

/-- Whether a Sail unit still has a command (R675). -/
def sailBusy (d : Data) : Bool := d.sal.units.any (fun u => u.2.cur.isSome || !u.2.queue.isEmpty)

/-- Threads of partition 0 end at S1 entry; the Sail commands that they have queued stay and finish (R286, R675). -/
def s1End (k : Ctl) (d : Data) : Data :=
  let e := endPart k d 0
  { e with sal := { e.sal with units := d.sal.units } }

/-- Every dirty record is written back, and the SRAM that has no retention supply is gated: the slices and the look-aside buffers are empty (R97, R675, R676). -/
def gateSram (d : Data) : Data := { d with slices := [], kvw := { d.kvw with lab := [] } }

/-- S1 entry (R675), once S1_HOLD is 0: threads of partition 0 end, and when the Sail units have finished their commands the Ballast journals are flushed, the Tether
links go OFF, result areas and recorded partitions are lost (R286), the Basket cache is clean, and the regions are gated. A request that waited is then judged (R681). -/
def execS1Entry (s : State) : Host.Outcome State Fault Refusal :=
  onBoth (fun x =>
    let k := x.1
    match k.pwr.req with
    | none => x
    | some _ =>
      if s1Hold x.2 then x
      else
        let d := s1End k x.2
        let k1 := { k with rst := { k.rst with wdtFed := none } }
        if sailBusy d then (k1, d)
        else
          let d1 := gateSram ((List.range 8).foldl flushJournal d)
          let d2 := (List.range 16).foldl (fun e p => eachLink e (fun f l => linkGo k f p l .off true)) d1
          let d3 := (List.range 4).foldl (fun e i => stackReset k e i .aborted false) d2
          let next := k.pwr.next
          let k2 := reqDone { mirrorAll k1 d3 with pwr := { k1.pwr with state := .s1 } } .ok
          let y : Ctl × Data := (k2, (powerRec k2 d3).bump (cntAddr 0x02 0 2) 1)
          if next = 0 then y else pwrRequest y next) s

/-- An S1 request that S1_HOLD has held for 100 ms completes with TIMEOUT (R674); a request that waited for it is then judged. -/
def execS1HoldTimeout (s : State) : Host.Outcome State Fault Refusal :=
  onBoth (fun x =>
    match x.1.pwr.req with
    | none => x
    | some t =>
      if !s1Hold x.2 ∨ x.1.ticks < t + 50000000 then x
      else
        let next := x.1.pwr.next
        let y : Ctl × Data := (reqDone x.1 .timeout, x.2)
        if next = 0 then y else pwrRequest y next) s

/-- DB_K bit 0 of channel 0 is rung in S3 (R680): the island takes it as a wake request, ignored within 10 s of a trip (R686) and held while VIN18 is absent. -/
def execS3Wake (s : State) : Host.Outcome State Fault Refusal :=
  onBoth (fun x =>
    let k := x.1
    let soon := match k.pwr.tripped with | some t => decide (k.ticks < t + 5000000000) | none => false
    let ch := x.2.chan 0
    let d := x.2.setChan 0 { ch with dbK := ch.dbK &&& ~~~1#32 }
    if k.pwr.state ≠ .s3 ∨ !k.pwr.vaux then x
    else if soon then (k, d)
    else if !k.pwr.vin then (k, x.2.setChan 0 { ch with dbK := ch.dbK ||| 1#32 })
    else chipReset (k, d) 0x0C false false) s

/-! ### The power cap (R682 to R684) -/

/-- CAP_W in force. -/
def Ctl.capW (k : Ctl) : Nat := k.fld 0x0200040 0 11

/-- Every 100 µs the controller compares the power with CAP_W (R682); `average` is that of the last 1 ms. -/
def execCapEvaluation (watts average : Nat) (s : State) : Host.Outcome State Fault Refusal :=
  onBoth (fun x =>
    let k := x.1
    let p := k.pwr
    if p.state = .s3 ∨ !p.vin ∨ k.rst.stage < 4 then x
    else
      let level := if k.capW < watts then Nat.min 7 (p.capLevel + 1) else if watts * 100 < k.capW * 95 then p.capLevel - 1 else p.capLevel
      let uj := p.microJ + 100 * watts
      let d1 := if 0 < p.capLevel then x.2.bump (cntAddr 0x02 0 0) 100 else x.2
      ({ k with pwr := { p with
         capLevel := level
         cap7 := if level = 7 ∧ k.capW < watts then (match p.cap7 with | some t => some t | none => some k.ticks) else none
         watts := average % 65536
         microJ := uj % 1000000 } }, d1.bump (cntAddr 0x02 0 3) (uj / 1000000))) s

/-- CAP_LEVEL has been 7 and the power above the cap for 10 ms (R684). -/
def execCapMiss (s : State) : Host.Outcome State Fault Refusal :=
  onData (fun k d =>
    match k.pwr.cap7 with
    | some t => if k.ticks < t + 5000000 ∨ d.stsBit 0x0200100 3 then d else powerRec k (d.setSts 0x0200100 3)
    | none => d) s

/-! ### Thermal control (R685, R686) -/

/-- T_THROT. -/
def Ctl.tThrot (k : Ctl) : Nat := k.fld 0x0200080 16 8
/-- T_TRIP. -/
def Ctl.tTrip (k : Ctl) : Nat := k.fld 0x0200080 24 8

/-- The hottest of a list, with its number; the lowest number on a tie. -/
def hottest : Nat → List Nat → Nat × Nat
  | _, [] => (0, 0)
  | i, t :: r => let m := hottest (i + 1) r
    if m.1 ≤ t then (t, i) else m

/-- THERM_LEVEL after an evaluation (R685). -/
def thermNext (level throt : Nat) (die hbm : List Nat) : Nat :=
  if die.any (fun t => decide (throt ≤ t)) || hbm.any (fun t => decide (95 ≤ t)) then Nat.min 8 (level + 1)
  else if die.all (fun t => decide (t + 3 ≤ throt)) && hbm.all (fun t => decide (t ≤ 92)) then level - 1
  else level

/-- Every 100 µs THERM_LEVEL steps by the region and stack sensors, in °C (R685); a Sail stack above 85 °C refreshes twice as often (R278). -/
def execThermalEvaluation (die hbm : List (BitVec 8)) (s : State) : Host.Outcome State Fault Refusal :=
  onBoth (fun x =>
    let k := x.1
    let p := k.pwr
    let ds := (die.take 4).map BitVec.toNat
    let hs := (hbm.take 12).map BitVec.toNat
    if p.state = .s3 ∨ !p.vin ∨ k.rst.stage < 4 then x
    else
      let level := thermNext p.therm k.tThrot ds hs
      let top := hottest 0 hs
      let above := ds.any (fun t => decide (k.tTrip ≤ t)) || hs.any (fun t => decide (105 ≤ t))
      let k1 := { k with pwr := { p with
        therm := level
        die := ds
        hbmMax := top.1
        hbmHot := top.2
        hotSince := if above then (match p.hotSince with | some t => some t | none => some k.ticks) else none } }
      let d1 := { x.2 with sal := { x.2.sal with hot := (List.range 4).filter (fun i => decide (85 < hs.getD (3 * i + 2) 0)) } }
      let d2 := if 0 < p.therm then d1.bump (cntAddr 0x02 0 1) 100 else d1
      (k1, if level = p.therm then d2 else plainRec k1 d2 6 (locChip 5))) s

/-- A sensor has stayed at its trip point for 1 ms (R686): the chip-level action, a THERMAL record with the sensor's locator, and S3. A request in progress completes with
ABORTED (R681). -/
def execThermalTrip (loc : BitVec 32) (s : State) : Host.Outcome State Fault Refusal :=
  onBoth (fun x =>
    match x.1.pwr.hotSince with
    | none => x
    | some t =>
      if x.1.ticks < t + 500000 ∨ x.1.pwr.state = .s3 then x
      else
        let y := fenceChip x
        let d := plainRec y.1 y.2 6 loc.toNat
        let z := enterS3 (y.1, d) (if x.1.pwr.req.isSome then .aborted else (Status.ofCode? x.1.pwr.result).getD .ok)
        ({ z.1 with pwr := { z.1.pwr with tripped := some x.1.ticks } }, z.2)) s

end Sys2Proof.Machine
end

