-- ==== Sys2Proof/Machine/RegChip.lean ====
section
/-!
DEFINITION. What the chip-level registers show (windows 0x00 to 0x0A), what a whole register word reads as, and the rights of the two paths (R589, R597, R701).
-/
namespace Sys2Proof.Machine

/-! ### Read-only fields of the chip-level blocks -/

/-- Whether any W1C field of a *_STS register of window `n` reads 1 (R706). MAT_LOST is no *_STS register; DEGRADED and FLAP of TTP_LSTS are kept with the links. -/
def sumBit (d : Data) (n : Nat) : Bool :=
  d.sts.any (fun e => winOf (e.1 % 2 ^ 26) == n && e.1 != 0x17000C0 && e.2 != 0#64) || (n == 0x1A && d.links.any (fun e => e.2.degraded || e.2.flap))

/-- GLB_TRAP (R705). -/
def trapView (k : Ctl) : Word :=
  packWord ((match k.shell.uTrap with | some (a, w, p) => [(0, 26, a), (26, 1, b2n w), (27, 4, p), (31, 1, 1)] | none => []) ++
    (match k.shell.dTrap with | some (a, p) => [(32, 26, a), (59, 4, p), (63, 1, 1)] | none => []))

/-- An integer as a 32-bit signed field, saturating. -/
def satInt32 (o : Int) : Nat := (BitVec.ofInt 32 (max (-2147483648) (min 2147483647 o))).toNat

/-- CLK_STS (R648): PPS_OK while an edge was seen in the last 2 s. -/
def clkView (k : Ctl) : Word :=
  let pps := match k.tim.edge with | some t => decide (k.ticks < t + 1000000000) | none => false
  packWord [(0, 8, k.tim.inputs % 256), (8, 1, b2n pps), (9, 1, bitsOf k.tim.inputs 9 1), (10, 1, b2n k.tim.on10m)]

/-- The cells out of service of a block (R40). -/
def Ctl.cellsOf (k : Ctl) (n : Nat) : Nat := (k.cells.filter (fun c => c / 1024 == n)).length

/-- RAS_STS (R634). -/
def rasView (k : Ctl) (d : Data) : Word :=
  let deg := (List.range 16).foldl (fun n t => if k.cellsOf (64 * (t / 4) + t % 4) = 0 then n else n + 2 ^ t) 0
  let fen := (List.range 4).foldl (fun n r => if k.fenced r then n + 2 ^ r else n) 0
  packWord [(0, 16, deg), (16, 4, fen), (20, 1, b2n k.chipFenced), (21, 1, b2n (!d.ras.closed.isEmpty))]

/-- PWR_STS and PWR_TEMP (R691). -/
def pwrView (k : Ctl) (temp : Bool) : Word :=
  let p := k.pwr
  if temp then
    packWord [(0, 8, p.die.getD 0 0), (8, 8, p.die.getD 1 0), (16, 8, p.die.getD 2 0), (24, 8, p.die.getD 3 0), (32, 8, p.hbmMax), (40, 4, p.hbmHot)]
  else
    packWord [(0, 2, if p.state = .run then (if k.capW < 1200 then 1 else 0) else 2), (2, 1, b2n p.req.isSome), (4, 1, b2n (p.therm != 0)), (5, 3, p.capLevel),
      (8, 8, p.result), (16, 4, p.therm), (32, 16, p.watts)]

/-- PRT_STS of a partition (R611): no teardown and no wipe is in progress between commands. -/
def prtView (k : Ctl) (p : Nat) : Word :=
  packWord [(0, 1, b2n (k.prtEnabled p)), (3, 1, b2n (Tab.has k.sec.blsKeys p)), (4, 1, b2n (Tab.has k.sec.prefixKeys p)), (5, 1, b2n (Tab.has k.sec.progKeys p)),
    (16, 16, (k.sec.qpKeys.filter (fun e => e.1 / 256 == p)).length)]

/-- SEC_STS (R612). -/
def secView (k : Ctl) : Word :=
  let s := k.sec
  packWord [(0, 2, s.owner), (2, 1, b2n s.recovery), (3, 1, b2n (decide (k.ticks < s.lockUntil))), (4, 1, s.fwSlot), (8, 8, s.sessions.length),
    (16, 8, match Tab.get? s.fw s.fwSlot with | some f => f.svn | none => 0)]

/-- The read-only fields of the word at `a` of windows 0x00 to 0x0A; `sel` is the object that its select register names. -/
def chipView (k : Ctl) (d : Data) (sel a : Nat) : Word :=
  match a with
  | 0x00000C0 => k.word a
  | 0x0000100 => Config.serial 0
  | 0x0000108 => Config.serial 1
  | 0x0000140 => packWord ((List.range 64).map (fun n => (n, 1, b2n (sumBit d n))))
  | 0x0000180 => trapView k
  | 0x0100080 => packWord [(0, 4, k.rst.stage), (4, 1, b2n k.rst.fail), (8, 8, k.rst.source), (16, 8, k.rst.perstWarm)]
  | 0x01000C0 => packWord [(33, 1, b2n k.rst.blk.isSome), (40, 8, k.rst.result)]
  | 0x0200100 => pwrView k false
  | 0x0200140 => pwrView k true
  | 0x0300040 => clkView k
  | 0x0400100 => BitVec.ofNat 64 k.ns
  | 0x0400140 => packWord [(0, 16, k.tim.nowf)]
  | 0x0400180 =>
    packWord [(0, 2, k.tim.state.code), (2, 1, b2n k.tim.valid), (3, 1, b2n k.todNeed), (7, 1, b2n (k.tim.slew != 0)), (32, 32, satInt32 k.tim.offset)]
  | 0x0500040 =>
    packWord [(0, 1, b2n k.rst.aOk), (1, 1, b2n k.rst.bOk), (2, 1, b2n k.rst.useB), (3, 1, b2n k.rst.otherBad), (4, 1, b2n k.rst.safe), (32, 32, k.rst.seq)]
  | 0x07000C0 => prtView k sel
  | 0x0800080 => secView k
  | 0x0900080 => rasView k d
  | 0x0940048 => packWord [(0, 32, (d.evt 17).1), (32, 32, (d.evt 17).2)]
  | 0x0A00040 => packWord [(0, 48, d.bbx.nextSeq), (48, 6, d.bbx.slot), (54, 1, b2n d.bbx.slot0), (55, 1, b2n (decide (16 ≤ d.bbx.queue.length)))]
  | _ => 0#64

/-! ### Whole words -/

/-- The copy of a select register that a path has (R700). -/
def Ctl.sel (k : Ctl) (path : Path) (s : Sel) : Nat := Tab.getD k.shell.sels (16 * pathNum path + s.num) 0

/-- The object that an access through a path reaches at an address: 0 for a word with no select register. -/
def Ctl.objOf (k : Ctl) (path : Path) (a : Nat) : Nat :=
  match selectedBy a with
  | some s => k.sel path s
  | none => 0

/-- A *_COMMIT register (R51): BUSY, TAG, RESULT and DONE_TAG. -/
def commitReset : Commit := ⟨0, .ok, 0, none⟩
/-- The commit register at an address. -/
def Ctl.commit (k : Ctl) (a : Nat) : Commit := Tab.getD k.shell.commits a commitReset
/-- Sets a commit register. -/
def Ctl.setCommit (k : Ctl) (a : Nat) (c : Commit) : Ctl := { k with shell := { k.shell with commits := Tab.put commitReset k.shell.commits a c } }
/-- What it reads as. -/
def Commit.view (c : Commit) : Word := packWord [(2, 1, b2n c.cap.isSome), (8, 8, c.tag), (16, 8, c.result.code), (24, 8, c.doneTag)]

/-- A counter's value: an RC counter, or the figure that an RO counter shows. -/
def counterVal (k : Ctl) (d : Data) (a : Nat) : Word :=
  if counterAt a = some true ∨ a = cntAddr 0x0A 0 2 then Tab.getD d.cnt a 0#64
  else if winOf a = 0x09 then BitVec.ofNat 64 (k.cells.length + (d.sal.units.filter (fun e => e.2.lost)).length)
  else engCountRead k d a

/-- What a read leaves in an RC counter (R9): zero, or in HIGH_WATER the Baskets in use, which is the highest IN_USE since that read (R119). -/
def counterAfter (d : Data) (a : Nat) : Word :=
  let o := offOf a - 0x80000
  if winOf a = 0x11 ∧ o % 0x400 = 8 then BitVec.ofNat 64 (inUse d (o / 0x400)) else 0#64

/-- DEGRADED and FLAP of TTP_LSTS, which the links keep (R407, R413); else the W1C bits of a word of object `sel`. -/
def stsView (d : Data) (sel a : Nat) : Word :=
  let p := (offOf a - 0x10000) / 0x1000
  let o := offOf a % 0x1000
  if winOf a = 0x1A ∧ 0x100 ≤ o ∧ o < 0x120 then
    let x := d.link p ((o - 0x100) / 8)
    packWord [(3, 1, b2n x.degraded), (4, 1, b2n x.flap)]
  else Tab.getD d.sts (objKey a sel) 0#64

/-- Whether RAS_INJECT and RAS_DIAG act (R708). -/
def Ctl.fa (k : Ctl) : Bool := k.sec.owner == 2

/-- The word at `a`, a multiple of 8, as a path reads it (R9, R51, R700): a register that no chapter of its own serves. -/
def regWord (k : Ctl) (d : Data) (path : Path) (a : Nat) : Word :=
  let sel := k.objOf path a
  if isCommit a then (k.commit a).view
  else if (counterAt a).isSome then counterVal k d a
  else
    match selAt a with
    | some s => BitVec.ofNat 64 (k.sel path s)
    | none =>
      if a = 0x09000C0 ∨ a = 0x09000C8 then
        (if k.fa then (k.word a ||| packWord [(49, 1, if a = 0x09000C0 then b2n d.ras.inject.isSome else 0)]) else 0#64)
      else if winOf a = 0x1F ∧ offOf a % 0x1000 = 0x148 ∧ 0x10000 ≤ offOf a ∧ offOf a < 0x14000 then
        BitVec.ofNat 64 (Tab.getD d.bdl.cfgData ((offOf a - 0x10000) / 0x1000) 0)
      else
        ((k.word (objKey a sel) &&& maskAt (fun c => c == .rw || c == .rws || c == .rwc) a) |||
          (stsView d sel a &&& maskAt (fun c => c == .w1c) a)) |||
          (if winOf a < 0x10 then chipView k d sel a else engRead k d sel a)

/-! ### Rights and reach -/

/-- Whether a window is guarded (R693). -/
def guarded (w : Nat) : Bool := w == 0x05 || w == 0x07 || w == 0x08 || w == 0x0A

/-- The partition whose HALVES field decides whether a half reaches an address (R589): a partition's own registers and counters, else partition 0. -/
def ownerOf (a : Nat) : Nat :=
  match placeOf (offOf a) with
  | .part p _ => p
  | .cnt j _ => if winOf a = 0x11 ∨ winOf a = 0x18 ∨ winOf a = 0x1D then j % 16 else 0
  | _ => 0

/-- Whether a Bridle half may reach a register (R589); the limit fields of PWR are a word of their own. -/
def Ctl.halfReach (k : Ctl) (h a : Nat) : Bool := !guarded (winOf a) && a / 8 * 8 != 0x0200080 && k.halfMay (ownerOf a) h

/-- Whether an access may come by a path at all: a half in L0 that is an endpoint (R514), or a session that is open. -/
def pathLive (k : Ctl) (d : Data) (path : Path) : Bool :=
  match path with
  | .half h => decide (h < 8) && (d.half h).up && k.halfMode h == 2
  | .session n => Tab.has k.sec.sessions n

/-- Whether the control space answers (R657, R701): the Gondola runs, and the chip is not in S3. -/
def Ctl.spaceUp (k : Ctl) : Bool := decide (4 ≤ k.rst.stage) && k.pwr.state != .s3

/-- Whether an address is RAS_INJECT or RAS_DIAG (R708). -/
def isFa (a : Nat) : Bool := a / 16 * 16 == 0x09000C0 || (decide (0x0910000 ≤ a) && decide (a < 0x0920000))

/-- The role of a session: 1 operator, 2 installer, 3 maker. -/
def Ctl.roleOf (k : Ctl) (n : Nat) : Nat := match Tab.get? k.sec.sessions n with | some s => s.role | none => 0

/-- Whether a session's role may read an address (R597, R632). -/
def Ctl.mayRead (k : Ctl) (n a : Nat) : Bool :=
  match k.roleOf n with
  | 1 => true
  | 2 => true
  | 3 => k.fa && isFa a
  | _ => false

/-- Whether a session's role may write an address (R597, R632): the installer's are OPT, PWR_LIM, ROLE_LOCK and SEC_CFG, with the commits of the last two blocks that
stage them; the operator's are all others. -/
def Ctl.mayWrite (k : Ctl) (n a : Nat) (v m : Word) : Bool :=
  let lock := bitAt m 3 && bitAt v 3 != bitAt (k.word 0x0000040) 3
  let role := Sys2Proof.fld m 0 3 != 0 && Sys2Proof.fld v 0 3 != k.role
  match k.roleOf n with
  | 1 => if a = 0x0000040 then !lock else winOf a != 0x05 && winOf a != 0x08 && a != 0x0200080
  | 2 => if a = 0x0000040 then !role else winOf a == 0x05 || winOf a == 0x08 || a == 0x0200080 || a == 0x0200000
  | 3 => k.fa && isFa a
  | _ => false

end Sys2Proof.Machine
end

