-- ==== Sys2Proof/Machine/RegCommit.lean ====
section
/-!
DEFINITION. The commit handshake (R51 to R55): the words of each staged set, its capture, the checks of every chapter, and what its application changes beside the words.
-/
namespace Sys2Proof.Machine

/-! ### Staged sets -/

/-- The rows of the region whose commit register is at `a`. -/
def setRows (a : Nat) : List RegRow :=
  match placeOf (offOf a) with
  | .chip _ => chipRows (winOf a)
  | .inst i _ => instRows (winOf a) i
  | .part p _ => partRows (winOf a) p
  | _ => []

/-- The addresses of the words of the staged set of the commit register at `a`: those with an RWC field. -/
def setWords (a : Nat) : List Nat :=
  (setRows a).flatMap (fun r => if accMask (fun c => c == .rwc) r.fs = 0 then [] else (List.range r.n).map (fun i => a + r.off + 8 * i))

/-- The word that a set would put in force at an address through a path: staged bits, else the value in force of the object selected (R52). -/
def Ctl.stagedWord (k : Ctl) (path : Path) (a : Nat) : Nat × Word :=
  let key := objKey a (k.objOf path a)
  (key, match Tab.get? k.shell.staged a with
    | some s => (k.word key &&& ~~~ s.mask) ||| (s.val &&& s.mask)
    | none => k.word key)

/-- The staged words of a list of addresses. -/
def takeStaged (t : Tab Stg) (l : List Nat) : Tab Stg := Tab.keep t (fun a _ => l.contains a)
/-- The staged words of all others. -/
def dropStaged (t : Tab Stg) (l : List Nat) : Tab Stg := Tab.keep t (fun a _ => !l.contains a)

/-- A rejected or withdrawn set's values and marks stay staged (R52, R53), but where a later write has staged its own. -/
def restoreStaged (old : Tab Stg) (t : Tab Stg) : Tab Stg :=
  old.foldl (fun u e =>
    match Tab.get? u e.1 with
    | some s => Tab.set u e.1 ⟨(e.2.val &&& ~~~ s.mask) ||| (s.val &&& s.mask), e.2.mask ||| s.mask⟩
    | none => Tab.set u e.1 e.2) t

/-- The words of a capture put in force. -/
def Ctl.withWords (k : Ctl) (l : Tab Word) : Ctl := l.foldl (fun c e => c.setWord e.1 e.2) k

/-- Whether the capture took a written mark of a word at an address. -/
def Capture.marked (c : Capture) (a : Nat) : Bool := Tab.has c.staged a
/-- Whether it took one of any of `n` words from an address. -/
def Capture.any (c : Capture) (a n : Nat) : Bool := (List.range n).any (fun i => c.marked (a + 8 * i))
/-- The object that the capture's word at an address belongs to. -/
def Capture.obj (c : Capture) (a : Nat) : Nat := match c.words.find? (fun e => e.1 % 2 ^ 26 == a) with | some e => e.1 / 2 ^ 26 | none => 0

/-! ### What a partition has configured -/

/-- Frame record bytes of a model instance. -/
def Ctl.frecBytes (k : Ctl) (m : Nat) : Nat := 8 * k.mdlFrames m * (if k.mdlTier m = 0 then 2048 else 1)
/-- Pool bytes of a model instance: within each bank for TIER 0. -/
def Ctl.poolBytes (k : Ctl) (m : Nat) : Nat := k.mdlFrames m * k.frameBytes m

/-- SPL_RECPOOL of a partition: base, bytes. -/
def Ctl.recRange (k : Ctl) (p : Nat) : Nat × Nat :=
  (k.fld (0x1340040 + 0x1000 * p) 6 42 * 64, k.fld (0x1340048 + 0x1000 * p) 0 6 * 64 * k.fld (0x1340048 + 0x1000 * p) 32 32)

/-- The base and bytes of an event ring with its first word at `a` and entries of `e` bytes (R117). -/
def Ctl.evtRange (k : Ctl) (a e : Nat) : Nat × Nat := (k.fld a 6 42 * 64, k.fld a 48 16 * e)

/-- The areas in plain memory that a lend range may not meet (R360): pools, frame record areas, page-table pools, record pools and adapter tables. -/
def Ctl.kvAreas (k : Ctl) (p : Nat) : List (Nat × Nat) :=
  let mine := (List.range 4096).filter (fun m => k.mdlOn m && k.mdlPart m == p)
  mine.map (fun m => (k.mdlFrec m, k.frecBytes m)) ++ (mine.filter (fun m => k.mdlTier m == 1)).map (fun m => (k.mdlPool m, k.poolBytes m)) ++
  [((k.ptPool p).1, (k.ptPool p).2 * 4096), k.recRange p] ++
  (if k.adpCount p = 0 then [] else [(k.adpDir p, 1048576), (k.adpRecs p, 64 * k.adpCount p)])

/-- Every area that a partition has configured in plain memory (R600). -/
def Ctl.plainAreas (k : Ctl) (p : Nat) : List (Nat × Nat) :=
  let rings := ((List.range 16).map (fun t => ringNo false p t) ++ (if p = 0 then (List.range 16).map (fun t => ringNo true 0 t) else [])).filter k.ringOn
  let wins := (List.range 1024).filter (fun w => k.winOn w && k.winPart w == p && !k.winRemote w)
  let lends := (List.range 64).filter (fun n => (k.lend n).1 && (k.lend n).2.2.1 == p && k.tierIs 1 (k.lend n).2.2.2.1)
  let grps := (List.range 16).filter (fun g => k.grpOn g && k.grpPart g == p)
  k.kvAreas p ++ [((k.mtab p).1, (k.mtab p).2 * 512), ((k.btab p).1, (k.btab p).2 * 64), k.evtRange (0x1140040 + 0x1000 * p) 16,
    ((k.dbtab p).1, (k.dbtab p).2 * 16)] ++
  (if k.fld (0x1C40040 + 0x1000 * p) 0 1 = 1 then [(k.fld (0x1C40040 + 0x1000 * p) 14 34 * 16384, 16384)] else []) ++
  rings.flatMap (fun r => [(k.ringBase r, 64 * k.ringSize r), (k.ringCbase r, 16 * k.ringSize r)]) ++
  wins.map (fun w => (k.winAddr w, k.winSlots w * k.winSlotBytes w)) ++ lends.map (fun n => ((k.lend n).2.2.2.1, (k.lend n).2.2.2.2)) ++
  grps.map (fun g => (k.fld (gdef g 1) 6 42 * 64, 32 * k.grpN g)) ++
  (if p ≠ 0 then [] else [k.evtRange 0x1C40080 16, k.evtRange 0x0940040 64] ++
    (if k.fld 0x1C00080 48 7 = 0 then [] else [(k.fld 0x1C00080 6 42 * 64, 32 * k.fld 0x1C00080 48 7), (k.fld 0x1C00088 8 40 * 256, 16384)]))

/-- Its areas in the Sail banks, as offsets within a bank. -/
def Ctl.sailAreas (k : Ctl) (p : Nat) : List (Nat × Nat) :=
  ((List.range 4096).filter (fun m => k.mdlOn m && k.mdlPart m == p && k.mdlTier m == 0)).map (fun m => (k.mdlPool m, k.poolBytes m)) ++
  ((List.range 64).filter (fun n => (k.lend n).1 && (k.lend n).2.2.1 == p && k.tierIs 0 (k.lend n).2.2.2.1)).map (fun n =>
    let a := sailOff (k.lend n).2.2.2.1
    if a + (k.lend n).2.2.2.2 ≤ bankBytes then (a, (k.lend n).2.2.2.2) else (0, bankBytes))

/-- Bytes of a partition's programs in each tile's store (R609). -/
def Ctl.storeBytes (k : Ctl) (p : Nat) : Nat := (k.progs.filter (fun e => e.1 / 65536 == p)).foldl (fun n e => n + 4 * e.2.words.length) 0

/-- Whether a partition holds anything that a teardown would clear (R600, R605). -/
def partHolds (k : Ctl) (d : Data) (p : Nat) : Bool :=
  d.fyl.threads.any (fun e => e.2.part == p) || d.ttx.qps.any (fun e => e.2.part == p && e.2.state != .free) ||
  d.ttx.regions.any (fun e => e.2.part == p && e.2.state != .free) || d.bsk.tab.any (fun e => e.2.part == p && e.2.state != .free) ||
  !(adpRecords k d p (fun s => s != 0)).isEmpty || !(prefixEntries k d p).isEmpty ||
  (List.range 32).any (fun b => k.bankRule b p && !(d.bankTab b).isEmpty) || d.mbx.chans.any (fun e => decide (e.1 < 32) && k.chPart e.1 == p) ||
  d.fyl.rings.any (fun e => e.1 / 16 % 16 == p) || d.mbx.flags.any (fun e => decide ((k.frange p).1 ≤ e.1) && decide (e.1 < (k.frange p).1 + (k.frange p).2)) ||
  k.progs.any (fun e => e.1 / 65536 == p) || Tab.has k.sec.measures (16 + p) || Tab.has k.sec.prefixKeys p || k.sec.qpKeys.any (fun e => e.1 / 256 == p) ||
  d.fab.teardown.contains p

/-! ### The checks -/

/-- The failed checks of a set: `true` for one that fails, with the status that it yields. -/
abbrev Checks := List (Bool × Status)

/-- Checks that yield CFG_INVALID. -/
def cfgBad (l : List Bool) : Checks := l.map (fun b => (b, .cfgInvalid))

/-- Whether a field of the new control plane lies outside a range of values. -/
def Ctl.out (n : Ctl) (a lo w least most : Nat) : Bool := decide (n.fld a lo w < least) || decide (most < n.fld a lo w)

/-- Whether a QP is connected (R417). -/
def anyConnected (d : Data) : Bool := d.ttx.qps.any (fun e => e.2.state != .free && e.2.state != .init)

/-- GLB_ROLE (R16 to R18). -/
def roleChecks (k n : Ctl) (d : Data) : Checks :=
  let change := n.role != k.role
  cfgBad [decide (4 < n.role), change && k.fld 0x0000040 3 1 == 1, change && (d.bsk.tab.any (fun e => e.2.state != .free) || anyConnected d),
    change && !n.genRole && ((List.range 4096).any (fun m => k.mdlOn m && k.mdlTier m == 0) ||
      (List.range 16).any (fun p => !((adpRecords k d p (fun s => s != 0)).filter (avPlaced d)).isEmpty))]

/-- PWR_CFG and PWR_LIM (R688, R689). -/
def pwrChecks (n : Ctl) : Checks :=
  let most := n.fld 0x0200080 0 11
  cfgBad [n.out 0x0200040 0 11 600 most, n.out 0x0200080 0 11 600 1200, decide (n.fld 0x0200080 24 8 < n.fld 0x0200080 16 8 + 5)]

/-- TIM_CFG and TIM_PPSO (R649, R650). -/
def timChecks (n : Ctl) : Checks :=
  cfgBad [n.fld 0x0400040 0 2 == 3, n.fld 0x0400040 4 2 == 3, n.fld 0x0400040 16 16 == 0, n.fld 0x0400040 32 16 == 0, n.out 0x0400040 48 10 1 500,
    n.out 0x0400080 2 30 0 999999999, n.fld 0x0400080 32 16 == 0, n.out 0x04000C0 2 30 0 999999999, n.fld 0x04000C0 32 16 == 0]

/-- MBX_CHCFG of a channel (R556). -/
def chChecks (k n : Ctl) (d : Data) (c : Nat) : Checks :=
  let x := d.chan c
  cfgBad [k.fld (chCfg c) 1 4 != n.fld (chCfg c) 1 4 && (x.inFull || x.outFull || x.dbH != 0#32 || x.dbK != 0#32), c == 0 && n.fld (chCfg c) 1 4 != 0]

/-- MBX_LDEF of a ring (R557). -/
def ringChecks (n : Ctl) (d : Data) (r : Nat) : Checks :=
  let p := r / 16 % 16
  let sz := n.ringSize r
  if !n.ringOn r then []
  else
    cfgBad [sz == 0, decide (65536 < sz), !n.inPlain p (n.ringBase r) (64 * sz), !n.inPlain p (n.ringCbase r) (16 * sz), decide (256 ≤ r) && p != 0,
      n.fld (ldef r 2) 48 1 == 1 && decide ((n.frange p).2 ≤ n.fld (ldef r 2) 32 16),
      d.fyl.threads.any (fun e => ringNo e.2.rt e.2.part (tileOf e.1) == r)]

/-- Whether two ranges of a field pair of partitions meet: each given by its partition. -/
def meets (f : Nat → Nat × Nat) (p q : Nat) : Bool := overlaps (f p).1 (f p).2 (f q).1 (f q).2

/-- PRT_DEF of a partition (R600). -/
def prtChecks (k n : Ctl) (d : Data) (p : Nat) : Checks :=
  let on := n.prtEnabled p
  let others := (List.range 16).filter (fun q => q != p && n.prtEnabled q)
  let both := k.prtEnabled p && on
  cfgBad [
    on && n.plainSize p == 0, decide (1048576 < n.bskBase p + n.bskCount p), decide (16384 < n.qpBase p + n.qpCount p),
    decide (65536 < n.tenBase p + n.tenCount p), decide (plainTop < n.plainBase p + n.plainSize p), decide (bankBytes < n.sailBase p + n.sailSize p),
    (on || n.plainSize p != 0) && decide (n.plainBase p < n.sysTop),
    on && others.any (fun q => meets (fun i => (n.bskBase i, n.bskCount i)) p q || meets (fun i => (n.qpBase i, n.qpCount i)) p q ||
      meets (fun i => (n.tenBase i, n.tenCount i)) p q || meets (fun i => (n.plainBase i, n.plainSize i)) p q ||
      meets (fun i => (n.sailBase i, n.sailSize i)) p q),
    decide (256 < ((List.range 16).filter n.prtEnabled).foldl (fun s q => s + n.progKb q) 0),
    p == 0 && !on, k.prtEnabled p && !on && partHolds k d p,
    both && d.bsk.tab.any (fun e => e.2.part == p && e.2.state != .free && !(decide (n.bskBase p ≤ e.1) && decide (e.1 < n.bskBase p + n.bskCount p))),
    both && d.ttx.qps.any (fun e => e.2.part == p && e.2.state != .free && !(decide (n.qpBase p ≤ e.1) && decide (e.1 < n.qpBase p + n.qpCount p))),
    both && decide (n.progKb p * 1024 < k.storeBytes p),
    both && (k.plainAreas p).any (fun x => x.2 != 0 && !n.inPlain p x.1 x.2),
    both && (k.sailAreas p).any (fun x => x.2 != 0 && !inside x.1 x.2 (n.sailBase p) (n.sailSize p))]

/-- An event ring with its first word at `a` (R117). -/
def evtChecks (n : Ctl) (p a e : Nat) : Checks :=
  cfgBad [decide (n.fld a 48 16 < 16), !n.inPlain p (n.evtRange a e).1 (n.evtRange a e).2]

/-- FYL_CFG (R83, R84). -/
def fylChecks (n : Ctl) (d : Data) : Checks :=
  cfgBad [n.fld 0x1000040 0 16 == 0, n.fld 0x1000040 16 2 == 3,
    d.fyl.threads.any (fun e => e.2.rt && (match e.2.run with | .inSlot _ s => !n.slotRt s | .leaving _ s => !n.slotRt s | _ => false))]

/-- Whether a table moves or shrinks: its base changes, or its size falls. -/
def movesOrShrinks (old new : Nat × Nat) : Bool := old.1 != new.1 || decide (new.2 < old.2)

/-- A commit under which a partition is charged more than before, and more than its share of a tier (R353, R359). -/
def shareOver (k n : Ctl) (d : Data) (p : Nat) : Bool :=
  [0, 1].any (fun t => decide (tierCharged k d p t < tierCharged n d p t) &&
    decide ((if t = 0 then 2048 * n.sailSize p else n.plainSize p) < tierCharged n d p t))

/-- BSK_ADPTAB of a partition (R343). -/
def adpChecks (k n : Ctl) (d : Data) (p : Nat) : Checks :=
  let cnt := n.adpCount p
  let moved := k.adpDir p != n.adpDir p || movesOrShrinks (k.adpRecs p, k.adpCount p) (n.adpRecs p, cnt)
  cfgBad [cnt == 0, decide (65536 < cnt), !n.inPlain p (n.adpDir p) 1048576, !n.inPlain p (n.adpRecs p) (64 * cnt),
    moved && !(adpRecords k d p (fun s => s != 0)).isEmpty, shareOver k n d p]

/-- Where a model instance's pool and frame records lie: true for offsets within the Sail banks, false for plain DPAs. -/
def Ctl.mdlAreas (k : Ctl) (m : Nat) : List (Bool × Nat × Nat) := [(k.mdlTier m == 0, k.mdlPool m, k.poolBytes m), (false, k.mdlFrec m, k.frecBytes m)]

/-- KVW_MDEF of a model instance (R122 to R126). -/
def mdlChecks (k n : Ctl) (d : Data) (m : Nat) : Checks :=
  let p := n.mdlPart m
  let same := (List.range 4).all (fun w => k.word (mdefKey m w) == n.word (mdefKey m w))
  let used := d.bsk.tab.any (fun e => e.2.state != .free && e.2.model == m) ||
    (List.range (k.mdlFrames m * (if k.mdlTier m = 0 then 2048 else 1))).any (fun f => frecState d (k.mdlFrec m + 8 * f) != 0)
  let period := n.fld (mdefKey m 0) 22 8
  let others := (List.range 4096).filter (fun q => q != m && n.mdlOn q)
  (if n.mdlOn m && n.mdlTier m == 0 && (n.role == 1 || n.role == 3) then [(true, .perm)] else []) ++
  cfgBad [k.mdlOn m && !same && used, n.fld (mdefKey m 0) 1 2 == 3, decide (5 < n.mdlFmt m), n.fld (mdefKey m 0) 11 2 == 3] ++
  (if !n.mdlOn m then [] else
    cfgBad [n.mdlKh m == 0, decide (16 < n.mdlKh m), n.mdlLayers m == 0, decide (256 < n.mdlLayers m), n.mdlFrames m == 0, p == 0,
      isSpar (n.mdlFmt m) && n.mdlT m == 16,
      period != 0 && (decide (period ≤ n.fld (mdefKey m 0) 30 8) || n.fld (mdefKey m 0) 38 20 == 0 || decide (512 < n.reelLen m)),
      n.mdlTier m == 0 && decide (bankBytes < n.mdlPool m + n.poolBytes m),
      n.mdlTier m == 0 && !inside (n.mdlPool m) (n.poolBytes m) (n.sailBase p) (n.sailSize p),
      n.mdlTier m == 1 && !n.inPlain p (n.mdlPool m) (n.poolBytes m), !n.inPlain p (n.mdlFrec m) (n.frecBytes m),
      (n.mdlAreas m).any (fun x => others.any (fun q => (n.mdlAreas q).any (fun y => x.1 == y.1 && overlaps x.2.1 x.2.2 y.2.1 y.2.2))), shareOver k n d p])

/-- KVW_PTPOOL of a partition (R130). -/
def ptChecks (k n : Ctl) (d : Data) (p : Nat) : Checks :=
  cfgBad [(n.ptPool p).2 == 0, !n.inPlain p (n.ptPool p).1 ((n.ptPool p).2 * 4096),
    movesOrShrinks (k.ptPool p) (n.ptPool p) && d.kvw.units.any (fun e => e.1 / 2 ^ 32 == p), shareOver k n d p]

/-- SPL_RECPOOL of a partition (R253). -/
def recChecks (k n : Ctl) (d : Data) (p : Nat) : Checks :=
  let a := 0x1340048 + 0x1000 * p
  cfgBad [n.out a 0 6 2 33, n.fld a 32 32 == 0, !n.inPlain p (n.recRange p).1 (n.recRange p).2,
    (movesOrShrinks ((k.recRange p).1, k.fld a 32 32) ((n.recRange p).1, n.fld a 32 32) || k.fld a 0 6 != n.fld a 0 6) &&
      d.spl.slots.any (fun e => e.1 / 2 ^ 32 == p), shareOver k n d p]

/-- ENV_TCFG and ENV_TLEN of a code table (R170, R182). -/
def codeChecks (n : Ctl) (o : Nat) : Checks :=
  let elem := n.fld (objKey 0x1600080 o) 1 3
  let lens := (List.range 256).map (fun s => n.fld (objKey (0x1600100 + 8 * (s / 8)) o) (4 * (s % 8)) 4)
  cfgBad [o / 16 == 0, decide (4 < elem)] ++
  (if n.fld (objKey 0x1600080 o) 0 1 = 0 then [] else
    cfgBad [decide (3 < elem), lens.all (fun l => l == 0), (lens.drop (alphabet elem)).any (fun l => l != 0), lens.any (fun l => decide (12 < l)),
      decide (4096 < lens.foldl (fun s l => if l = 0 then s else s + 2 ^ (12 - l)) 0)])

/-- MAT_BANKCFG of a bank (R211). -/
def bankChecks (k n : Ctl) (d : Data) (b : Nat) : Checks :=
  let a := 0x1700100 + 8 * b
  let use := n.fld a 0 2
  cfgBad [use == 3, n.fld a 2 2 == 3, n.out a 4 4 4 8, decide (8 < n.fld a 13 4),
    (k.fld a 0 2 != use || k.fld a 2 2 != n.fld a 2 2 || k.fld a 8 4 != n.fld a 8 4) && !(d.bankTab b).isEmpty,
    (k.fld a 0 2 == 1) != (use == 1) && (List.range 32).any (fun i => k.fld (0x1700100 + 8 * i) 0 2 == 1 && !(d.bankTab i).isEmpty),
    use == 1 && (n.fld a 2 2 != 0 || n.fld a 13 4 != 8), use == 2 && n.fld a 8 4 == 0, use == 2 && n.fld a 12 1 == 1 && n.fld a 13 4 != 0]

/-- Whether a range of a Sail stack lies in a partition's Sail window in every bank that it reaches (R588). -/
def Ctl.sailRange (k : Ctl) (p a n : Nat) : Bool :=
  if sailOff a + n ≤ bankBytes then k.inSail p a n else k.sailBase p == 0 && k.sailSize p == bankBytes

/-- Whether a lend range is used (R360): by a Tether registration, or by an entry of a BDL_CXLMAP. -/
def lendUsed (k : Ctl) (d : Data) (n : Nat) : Bool :=
  let x := k.lend n
  x.1 && ((x.2.1 == 0 && d.ttx.regions.any (fun e => e.2.state != .free && overlaps e.2.base e.2.size x.2.2.2.1 x.2.2.2.2)) ||
    (List.range 8).any (fun h => (List.range 8).any (fun i => k.cxlEntry h i == some n)))

/-- Whether `n` bytes of a Sail stack from offset `o` of a bank on meet a TIER 0 pool in a bank that they reach (R360). -/
def Ctl.poolHit (k : Ctl) (o n : Nat) : Bool :=
  if o + n ≤ bankBytes then k.meetsPool o n
  else k.meetsPool o (bankBytes - o) || k.meetsPool 0 (if 2 * bankBytes ≤ o + n then bankBytes else o + n - bankBytes)

/-- TIE_LDEF of a lend range (R360, R367). -/
def lendChecks (k n : Ctl) (d : Data) (i : Nat) : Checks :=
  let x := n.lend i
  let p := x.2.2.1
  let a := x.2.2.2.1
  let sz := x.2.2.2.2
  let same := k.word (objKey 0x1800100 i) == n.word (objKey 0x1800100 i) && k.word (objKey 0x1800108 i) == n.word (objKey 0x1800108 i)
  let off := sailOff a
  cfgBad [!same && lendUsed k d i, decide (1 < x.2.1)] ++
  (if !x.1 then [] else
    cfgBad [sz == 0, p == 0,
      match n.tierOf a sz with
      | .plain => !n.inPlain p a sz || (List.range 16).any (fun q => (n.kvAreas q).any (fun y => overlaps a sz y.1 y.2))
      | .sail => !n.sailRange p a sz || n.poolHit off sz
      | _ => true,
      (List.range 64).any (fun q => q != i && (n.lend q).1 && overlaps a sz (n.lend q).2.2.2.1 (n.lend q).2.2.2.2), shareOver k n d p])

/-- TIE_WM of a partition (R366). -/
def wmChecks (n : Ctl) (p : Nat) : Checks := cfgBad ([0, 1].map (fun t => decide ((n.wm p t).2 < (n.wm p t).1)))

/-- BLS_PRANGE of a partition (R393, R602). -/
def rangeChecks (n : Ctl) (d : Data) (p : Nat) : Checks :=
  let top := match d.header with | some h => h.logical | none => 0
  let r := n.blsRange p
  cfgBad [decide (16384 * 2 ^ 20 < r.2), r.2 != 0 && !Tab.has n.sec.blsKeys p, r.2 != 0 && decide (top < r.1 + r.2), (List.range 16).any (fun q => q != p && meets n.blsRange p q)]

/-- TTP_CFG and TTP_LCFG of a port (R410, R411). -/
def portChecks (n : Ctl) (p : Nat) : Checks :=
  let a := ttpCfg p
  cfgBad ([decide (5 < n.portMode p), n.fld a 4 2 == 3, n.fld a 6 2 == 3, n.out a 8 14 1518 9216, n.fld a 24 8 == 0, n.fld a 32 8 == 0, n.fld a 40 8 == 0,
    n.out a 48 8 100 180] ++ (List.range 4).map (fun l => n.fld (0x1A10080 + 0x1000 * p + 8 * l) 40 1 == 1))

/-- TTX_ADDR (R448). -/
def addrChecks (k n : Ctl) (d : Data) : Checks :=
  cfgBad [anyConnected d && (List.range 4).any (fun w => k.word (0x1B00040 + 8 * w) != n.word (0x1B00040 + 8 * w)),
    n.fld 0x1B00040 16 1 == 1 && n.fld 0x1B00040 17 2 == 0]

/-- TTX_CFG (R449). -/
def ttxChecks (n : Ctl) : Checks :=
  cfgBad [n.fld 0x1B00080 0 16 == 0, n.fld 0x1B00080 16 8 == 0, n.fld 0x1B00080 24 4 == 0, n.out 0x1B00080 32 12 1 2048, n.fld 0x1B00080 48 8 == 0,
    n.out 0x1B00080 56 6 0 56, n.fld 0x1B00088 0 16 == 0, n.fld 0x1B00088 16 4 == 0, n.fld 0x1B00088 20 12 == 0, n.fld 0x1B00088 32 12 == 0,
    n.fld 0x1B00088 44 12 == 0]

/-- FAB_CFG and FAB_WTAB (R478, R479). -/
def fabChecks (n : Ctl) (wtab : Bool) : Checks :=
  cfgBad [n.fld 0x1C00040 4 4 == 0, n.fld 0x1C00040 8 4 == 0, n.fld 0x1C00040 12 12 == 0, n.fld 0x1C00040 24 8 == 0, n.fld 0x1C00040 32 8 == 0,
    wtab && decide (64 < n.fld 0x1C00080 48 7), wtab && !n.inPlain 0 (n.fld 0x1C00080 6 42 * 64) (32 * n.fld 0x1C00080 48 7),
    wtab && !n.inPlain 0 (n.fld 0x1C00088 8 40 * 256) 16384]

/-- FAB_GDEF of a group (R481). -/
def groupChecks (n : Ctl) (d : Data) (g : Nat) : Checks :=
  cfgBad [n.grpN g == 0, decide (8192 < n.grpN g), decide (n.grpN g ≤ n.grpRank g), n.grpPart g == 0,
    !n.inPlain (n.grpPart g) (n.fld (gdef g 1) 6 42 * 64) (32 * n.grpN g), (d.grp g).op.isSome]

/-- TRF_MTAB, TRF_BTAB and TRF_REG of a partition (R503, R504). -/
def trfChecks (k n : Ctl) (d : Data) (p : Nat) (mt bt : Bool) : Checks :=
  cfgBad ([mt && (n.mtab p).2 == 0, mt && decide (65536 < (n.mtab p).2), mt && !n.inPlain p (n.mtab p).1 ((n.mtab p).2 * 512),
    bt && (n.btab p).2 == 0, bt && decide (1048576 < (n.btab p).2), bt && !n.inPlain p (n.btab p).1 ((n.btab p).2 * 64),
    bt && (k.btab p).1 != (n.btab p).1 && d.trf.charges.any (fun c => c.part == p)] ++
    (List.range 4).map (fun r => let a := 0x1D400C0 + 0x1000 * p + 8 * r
      n.fld a 32 1 == 1 && (n.fld a 0 20 == 0 || n.fld a 20 12 == 0)))

/-- BDL_WDEF of a window (R521, R529). -/
def winChecks (n : Ctl) (w : Nat) : Checks :=
  let sz := n.winSlots w * n.winSlotBytes w
  let out := n.winOut w
  if !n.winOn w then []
  else
    cfgBad [n.winSlots w == 0, n.winSlotBytes w == 0, n.winPart w == 0, !out && n.winRemote w, n.winAddr w % 1024 != 0,
      !out && (n.winCredit w % 8 != 0 || decide (n.winApoff w < 65536) || decide (2 ^ 36 < n.winApoff w + sz)),
      !n.winRemote w && !n.inPlain (n.winPart w) (n.winAddr w) sz,
      !out && (List.range 1024).any (fun v => v != w && n.winOn v && !n.winOut v && n.winHalf v == n.winHalf w &&
        overlaps (n.winApoff w) sz (n.winApoff v) (n.winSlots v * n.winSlotBytes v))]

/-- BDL_CXLMAP of a half (R524, R531). -/
def cxlChecks (n : Ctl) (d : Data) (h : Nat) : Checks :=
  let mine := (List.range 8).filterMap (fun i => n.cxlEntry h i)
  cfgBad [(d.half h).hdm, mine.any (fun i => !(n.lend i).1 || (n.lend i).2.1 != 1 || (n.lend i).2.2.2.2 % 2 ^ 28 != 0),
    (List.range 8).any (fun g => g != h && ((List.range 8).filterMap (fun i => n.cxlEntry g i)).any (fun i => mine.contains i))]

/-- MBX_FRANGE of a partition (R558). -/
def frangeChecks (n : Ctl) (p : Nat) : Checks :=
  cfgBad [decide (65536 < (n.frange p).1 + (n.frange p).2), (List.range 16).any (fun q => q != p && meets n.frange p q)]

/-- The checks of a chip-wide set. -/
def chipChecks (k n : Ctl) (d : Data) (c : Capture) (win : Nat) : Checks :=
  match win with
  | 0x00 => roleChecks k n d
  | 0x01 => cfgBad [n.fld 0x0100100 16 16 == 0, n.fld 0x0100100 0 1 == 1 && decide ((n.frange 0).2 ≤ n.fld 0x0100100 32 16)]
  | 0x02 => pwrChecks n
  | 0x04 => timChecks n
  | 0x06 => (if c.marked 0x0600080 then chChecks k n d (c.obj 0x0600080) else []) ++
      (if c.any 0x0600100 3 then ringChecks n d (c.obj 0x0600100) else [])
  | 0x07 => prtChecks k n d (c.obj 0x0700080)
  | 0x08 => cfgBad [n.fld 0x0800040 0 16 == 0]
  | 0x09 => cfgBad [n.fld 0x0900040 0 8 == 0, decide (n.fld 0x0900040 8 16 < 1024), n.fld 0x0900040 24 16 == 0]
  | 0x10 => fylChecks n d
  | 0x11 => cfgBad [n.fld 0x1100040 0 16 == 0, n.fld 0x1100040 32 16 == 0, n.fld 0x1100040 48 16 == 0, decide (32 < n.fld 0x11000C0 0 6)]
  | 0x12 => cfgBad [n.fld 0x1200040 0 16 == 0] ++ (if c.any 0x1200100 4 then mdlChecks k n d (c.obj 0x1200100) else [])
  | 0x13 => cfgBad [n.out 0x1300040 0 14 1040 12288, n.out 0x1300040 16 5 1 16, n.out 0x1300040 24 4 1 12]
  | 0x15 => cfgBad [n.fld 0x1500040 0 16 == 0]
  | 0x16 => if c.marked 0x1600080 || c.any 0x1600100 32 then codeChecks n (c.obj 0x1600080) else []
  | 0x17 => cfgBad [n.fld 0x1700040 0 16 == 0] ++
      (List.range 32).flatMap (fun b => if c.marked (0x1700100 + 8 * b) then bankChecks k n d b else [])
  | 0x18 => if c.any 0x1800100 2 then lendChecks k n d (c.obj 0x1800100) else []
  | 0x19 => cfgBad [n.fld 0x1900040 8 12 == 0]
  | 0x1B => (if c.any 0x1B00040 4 then addrChecks k n d else []) ++ ttxChecks n
  | 0x1C => fabChecks n (c.any 0x1C00080 2) ++ (if c.any 0x1C00100 2 then groupChecks n d (c.obj 0x1C00100) else [])
  | 0x1D => cfgBad ((List.range 7).map (fun i => n.fld 0x1D00040 (8 * i) 8 == 0))
  | 0x1E => cfgBad [n.out 0x1E00040 0 10 1 1000, n.fld 0x1E00040 10 2 == 3]
  | _ => []

/-- The checks of the set of an instance region. -/
def instChecks (n : Ctl) (d : Data) (c : Capture) (win i : Nat) : Checks :=
  match win with
  | 0x14 => cfgBad [n.out (0x1410040 + 0x1000 * i) 0 11 256 1900, n.out (0x1410040 + 0x1000 * i) 16 9 16 511]
  | 0x1A => portChecks n i
  | 0x1F => cfgBad [n.fld (0x1F10080 + 0x1000 * i) 0 16 == 0] ++
      [0, 1].flatMap (fun h => if c.marked (0x1F10100 + 0x1000 * i + 8 * h) then cxlChecks n d (2 * i + h) else []) ++
      (if i = 0 ∧ c.any 0x1F10200 4 then winChecks n (c.obj 0x1F10200) else [])
  | _ => []

/-- The checks of the set of a partition region (R701: the partition is enabled). -/
def partChecks (k n : Ctl) (d : Data) (c : Capture) (win p : Nat) : Checks :=
  let a := win * 0x100000 + 0x40000 + 0x1000 * p
  (!k.prtEnabled p, .cfgInvalid) ::
  match win with
  | 0x06 => if c.marked (a + 0x40) then frangeChecks n p else []
  | 0x09 => if c.marked (a + 0x40) then evtChecks n 0 (a + 0x40) 64 else []
  | 0x11 => (if c.marked (a + 0x40) then evtChecks n p (a + 0x40) 16 else []) ++ (if c.any (a + 0x80) 3 then adpChecks k n d p else [])
  | 0x12 => if c.any (a + 0x40) 2 then ptChecks k n d p else []
  | 0x13 => if c.any (a + 0x40) 2 then recChecks k n d p else []
  | 0x17 => cfgBad [n.out (a + 0x40) 0 19 0 262144]
  | 0x18 => wmChecks n p
  | 0x19 => if c.marked (a + 0x40) then rangeChecks n d p else []
  | 0x1C => (if c.marked (a + 0x40) then cfgBad [!n.inPlain p (n.fld (a + 0x40) 14 34 * 16384) 16384] else []) ++
      (if c.marked (a + 0x80) then evtChecks n 0 (a + 0x80) 16 else [])
  | 0x1D => trfChecks k n d p (c.any (a + 0x40) 2) (c.any (a + 0x80) 2)
  | 0x1F => if c.marked (a + 0x40) then
      cfgBad [(n.dbtab p).2 == 0, decide (32768 < (n.dbtab p).2), !n.inPlain p (n.dbtab p).1 ((n.dbtab p).2 * 16)] else []
  | _ => []

/-- The result of the check of a captured set (R52): PERM where a failed check yields it, else CFG_INVALID where one fails. -/
def commitCheck (k : Ctl) (d : Data) (a : Nat) (c : Capture) : Status :=
  let n := k.withWords c.words
  let l := match placeOf (offOf a) with
    | .chip _ => chipChecks k n d c (winOf a)
    | .inst i _ => instChecks n d c (winOf a) i
    | .part p _ => partChecks k n d c (winOf a) p
    | _ => []
  if l.any (fun x => x.1 && x.2 == .perm) then .perm else if l.any (fun x => x.1) then .cfgInvalid else .ok

/-! ### What an application changes beside the words -/

/-- PROD and CONS of an event ring return to zero (R117). -/
def evtZero (d : Data) (r : Nat) : Data := { d with evts := Tab.erase d.evts r }

/-- A table of flag cells given to a partition is zeroed (R558). -/
def zeroFlags (n : Ctl) (d : Data) (p : Nat) : Data :=
  { d with mbx := { d.mbx with flags := Tab.keep d.mbx.flags (fun c _ => !(decide ((n.frange p).1 ≤ c) && decide (c < (n.frange p).1 + (n.frange p).2))) } }

/-- A window that becomes VALID has both counts at zero (R517); one whose ADDR, SLOTS, SLOT_KB or APOFF changes while VALID is set back too, and
its credit word is written (R521). -/
def winMoved (k n : Ctl) (d : Data) (w : Nat) : Data :=
  if !k.winOn w && n.winOn w then d.setWin w winReset
  else if !k.winOn w || (k.winAddr w == n.winAddr w && k.winSlots w == n.winSlots w && k.winSlotBytes w == n.winSlotBytes w && k.winApoff w == n.winApoff w) then d
  else
    let d1 := d.setWin w winReset
    if !n.winOut w && halfUp n d1 (n.winHalf w) then (d1.emit (.busWrite (n.winHalf w) (n.winCredit w) (bytesLE 8 0))).bump (bdlCnt (n.winHalf w) 1) 8 else d1

/-- The DEAD marks of a watch table committed again (R471). -/
def clearDead (n : Ctl) (d : Data) : Data := n.watch.foldl (fun e a => e.wr (a + 4) 1 (e.rd (a + 4) 1 &&& 0xF7)) d

/-- PRT_DEF applied: the slice turn is 0 (R87), and ENABLE from 0 to 1 wipes the partition (R599, R606). -/
def prtApply (k n : Ctl) (d : Data) (p : Nat) : Data :=
  let d1 := { d with bsk := { d.bsk with turn := Tab.erase d.bsk.turn p } }
  if !k.prtEnabled p && n.prtEnabled p then wipePart n d1 p else d1

/-- An output newly enabled starts with the next whole second (R646). -/
def ppsStart (k n : Ctl) : Ctl :=
  let go := fun (a : Nat) => k.fld a 0 1 == 0 && n.fld a 0 1 == 1
  let sec := fun (a : Nat) => (n.ns - n.fld a 2 30) / 1000000000
  { n with tim := { n.tim with
    pulse0 := if go 0x0400080 then sec 0x0400080 else n.tim.pulse0
    pulse1 := if go 0x04000C0 then sec 0x04000C0 else n.tim.pulse1 } }

/-- The watchdog enabled after the first program has started awaits its first feed from then (R656). -/
def wdtStart (k n : Ctl) (d : Data) : Ctl :=
  if k.fld 0x0100100 0 1 = 0 ∧ n.fld 0x0100100 0 1 = 1 ∧ n.rst.ready then
    { n with rst := { n.rst with
      wdtFed := some n.ticks
      wdtVal := Tab.getD d.mbx.flags ((n.frange 0).1 + n.fld 0x0100100 32 16) 0#64 } }
  else n

/-- What the application of a chip-wide set changes. A new MAT_BANKCFG leaves every rule bank spread (R195). -/
def chipApply (k n : Ctl) (d : Data) (c : Capture) (win : Nat) : Ctl × Data :=
  match win with
  | 0x01 => (wdtStart k n d, d)
  | 0x04 => timCommit (ppsStart k n, d) k.timSrc (c.marked 0x0400050)
  | 0x06 => (n, if c.any 0x0600100 3 then d.setRing (c.obj 0x0600100) ringReset else d)
  | 0x07 => (n, prtApply k n d (c.obj 0x0700080))
  | 0x17 => (n, if c.any 0x1700100 32 then
      (List.range 32).foldl (fun e b => if n.bank b 0 2 == 2 then (spreadBank n e b).1 else e) d else d)
  | 0x12 => (n, if c.any 0x1200100 4 then wmCheck n d (n.mdlPart (c.obj 0x1200100)) else d)
  | 0x1C =>
    let d1 := if c.any 0x1C00080 2 then clearDead n d else d
    (n, if c.any 0x1C00100 2 then d1.setGrp (c.obj 0x1C00100) grpReset else d1)
  | _ => (n, d)

/-- What the application of a partition's set changes. -/
def partApply (k n : Ctl) (d : Data) (c : Capture) (win p : Nat) : Data :=
  let a := win * 0x100000 + 0x40000 + 0x1000 * p
  match win with
  | 0x06 => if k.frange p = n.frange p then d else zeroFlags n d p
  | 0x09 => if c.marked (a + 0x40) then evtZero d 17 else d
  | 0x11 =>
    let d1 := if c.marked (a + 0x40) then evtZero d p else d
    if k.adpDir p = n.adpDir p ∧ k.adpRecs p = n.adpRecs p then d1
    else (d1.clear (n.adpDir p) 1048576).clear (n.adpRecs p) (64 * n.adpCount p)
  | 0x18 => wmCheck n d p
  | 0x1C => if c.marked (a + 0x80) then evtZero d 16 else d
  | _ => d

/-- A captured set takes effect (R52). -/
def commitApply (k : Ctl) (d : Data) (a : Nat) (c : Capture) : Ctl × Data :=
  let n := k.withWords c.words
  match placeOf (offOf a) with
  | .chip _ => chipApply k n d c (winOf a)
  | .inst i _ =>
    if winOf a = 0x1A then (n, portApply n d i (k.portMode i))
    else if a = 0x1F10000 ∧ c.any 0x1F10200 4 then (n, winMoved k n d (c.obj 0x1F10200))
    else (n, d)
  | .part p _ => (n, partApply k n d c (winOf a) p)
  | _ => (n, d)

/-! ### The handshake -/

/-- RESULT and DONE_TAG become visible, and BUSY falls (R52). -/
def commitReport (k : Ctl) (a : Nat) (tag : Nat) (st : Status) : Ctl :=
  k.setCommit a { k.commit a with result := st, doneTag := tag, cap := none }

/-- GO with a TAG through a path (R51 to R54, R701): ignored while BUSY; DOMAIN_OFF at once where the block's domain is down; OK for an empty set; else the set is captured
and checked. A rejected set stays staged; an accepted one waits for its application point. -/
def commitGo (x : Ctl × Data) (path : Path) (a tag : Nat) : Ctl × Data :=
  let k := x.1
  if (k.commit a).cap.isSome then x
  else
    let k1 := k.setCommit a { k.commit a with tag := tag }
    let l := setWords a
    if k.domainDown a then (commitReport k1 a tag .domainOff, x.2)
    else
      let cap : Capture := ⟨path, tag, k.ticks, l.foldl (fun t w => Tab.set t (k.stagedWord path w).1 (k.stagedWord path w).2) [], takeStaged k.shell.staged l⟩
      let st := commitCheck k x.2 a cap
      if st ≠ .ok ∨ l.isEmpty then (commitReport k1 a tag st, x.2)
      else
        let k2 := k1.setCommit a { k1.commit a with cap := some cap }
        ({ k2 with shell := { k2.shell with staged := dropStaged k.shell.staged l } }, x.2)

/-- DISCARD (R51): the set's marks are cleared; ignored while BUSY. -/
def commitDiscard (k : Ctl) (a : Nat) : Ctl :=
  if (k.commit a).cap.isSome then k else { k with shell := { k.shell with staged := dropStaged k.shell.staged (setWords a) } }

/-- A commit ends without effect: its values stay staged. -/
def commitDrop (k : Ctl) (a : Nat) (c : Capture) (st : Status) : Ctl :=
  let k1 := commitReport k a c.tag st
  { k1 with shell := { k1.shell with staged := restoreStaged c.staged k1.shell.staged } }

/-- Whether an operation that reads a field of a captured set is in progress, so that this moment is no application point (R52): the outputs into a window while its
definition changes. Every other operation of the model reads a set within one command. -/
def commitBusy (d : Data) (a : Nat) (c : Capture) : Bool :=
  a == 0x1F10000 && c.any 0x1F10200 4 && d.bdl.jobs.any (fun j => j.dests.any (fun y => y.1 == c.obj 0x1F10200))

/-- The application point of a captured set (R52); one that would come more than 10 ms after the capture comes too late (R53). The conditions on a change of role are
judged again, so that of an admission and the commit exactly one succeeds (R18). A set of PWR_CFG and PWR_LIM applied in S1 is in force from its exit (R681). -/
def commitPoint (x : Ctl × Data) (a : Nat) : Ctl × Data :=
  match (x.1.commit a).cap with
  | none => x
  | some c =>
    let st : Status := if x.1.domainDown a then .domainOff else if c.since + 5000000 ≤ x.1.ticks then .timeout
      else if winOf a = 0 then commitCheck x.1 x.2 a c else .ok
    if st ≠ .ok then (commitDrop x.1 a c st, x.2)
    else if commitBusy x.2 a c then x
    else if a = 0x0200000 ∧ x.1.pwr.state = .s1 then
      (commitReport { x.1 with pwr := { x.1.pwr with lim := restoreStaged x.1.pwr.lim c.staged } } a c.tag .ok, x.2)
    else
      let y := commitApply x.1 x.2 a c
      (commitReport y.1 a c.tag .ok, y.2)

/-- A write of a commit register (R51): GO with its TAG, else DISCARD and TAG. -/
def commitWrite (x : Ctl × Data) (path : Path) (a : Nat) (v m : Word) : Ctl × Data :=
  let go := bitAt (v &&& m) 0
  let tag := Sys2Proof.fld (((BitVec.ofNat 64 ((x.1.commit a).tag * 256)) &&& ~~~ m) ||| (v &&& m)) 8 8
  if go then commitGo x path a tag
  else
    let k := if bitAt (v &&& m) 1 then commitDiscard x.1 a else x.1
    (k.setCommit a { k.commit a with tag := tag }, x.2)

end Sys2Proof.Machine
end

