-- ==== Sys2Proof/Machine/RegOps.lean ====
section
/-!
DEFINITION. Register accesses (R9 to R12, R47 to R50, R589, R694 to R701): the target of an address, the gates of each path, writes with their actions, reads with their
captures, and the commands that stand for single registers.
-/
namespace Sys2Proof.Machine

/-! ### Targets -/

/-- What an access of a size names (R12, R693 to R699). -/
inductive Target where
  | unmapped
  | page (p o : Nat)
  | chan (c o : Nat)
  | buf (c : Nat)
  | diag
  | word
deriving DecidableEq, Repr

/-- The target of an access. -/
def targetOf (a size : Nat) : Target :=
  let w := a / 8 * 8
  if !(size == 4 || size == 8) || a % Nat.max 1 size != 0 || decide (2 ^ 26 ≤ a) then .unmapped
  else if 0x03F00000 ≤ a then .page ((a - 0x03F00000) / 0x10000) (w % 0x10000)
  else if 0x0810000 ≤ a ∧ a < 0x0810800 then .chan (32 + (a - 0x0810000) / 64) (w % 64)
  else if 0x0820000 ≤ a ∧ a < 0x0840000 then .buf (32 + (a - 0x0820000) / 4096)
  else if 0x0910000 ≤ a ∧ a < 0x0920000 then .diag
  else if (wordFields w).isSome then .word
  else .unmapped

/-- The bits of its word that an access of a size covers. -/
def lane (a size : Nat) : Word := BitVec.ofNat 64 (if size = 8 then 2 ^ 64 - 1 else if a % 8 = 4 then (2 ^ 32 - 1) * 2 ^ 32 else 2 ^ 32 - 1)

/-- The bits that a write of a size changes: those of the fields that lie wholly in it (R695). -/
def writeLane (a size : Nat) : Word :=
  let inIt := fun (f : Fld) => size == 8 || (if a % 8 = 4 then decide (32 ≤ f.lo) else decide (f.lo + f.w ≤ 32))
  BitVec.ofNat 64 (accMask (fun _ => true) (((wordFields (a / 8 * 8)).getD []).filter inIt))

/-- A value placed in its lane. -/
def toLane (a : Nat) (v : Word) : Word := if a % 8 = 4 then v <<< 32 else v
/-- What a read of a size returns of a word. -/
def fromLane (a size : Nat) (v : Word) : Word :=
  if size = 8 then v else (if a % 8 = 4 then v >>> 32 else v &&& BitVec.ofNat 64 (2 ^ 32 - 1))

/-! ### Actions -/

/-- RST_CTL (R656, R665): WARM takes a warm reset, FEED feeds the watchdog; a wrong KEY is ignored. -/
def rstCtl (x : Ctl × Data) (v : Word) : Ctl × Data :=
  if Sys2Proof.fld v 8 8 ≠ 0xA5 then x
  else if bitAt v 0 then chipReset x 0x04 false true
  else if bitAt v 1 ∧ x.1.rst.wdtFed.isSome then ({ x.1 with rst := { x.1.rst with wdtFed := some x.1.ticks } }, x.2)
  else x

/-- RST_BLK with GO (R667): the result at once where the locator is refused or nothing can be reset, else the block reset with BUSY. -/
def rstBlk (x : Ctl × Data) (loc : Nat) : Ctl × Data :=
  let k := x.1
  let r := bitsOf loc 2 2
  let b := bitsOf loc 4 6
  let post := fun (st : Status) => ({ k with rst := { k.rst with result := st.code } }, x.2)
  if loc % 4 ≠ 1 ∨ 2 ^ 21 ≤ loc ∨ bitsOf loc 10 10 ≠ 0 then post .badDesc
  else if bitsOf loc 20 1 = 1 then (if 6 < b ∨ r ≠ 0 then post .badDesc else post .perm)
  else if !blockListed b then post .badDesc
  else if !k.done || !k.powered b || k.down.contains (64 * r + 63) then post .domainOff
  else
    let y : Ctl × Data := ({ k with rst := { k.rst with blk := some (64 * r + b) } }, x.2)
    if b = 63 then fenceRegion y r else blockReset y r b true

/-- A CONS write (R117): one that moves it backwards or beyond PROD is ignored. -/
def consWrite (d : Data) (r : Nat) (v m : Word) : Data :=
  let e := d.evt r
  let new := Sys2Proof.fld ((BitVec.ofNat 64 (e.2 * 2 ^ 32) &&& ~~~ m) ||| (v &&& m)) 32 32
  let ahead := fun (a : Nat) => (a + 2 ^ 32 - e.2) % 2 ^ 32
  if ahead new ≤ ahead e.1 then { d with evts := Tab.put (0, 0) d.evts r (e.1, new) } else d

/-- The event ring whose second word is at an address (R117, R482, R634). -/
def evtAt (a : Nat) : Option Nat :=
  if a = 0x0940048 then some 17 else if a = 0x1C40088 then some 16
  else if 0x1140000 ≤ a ∧ a < 0x1150000 ∧ a % 0x1000 = 0x48 then some ((a - 0x1140000) / 0x1000) else none

/-- A WO action: dropped while its block's domain is down (R50). -/
def action (x : Ctl × Data) (path : Path) (a : Nat) (go : Bool) (f : Ctl × Data → Ctl × Data) : Ctl × Data :=
  if !go then x else if x.1.domainDown a then droppedAction x path a else f x

/-! ### Writes -/

/-- The W1C bits of a word written 1 clear (R9); with GLB_STS the trap of the flag goes (R705). -/
def clearSts (x : Ctl × Data) (path : Path) (a : Nat) (v : Word) : Ctl × Data :=
  let k := x.1
  let d := x.2
  let o := offOf a % 0x1000
  if winOf a = 0x1A ∧ 0x100 ≤ o ∧ o < 0x120 then
    let p := (offOf a - 0x10000) / 0x1000
    let l := (o - 0x100) / 8
    let y := d.link p l
    (k, d.setLink p l { y with degraded := y.degraded && !bitAt v 3, flap := y.flap && !bitAt v 4 })
  else
    let key := objKey a (k.objOf path a)
    let d1 := { d with sts := Tab.put 0#64 d.sts key (Tab.getD d.sts key 0#64 &&& ~~~ v) }
    if a ≠ 0x0000080 then (k, d1)
    else ({ k with shell := { k.shell with
      uTrap := if bitAt v 0 then none else k.shell.uTrap
      dTrap := if bitAt v 1 then none else k.shell.dTrap } }, d1)

/-- A write of the bits of `m` of a word, by the access type of each field (R9): RW and RWS set, W1C clears, RWC stages. -/
def plainWrite (x : Ctl × Data) (path : Path) (a : Nat) (v m : Word) : Ctl × Data :=
  let k := x.1
  let rw := m &&& maskAt (fun c => c == .rw || c == .rws) a
  let rwc := m &&& maskAt (fun c => c == .rwc) a
  let w1c := v &&& m &&& maskAt (fun c => c == .w1c) a
  let key := objKey a (k.objOf path a)
  let k1 := if rw = 0#64 then k else k.setWord key ((k.word key &&& ~~~ rw) ||| (v &&& rw))
  let old := Tab.getD k1.shell.staged a ⟨0#64, 0#64⟩
  let k2 := if rwc = 0#64 then k1
    else { k1 with shell := { k1.shell with staged := Tab.set k1.shell.staged a ⟨(old.val &&& ~~~ rwc) ||| (v &&& rwc), old.mask ||| rwc⟩ } }
  if w1c = 0#64 then (k2, x.2) else clearSts (k2, x.2) path a w1c

/-- A write to a select register's copy (R700). -/
def selWrite (k : Ctl) (path : Path) (s : Sel) (a : Nat) (v m : Word) : Ctl :=
  let mm := m &&& maskAt (fun _ => true) a
  let new := ((BitVec.ofNat 64 (k.sel path s) &&& ~~~ mm) ||| (v &&& mm)).toNat
  { k with shell := { k.shell with sels := Tab.put 0 k.shell.sels (16 * pathNum path + s.num) new } }

/-- A write of the bits of `m` of the word at `a`, which a path may make. -/
def wordWrite (x : Ctl × Data) (path : Path) (a : Nat) (v m : Word) : Ctl × Data :=
  let k := x.1
  let vm := v &&& m
  let r := (offOf a - 0x10000) / 0x1000
  if isCommit a then commitWrite x path a v m
  else
    match selAt a with
    | some s => (selWrite k path s a v m, x.2)
    | none =>
      match evtAt a with
      | some e => if m &&& maskAt (fun c => c == .rw) a = 0#64 then x else (k, consWrite x.2 e v (m &&& maskAt (fun c => c == .rw) a))
      | none =>
        if a = 0x0100040 then rstCtl x vm
        else if a = 0x01000C0 then
          if bitAt vm 32 ∧ k.rst.blk.isSome then x
          else
            let y := plainWrite x path a v m
            if bitAt vm 32 then rstBlk y (y.1.fld a 0 32) else y
        else if a = 0x02000C0 then (if Sys2Proof.fld vm 8 8 ≠ 0xA5 then x else pwrRequest x (Sys2Proof.fld vm 0 2))
        else if a = 0x09000C0 ∨ a = 0x09000C8 then
          if !k.fa then x
          else
            let y := plainWrite x path a v m
            if a = 0x09000C0 ∧ bitAt vm 48 then
              (y.1, armInject y.1 y.2 (y.1.fld 0x09000C0 0 32) (y.1.fld 0x09000C0 32 16) (y.1.fld 0x09000C8 0 48))
            else y
        else if a = 0x1C00180 then
          match path with
          | .session _ => action x path a (vm &&& 0xFFFF#64 != 0#64 || m &&& 0xFFFF#64 == 0xFFFF#64) (fun y => (y.1, declareDead y.1 y.2 (Sys2Proof.fld vm 0 16)))
          | .half _ => x
        else if a = 0x1E00080 then
          let y := plainWrite x path a v m
          action y path a (bitAt vm 48) (fun z => (z.1, wskDump z.1 z.2 (z.1.fld a 6 42 * 64)))
        else if winOf a = 0x1F ∧ 0x10000 ≤ offOf a ∧ offOf a < 0x14000 ∧ offOf a % 0x1000 = 0x140 then
          if bitAt vm 30 ∧ k.domainDown a then droppedAction (cfgaWrite k x.2 r (setBit v 30 false) m) path a else cfgaWrite k x.2 r v m
        else if winOf a = 0x1F ∧ 0x10000 ≤ offOf a ∧ offOf a < 0x14000 ∧ offOf a % 0x1000 = 0x148 then
          let old := BitVec.ofNat 64 (Tab.getD x.2.bdl.cfgData r 0)
          let mm := m &&& maskAt (fun _ => true) a
          (k, { x.2 with bdl := { x.2.bdl with cfgData := Tab.put 0 x.2.bdl.cfgData r ((old &&& ~~~ mm) ||| (v &&& mm)).toNat } })
        else plainWrite x path a v m

/-- A write to a register by a path (R589, R597): refused in silence for a session without the right; dropped with HOST_VIOL for a half, which also never changes
ROLE_LOCK. -/
def gatedWrite (x : Ctl × Data) (path : Path) (a : Nat) (v m : Word) : Ctl × Data :=
  let k := x.1
  if !k.spaceUp then (k, x.2.emit (.refuse path a))
  else
    match path with
    | .session n => if k.mayWrite n a v m then wordWrite x path a v m else x
    | .half h =>
      if !k.halfReach h a then (k, hostViol k x.2 (ownerOf a))
      else if a = 0x0000040 then
        let y := wordWrite x path a v (m &&& 0xFFFFFFFFFFFFFFF7#64)
        if bitAt m 3 && bitAt v 3 != bitAt (k.word a) 3 then (y.1, hostViol y.1 y.2 0) else y
      else wordWrite x path a v m

/-- A write to the buffer of a secure channel (R537, R592, R698). -/
def bufWrite (x : Ctl × Data) (path : Path) (c a : Nat) (v m : Word) : Ctl × Data :=
  let k := x.1
  match path with
  | .half _ => (k, secViol k x.2)
  | .session _ =>
    if c ≠ 32 ∧ !k.spaceUp then (k, x.2.emit (.refuse path a))
    else ({ k with sec := { k.sec with bufs := Tab.put 0#64 k.sec.bufs a ((Tab.getD k.sec.bufs a 0#64 &&& ~~~ m) ||| (v &&& m)) } }, x.2)

/-- A write access to the control space, of the bits of `mask` of its lane. -/
def accessWrite (x : Ctl × Data) (path : Path) (a size : Nat) (value mask : Word) : Ctl × Data :=
  let w := a / 8 * 8
  let v := toLane a value
  let live := pathLive x.1 x.2 path
  let byPath := match path with | .half _ => live | .session _ => true
  match targetOf a size with
  | .page p o => if byPath then pageWrite x path p o v (toLane a mask &&& lane a size) else x
  | .chan c o => if byPath then secureWrite x path c o v (toLane a mask &&& lane a size) else x
  | .buf c => if byPath then bufWrite x path c w v (toLane a mask &&& lane a size) else x
  | .diag => x
  | .unmapped => if !live then x else if !x.1.spaceUp then (x.1, x.2.emit (.refuse path a)) else
      match path with
      | .half _ => if guarded (winOf a) then (x.1, hostViol x.1 x.2 0) else unmapped x path a true
      | .session _ => unmapped x path a true
  | .word => if live then gatedWrite x path w v (toLane a mask &&& writeLane a size) else x

/-! ### Reads -/

/-- A read of a word (R9, R49, R651): its value for the access, with an RC counter cleared, the other half of a 64-bit figure captured for the path, and FRAC captured
by a read of the low half of TIM_NOW. -/
def wordRead (x : Ctl × Data) (path : Path) (a size : Nat) : (Ctl × Data) × Word :=
  let k := x.1
  let d := x.2
  let w := a / 8 * 8
  let v := regWord k d path w
  if counterAt w = none ∧ w ≠ 0x0400100 then (x, fromLane a size v)
  else
    let key := pathNum path * 2 ^ 26 + w
    let d1 := if counterAt w = some true ∧ (size = 8 ∨ a % 8 = 0) then { d with cnt := Tab.put 0#64 d.cnt w (counterAfter d w) } else d
    let k1 := if w = 0x0400100 ∧ a % 8 = 0 then { k with tim := { k.tim with nowf := k.frac / 2 ^ 16 } } else k
    if size = 8 then ((k1, d1), v)
    else if a % 8 = 0 then ((k1, { d1 with halfCap := Tab.set d1.halfCap key (v >>> 32) }), fromLane a size v)
    else
      match Tab.get? d.halfCap key with
      | some c => ((k, { d with halfCap := Tab.erase d.halfCap key }), c)
      | none => (x, fromLane a size v)

/-- A read of a register by a path (R589, R597): zero where it is refused; a half never sees ROLE_LOCK. None for a session without the right. -/
def gatedRead (x : Ctl × Data) (path : Path) (a size : Nat) : (Ctl × Data) × Option Word :=
  let k := x.1
  let w := a / 8 * 8
  if !k.spaceUp then ((k, x.2.emit (.refuse path a)), none)
  else
    match path with
    | .session n => if k.mayRead n w then ((wordRead x path a size).1, some (wordRead x path a size).2) else (x, none)
    | .half h =>
      if !k.halfReach h w then ((k, hostViol k x.2 (ownerOf w)), some 0#64)
      else
        let y := wordRead x path a size
        (y.1, some (if a = 0x0000040 then y.2 &&& 0xFFFFFFFFFFFFFFF7#64 else y.2))

/-- RAS_DIAG (R632, R708): the 16 latest syndromes of the unit that RAS_INJECT names, and its scan state, which is a free value; zero to any but a maker's session in FA. -/
def diagRead (x : Ctl × Data) (path : Path) (a : Nat) : (Ctl × Data) × Option Word :=
  let k := x.1
  match path with
  | .session n => if !k.mayRead n 0x0910000 then (x, if k.roleOf n = 0 then none else some 0#64)
      else
        match (Tab.getD x.2.ras.syns (k.fld 0x09000C0 0 32) [])[(a - 0x0910000) / 8]? with
        | some v => (x, some (BitVec.ofNat 64 v))
        | none => ((k, { x.2 with free := x.2.free + 1 }), some (BitVec.ofNat 64 (Config.freeValue x.2.free)))
  | .half h => if k.halfMay 0 h then (x, some 0#64) else ((k, hostViol k x.2 0), some 0#64)

/-- Answers a read with its data. -/
def answerRead (y : (Ctl × Data) × Option Word) (path : Path) (a : Nat) : Ctl × Data :=
  match y.2 with
  | some v => (y.1.1, y.1.2.emit (.readData path a v))
  | none => y.1

/-- A read access to the control space. -/
def accessRead (x : Ctl × Data) (path : Path) (a size : Nat) : Ctl × Data :=
  let k := x.1
  let w := a / 8 * 8
  let live := pathLive k x.2 path
  let byPath := match path with | .half _ => live | .session _ => true
  match targetOf a size with
  | .page p o => if byPath then pageRead x path p o else x
  | .chan c o => if byPath then secureRead x path c o else x
  | .buf c =>
    if !byPath then x
    else
      match path with
      | .half _ => (k, (secViol k x.2).emit (.readData path a 0#64))
      | .session _ => if c ≠ 32 ∧ !k.spaceUp then (k, x.2.emit (.refuse path a)) else (k, x.2.emit (.readData path a (fromLane a size (Tab.getD k.sec.bufs w 0#64))))
  | .diag => if !live then x else if !k.spaceUp then (k, x.2.emit (.refuse path a)) else answerRead (diagRead x path w) path a
  | .unmapped => if !live then x else if !k.spaceUp then (k, x.2.emit (.refuse path a)) else
      match path with
      | .half _ => if guarded (winOf a) then answerRead ((k, hostViol k x.2 0), some 0#64) path a else answerRead (unmapped x path a false, some 0#64) path a
      | .session _ => answerRead (unmapped x path a false, some 0#64) path a
  | .word => if live then answerRead (gatedRead x path a size) path a else x

/-! ### The commands -/

/-- A write access to the control space (R47). -/
def execRegisterWrite (path : Path) (addr size : Nat) (value : BitVec 64) (s : State) : Host.Outcome State Fault Refusal :=
  onBoth (fun x => accessWrite x path addr size value (BitVec.allOnes 64)) s

/-- A read access to the control space (R49): of a counter, or of any other register. -/
def execCounterRead (path : Path) (addr size : Nat) (s : State) : Host.Outcome State Fault Refusal :=
  onBoth (fun x => accessRead x path addr size) s

/-- An access that no register meets (R12, R694). -/
def execUnmappedAccess (path : Path) (addr size : Nat) (write : Bool) (s : State) : Host.Outcome State Fault Refusal :=
  onBoth (fun x =>
    if targetOf addr size ≠ .unmapped then x
    else if write then accessWrite x path addr size 0#64 0#64 else accessRead x path addr size) s

/-- An access of a half that R589 refuses. -/
def execHostViol (half addr size : Nat) (write : Bool) (s : State) : Host.Outcome State Fault Refusal :=
  onBoth (fun x =>
    let refused := match targetOf addr size with
      | .word => !x.1.halfReach half (addr / 8 * 8)
      | .page p _ => !x.1.halfMay p half
      | .diag => !x.1.halfMay 0 half
      | .unmapped => guarded (winOf addr)
      | _ => false
    if !refused then x
    else if write then accessWrite x (.half half) addr size 0#64 0#64 else accessRead x (.half half) addr size) s

/-- GO with a TAG in a commit register (R51, R52). -/
def execCommitGo (path : Path) (addr : Nat) (tag : BitVec 8) (s : State) : Host.Outcome State Fault Refusal :=
  onBoth (fun x => if isCommit addr then accessWrite x path addr 8 (BitVec.ofNat 64 (1 + tag.toNat * 256)) 0xFF01#64 else x) s

/-- DISCARD in a commit register (R51). -/
def execCommitDiscard (path : Path) (addr : Nat) (s : State) : Host.Outcome State Fault Refusal :=
  onBoth (fun x => if isCommit addr then accessWrite x path addr 8 2#64 3#64 else x) s

/-- The application point of a captured set (R52). -/
def execCommitApply (addr : Nat) (s : State) : Host.Outcome State Fault Refusal :=
  onBoth (fun x => commitPoint x addr) s

/-- No application point has come in 10 ms (R53). -/
def execCommitWithdraw (addr : Nat) (s : State) : Host.Outcome State Fault Refusal :=
  onBoth (fun x =>
    match (x.1.commit addr).cap with
    | none => x
    | some c => if x.1.ticks < c.since + 5000000 then x else (commitDrop x.1 addr c .timeout, x.2)) s

/-- GO in WSK_DUMP with a DST (R508). -/
def execWskDump (path : Path) (value : BitVec 64) (s : State) : Host.Outcome State Fault Refusal :=
  onBoth (fun x => accessWrite x path 0x1E00080 8 (setBit value 48 true) (BitVec.allOnes 64)) s

/-- ARM in RAS_INJECT (R708), with its target. -/
def execRasInjectArm (path : Path) (loc : BitVec 32) (bit : BitVec 16) (addr : BitVec 48) (s : State) : Host.Outcome State Fault Refusal :=
  onBoth (fun x =>
    let y := accessWrite x path 0x09000C8 8 (addr.setWidth 64) (BitVec.allOnes 64)
    accessWrite y path 0x09000C0 8 (BitVec.ofNat 64 (loc.toNat + bit.toNat * 2 ^ 32 + 2 ^ 48)) (BitVec.allOnes 64)) s

/-- WARM with the key in RST_CTL (R665): a warm reset. -/
def execWarm (path : Path) (s : State) : Host.Outcome State Fault Refusal :=
  onBoth (fun x => accessWrite x path 0x0100040 8 0xA501#64 (BitVec.allOnes 64)) s

/-- FEED with the key in RST_CTL (R656). -/
def execFeed (path : Path) (s : State) : Host.Outcome State Fault Refusal :=
  onBoth (fun x => accessWrite x path 0x0100040 8 0xA502#64 (BitVec.allOnes 64)) s

/-- GO in RST_BLK with a locator (R667). -/
def execRstBlk (path : Path) (loc : BitVec 32) (s : State) : Host.Outcome State Fault Refusal :=
  onBoth (fun x => accessWrite x path 0x01000C0 8 (BitVec.ofNat 64 (loc.toNat + 2 ^ 32)) (BitVec.allOnes 64)) s

/-- REQ S1 in PWR_CTL (R674). -/
def execS1Request (path : Path) (s : State) : Host.Outcome State Fault Refusal :=
  onBoth (fun x => accessWrite x path 0x02000C0 8 0xA501#64 (BitVec.allOnes 64)) s

/-- REQ EXIT in PWR_CTL (R678). -/
def execExit (path : Path) (s : State) : Host.Outcome State Fault Refusal :=
  onBoth (fun x => accessWrite x path 0x02000C0 8 0xA503#64 (BitVec.allOnes 64)) s

/-- REQ S3 in PWR_CTL (R679). -/
def execS3Request (path : Path) (s : State) : Host.Outcome State Fault Refusal :=
  onBoth (fun x => accessWrite x path 0x02000C0 8 0xA502#64 (BitVec.allOnes 64)) s

end Sys2Proof.Machine
end

