-- ==== Sys2Proof/Machine/Scalar.lean ====
section
/-!
DEFINITION. The scalar arithmetic and the predicates of the Fyley cores (R564 to R566). No instruction sets a flag or traps.
-/
namespace Sys2Proof.Machine

/-- `add`: sD receives sA + sB (R564). -/
def execAdd (t : Nat) (p : BitVec 2) (rd ra rb : BitVec 5) (s : State) : Host.Outcome State Fault Refusal :=
  onData (fylRegs t p 4 (fun th => th.setS rd.toNat (th.sReg ra.toNat + th.sReg rb.toNat))) s

/-- `sub`: sD receives sA − sB (R564). -/
def execSub (t : Nat) (p : BitVec 2) (rd ra rb : BitVec 5) (s : State) : Host.Outcome State Fault Refusal :=
  onData (fylRegs t p 4 (fun th => th.setS rd.toNat (th.sReg ra.toNat - th.sReg rb.toNat))) s

/-- `and`: sD receives sA AND sB (R564). -/
def execAnd (t : Nat) (p : BitVec 2) (rd ra rb : BitVec 5) (s : State) : Host.Outcome State Fault Refusal :=
  onData (fylRegs t p 4 (fun th => th.setS rd.toNat (th.sReg ra.toNat &&& th.sReg rb.toNat))) s

/-- `or`: sD receives sA OR sB (R564). -/
def execOr (t : Nat) (p : BitVec 2) (rd ra rb : BitVec 5) (s : State) : Host.Outcome State Fault Refusal :=
  onData (fylRegs t p 4 (fun th => th.setS rd.toNat (th.sReg ra.toNat ||| th.sReg rb.toNat))) s

/-- `xor`: sD receives sA XOR sB (R564). -/
def execXor (t : Nat) (p : BitVec 2) (rd ra rb : BitVec 5) (s : State) : Host.Outcome State Fault Refusal :=
  onData (fylRegs t p 4 (fun th => th.setS rd.toNat (th.sReg ra.toNat ^^^ th.sReg rb.toNat))) s

/-- `andn`: sD receives sA AND NOT sB (R564). -/
def execAndn (t : Nat) (p : BitVec 2) (rd ra rb : BitVec 5) (s : State) : Host.Outcome State Fault Refusal :=
  onData (fylRegs t p 4 (fun th => th.setS rd.toNat (th.sReg ra.toNat &&& ~~~ th.sReg rb.toNat))) s

/-- `shl`: sD receives sA shifted left by sB[5:0] (R564). -/
def execShl (t : Nat) (p : BitVec 2) (rd ra rb : BitVec 5) (s : State) : Host.Outcome State Fault Refusal :=
  onData (fylRegs t p 4 (fun th => th.setS rd.toNat (th.sReg ra.toNat <<< fld (th.sReg rb.toNat) 0 6))) s

/-- `shr`: sD receives sA shifted right by sB[5:0], zero fill (R564). -/
def execShr (t : Nat) (p : BitVec 2) (rd ra rb : BitVec 5) (s : State) : Host.Outcome State Fault Refusal :=
  onData (fylRegs t p 4 (fun th => th.setS rd.toNat (th.sReg ra.toNat >>> fld (th.sReg rb.toNat) 0 6))) s

/-- `sra`: sD receives sA shifted right by sB[5:0], sign fill (R564). -/
def execSra (t : Nat) (p : BitVec 2) (rd ra rb : BitVec 5) (s : State) : Host.Outcome State Fault Refusal :=
  onData (fylRegs t p 4 (fun th => th.setS rd.toNat ((th.sReg ra.toNat).sshiftRight (fld (th.sReg rb.toNat) 0 6)))) s

/-- `mul`: sD receives the low 64 bits of sA × sB (R564). -/
def execMul (t : Nat) (p : BitVec 2) (rd ra rb : BitVec 5) (s : State) : Host.Outcome State Fault Refusal :=
  onData (fylRegs t p 4 (fun th => th.setS rd.toNat (th.sReg ra.toNat * th.sReg rb.toNat))) s

/-- `mulhu`: sD receives the high 64 bits of the unsigned product (R564). -/
def execMulhu (t : Nat) (p : BitVec 2) (rd ra rb : BitVec 5) (s : State) : Host.Outcome State Fault Refusal :=
  onData (fylRegs t p 4 (fun th => th.setS rd.toNat (BitVec.ofNat 64 ((th.sReg ra.toNat).toNat * (th.sReg rb.toNat).toNat / 2 ^ 64)))) s

/-- `min`: sD receives the smaller, signed (R564). -/
def execMin (t : Nat) (p : BitVec 2) (rd ra rb : BitVec 5) (s : State) : Host.Outcome State Fault Refusal :=
  onData (fylRegs t p 4 (fun th => th.setS rd.toNat (if BitVec.slt (th.sReg ra.toNat) (th.sReg rb.toNat) then th.sReg ra.toNat else th.sReg rb.toNat))) s

/-- `minu`: sD receives the smaller, unsigned (R564). -/
def execMinu (t : Nat) (p : BitVec 2) (rd ra rb : BitVec 5) (s : State) : Host.Outcome State Fault Refusal :=
  onData (fylRegs t p 4 (fun th => th.setS rd.toNat (if BitVec.ult (th.sReg ra.toNat) (th.sReg rb.toNat) then th.sReg ra.toNat else th.sReg rb.toNat))) s

/-- `max`: sD receives the larger, signed (R564). -/
def execMax (t : Nat) (p : BitVec 2) (rd ra rb : BitVec 5) (s : State) : Host.Outcome State Fault Refusal :=
  onData (fylRegs t p 4 (fun th => th.setS rd.toNat (if BitVec.slt (th.sReg ra.toNat) (th.sReg rb.toNat) then th.sReg rb.toNat else th.sReg ra.toNat))) s

/-- `maxu`: sD receives the larger, unsigned (R564). -/
def execMaxu (t : Nat) (p : BitVec 2) (rd ra rb : BitVec 5) (s : State) : Host.Outcome State Fault Refusal :=
  onData (fylRegs t p 4 (fun th => th.setS rd.toNat (if BitVec.ult (th.sReg ra.toNat) (th.sReg rb.toNat) then th.sReg rb.toNat else th.sReg ra.toNat))) s

/-- `clz`: sD receives the leading zero bits of sA (R564). -/
def execClz (t : Nat) (p : BitVec 2) (rd ra : BitVec 5) (s : State) : Host.Outcome State Fault Refusal :=
  onData (fylRegs t p 4 (fun th => th.setS rd.toNat (BitVec.ofNat 64 (clz64 (th.sReg ra.toNat))))) s

/-- `ctz`: sD receives the trailing zero bits of sA (R564). -/
def execCtz (t : Nat) (p : BitVec 2) (rd ra : BitVec 5) (s : State) : Host.Outcome State Fault Refusal :=
  onData (fylRegs t p 4 (fun th => th.setS rd.toNat (BitVec.ofNat 64 (ctz64 (th.sReg ra.toNat))))) s

/-- `popc`: sD receives the one bits of sA (R564). -/
def execPopc (t : Nat) (p : BitVec 2) (rd ra : BitVec 5) (s : State) : Host.Outcome State Fault Refusal :=
  onData (fylRegs t p 4 (fun th => th.setS rd.toNat (BitVec.ofNat 64 (popc64 (th.sReg ra.toNat))))) s

/-- `addi`: sD receives sA plus IMM14, sign-extended (R565). -/
def execAddi (t : Nat) (p : BitVec 2) (rd ra : BitVec 5) (imm : BitVec 14) (s : State) : Host.Outcome State Fault Refusal :=
  onData (fylRegs t p 4 (fun th => th.setS rd.toNat (th.sReg ra.toNat + immS imm))) s

/-- `andi`: sD receives sA AND IMM14, zero-extended (R565). -/
def execAndi (t : Nat) (p : BitVec 2) (rd ra : BitVec 5) (imm : BitVec 14) (s : State) : Host.Outcome State Fault Refusal :=
  onData (fylRegs t p 4 (fun th => th.setS rd.toNat (th.sReg ra.toNat &&& immZ imm))) s

/-- `ori`: sD receives sA OR IMM14, zero-extended (R565). -/
def execOri (t : Nat) (p : BitVec 2) (rd ra : BitVec 5) (imm : BitVec 14) (s : State) : Host.Outcome State Fault Refusal :=
  onData (fylRegs t p 4 (fun th => th.setS rd.toNat (th.sReg ra.toNat ||| immZ imm))) s

/-- `xori`: sD receives sA XOR IMM14, zero-extended (R565). -/
def execXori (t : Nat) (p : BitVec 2) (rd ra : BitVec 5) (imm : BitVec 14) (s : State) : Host.Outcome State Fault Refusal :=
  onData (fylRegs t p 4 (fun th => th.setS rd.toNat (th.sReg ra.toNat ^^^ immZ imm))) s

/-- `shli`: sD receives sA shifted left by the count in IMM14[5:0] (R565). -/
def execShli (t : Nat) (p : BitVec 2) (rd ra : BitVec 5) (count : BitVec 6) (s : State) : Host.Outcome State Fault Refusal :=
  onData (fylRegs t p 4 (fun th => th.setS rd.toNat (th.sReg ra.toNat <<< count.toNat))) s

/-- `shri`: sD receives sA shifted right, zero fill by the count in IMM14[5:0] (R565). -/
def execShri (t : Nat) (p : BitVec 2) (rd ra : BitVec 5) (count : BitVec 6) (s : State) : Host.Outcome State Fault Refusal :=
  onData (fylRegs t p 4 (fun th => th.setS rd.toNat (th.sReg ra.toNat >>> count.toNat))) s

/-- `srai`: sD receives sA shifted right, sign fill by the count in IMM14[5:0] (R565). -/
def execSrai (t : Nat) (p : BitVec 2) (rd ra : BitVec 5) (count : BitVec 6) (s : State) : Host.Outcome State Fault Refusal :=
  onData (fylRegs t p 4 (fun th => th.setS rd.toNat ((th.sReg ra.toNat).sshiftRight count.toNat))) s

/-- `li`, a long form: sD receives IMM32 sign-extended (R565). -/
def execLi (t : Nat) (p : BitVec 2) (rd : BitVec 5) (imm : BitVec 32) (s : State) : Host.Outcome State Fault Refusal :=
  onData (fylRegs t p 8 (fun th => th.setS rd.toNat (imm.signExtend 64))) s

/-- `lih`, a long form: IMM32 replaces sD[63:32] and sD[31:0] is kept (R565). -/
def execLih (t : Nat) (p : BitVec 2) (rd : BitVec 5) (imm : BitVec 32) (s : State) : Host.Outcome State Fault Refusal :=
  onData (fylRegs t p 8 (fun th => th.setS rd.toNat (setBits (th.sReg rd.toNat) 32 32 imm.toNat))) s

/-- `cmp`: pD = (sA COND sB) (R566). -/
def execCmp (t : Nat) (p pd : BitVec 2) (c : Cond) (ra rb : BitVec 5) (s : State) : Host.Outcome State Fault Refusal :=
  onData (fylRegs t p 4 (fun th => th.setP pd.toNat (condHolds c (th.sReg ra.toNat) (th.sReg rb.toNat)))) s

/-- `cmpi`: pD = (sA COND IMM14), IMM14 sign-extended (R566). -/
def execCmpi (t : Nat) (p pd : BitVec 2) (c : Cond) (ra : BitVec 5) (imm : BitVec 14) (s : State) : Host.Outcome State Fault Refusal :=
  onData (fylRegs t p 4 (fun th => th.setP pd.toNat (condHolds c (th.sReg ra.toNat) (immS imm)))) s

/-- `pand`: pD = pA AND pB (R566). -/
def execPand (t : Nat) (p pd pa pb : BitVec 2) (s : State) : Host.Outcome State Fault Refusal :=
  onData (fylRegs t p 4 (fun th => th.setP pd.toNat (th.pReg pa.toNat && th.pReg pb.toNat))) s

/-- `por`: pD = pA OR pB (R566). -/
def execPor (t : Nat) (p pd pa pb : BitVec 2) (s : State) : Host.Outcome State Fault Refusal :=
  onData (fylRegs t p 4 (fun th => th.setP pd.toNat (th.pReg pa.toNat || th.pReg pb.toNat))) s

/-- `pnot`: pD = NOT pA (R566). -/
def execPnot (t : Nat) (p pd pa : BitVec 2) (s : State) : Host.Outcome State Fault Refusal :=
  onData (fylRegs t p 4 (fun th => th.setP pd.toNat (!th.pReg pa.toNat))) s

/-- `pmov`: pD = (sA ≠ 0) (R566). -/
def execPmov (t : Nat) (p pd : BitVec 2) (ra : BitVec 5) (s : State) : Host.Outcome State Fault Refusal :=
  onData (fylRegs t p 4 (fun th => th.setP pd.toNat (th.sReg ra.toNat != 0#64))) s

end Sys2Proof.Machine
end

