-- ==== Sys2Proof/Machine/Sessions.lean ====
section
/-!
DEFINITION. Roles and sessions (R590 to R598), keys (R601 to R604), programs (R609), teardown (R605), option bytes and firmware (R607, R662), quotes (R610), the reading of
the black box (R631) and the maker's commands (R608). A row carries the decrypted body of its command, and whether its TAG and signatures verify.
-/
namespace Sys2Proof.Machine

/-- A counter of SEC_CNT (R613): 0 AUTH_OK, 1 AUTH_FAIL, 2 CMDS, 3 REFUSED, 4 REPLAY, 5 TAG_FAIL. -/
def secCnt (i : Nat) : Nat := cntAddr 0x08 0 i
/-- Ticks of a second. -/
def secTicks : Nat := 500000000

/-! ### Opcodes, rights and what is served -/

/-- Whether a role (1 operator, 2 installer, 3 maker) may issue an opcode (R597). -/
def mayIssue (recovery : Bool) (role opc : Nat) : Bool :=
  match opc with
  | 0x03 => true
  | 0x10 => role != 3
  | 0x11 => true
  | 0x20 => role == 1
  | 0x21 => role == 2
  | 0x30 => role == 1
  | 0x31 => role == 1
  | 0x32 => role == 1
  | 0x40 => role == 2
  | 0x41 => role == 2 || (role == 3 && recovery)
  | 0x50 => true
  | 0x51 => true
  | 0x60 => role == 3
  | 0x61 => role == 3
  | _ => false

/-- Whether an opcode changes the state of the device itself (R591). -/
def changesDevice (opc : Nat) : Bool := opc == 0x11 || (decide (0x20 ≤ opc) && decide (opc < 0x50)) || decide (0x60 ≤ opc)

/-- Whether the command is admitted where it is issued (R591, R592, R607): on channel 32, in recovery, and by an UNOWNED device. -/
def Ctl.admits (k : Ctl) (chan opc : Nat) : Bool :=
  (chan != 32 || opc ≤ 0x03 || opc == 0x50 || opc == 0x51) && (!k.sec.recovery || opc ≤ 0x02 || opc == 0x50 || opc == 0x41) &&
  (k.sec.owner != 0 || !changesDevice opc)

/-- Whether a secure channel is served (R592, R663): channel 32 in every state while VAUX18 is present, the others while the Gondola runs. -/
def Ctl.serves (k : Ctl) (chan : Nat) : Bool :=
  decide (32 ≤ chan) && decide (chan < 64) && k.pwr.vaux && (chan == 32 || k.spaceUp || k.sec.recovery)

/-- The Gondola takes a command: the IN message of its channel (R592). -/
def takeIn (d : Data) (chan : Nat) : Data := d.setChan chan { d.chan chan with inFull := false }

/-! ### Sessions -/

/-- SESS_IDLE in ticks (R612). -/
def Ctl.sessIdle (k : Ctl) : Nat := k.fld 0x0800040 0 16 * secTicks

/-- What a command that was performed, or was not, leaves: the machine, the answer's status and body, and the status of each of its records. -/
structure Acted where
  x    : Ctl × Data
  st   : Status
  body : List Byte
  each : List Status

/-- A command that ends with one status. -/
def acted (x : Ctl × Data) (st : Status) : Acted := ⟨x, st, [], []⟩
/-- A command that is done and answers a body. -/
def actedBody (x : Ctl × Data) (body : List Byte) : Acted := ⟨x, .ok, body, []⟩

/-- The objects of a command's records (R598): object, value and mask. -/
abbrev RecObj := Nat × Nat × Nat

/-- A command is answered (R598): one CHANGE record for each object, with the answer on the last. -/
def closeCmd (a : Acted) (role slot opc : Nat) (c : SecCmd) (objs : List RecObj) : Ctl × Data :=
  let ans : Answer := ⟨c.chan, c.session, opc, a.st, c.seq, a.body⟩
  let n := objs.length
  let d1 := if a.st = .perm then a.x.2.bump (secCnt 3) 1 else a.x.2
  (a.x.1, (List.range n).foldl (fun d i =>
    let o := objs.getD i (0, 0, 0)
    changeRec a.x.1 d role slot c.session opc (a.each.getD i a.st) o.1 o.2.1 o.2.2 (if i + 1 = n then some ans else none)) d1)

/-- A command of a session (R593, R596, R597): a session unknown on its channel is refused; a failed TAG ends the session; a SEQ not above the last is a duplicate; then
rights, and the command is performed. -/
def command (x : Ctl × Data) (c : SecCmd) (opc : Nat) (objs : List RecObj) (act : Ctl × Data → Acted) : Ctl × Data :=
  let k := x.1
  if !k.serves c.chan then x
  else
    let d := takeIn x.2 c.chan
    match Tab.get? k.sec.sessions c.session with
    | none => closeCmd (acted (k, d) .perm) 0 0 opc c objs
    | some s =>
      if s.chan ≠ c.chan then closeCmd (acted (k, d) .perm) 0 0 opc c objs
      else if !c.tagOk then closeCmd (acted (endSession (k, d.bump (secCnt 5) 1) c.session) .checkFail) s.role s.slot opc c objs
      else if c.seq < s.seq then closeCmd (acted (k, d.bump (secCnt 4) 1) .duplicate) s.role s.slot opc c objs
      else
        let k1 := { k with sec := { k.sec with sessions := Tab.set k.sec.sessions c.session { s with
          seq := c.seq + 1
          last := k.ticks } } }
        if !k1.admits c.chan opc || !mayIssue k1.sec.recovery s.role opc then closeCmd (acted (k1, d) .perm) s.role s.slot opc c objs
        else
          let a := act (k1, d)
          closeCmd (if a.st = .perm then a else { a with x := (a.x.1, a.x.2.bump (secCnt 2) 1) }) s.role s.slot opc c objs

/-- AUTH_BEGINs that may still be finished, but that of a channel. -/
def Ctl.begunOthers (k : Ctl) (chan : Nat) : Nat :=
  (k.sec.begun.filter (fun e => e.1 != chan && decide (k.ticks ≤ e.2.since + 10 * secTicks))).length

/-- `n` bytes that the spec leaves free. -/
def freeBytes (d : Data) (n : Nat) : List Byte × Data :=
  ((List.range n).map (fun i => BitVec.ofNat 8 (Config.freeValue (d.free + i))), { d with free := d.free + n })

/-- AUTH_BEGIN (R594, R595): refused in a lockout, for a maker key whose hash is not in the fuses, and on a channel that a session holds; NO_SPACE with 8 sessions. Its
answer holds NONCE, Qd and the signature. -/
def authBegin (x : Ctl × Data) (chan role slot : Nat) (known : Bool) : Acted :=
  let k := x.1
  if role = 0 ∨ 3 < role then acted x .badDesc
  else if k.ticks < k.sec.lockUntil ∨ (role = 3 ∧ !known) ∨ k.sec.sessions.any (fun e => e.2.chan == chan) then acted x .perm
  else if 8 ≤ k.sec.sessions.length + k.begunOthers chan then acted x .noSpace
  else
    let b := freeBytes x.2 (48 + 97 + 96)
    actedBody ({ k with sec := { k.sec with begun := Tab.set k.sec.begun chan ⟨role, slot, k.ticks⟩ } }, b.2) b.1

/-- AUTH_BEGIN. -/
def execAuthBegin (chan seq role slot : Nat) (known : Bool) (s : State) : Host.Outcome State Fault Refusal :=
  onBoth (fun x =>
    if !x.1.serves chan then x
    else closeCmd (authBegin (x.1, takeIn x.2 chan) chan role slot known) role slot 0x01 ⟨chan, 0, seq, true⟩ [(slot, 0, 0)]) s

/-- Whether a role's key slot holds a key (R590). -/
def Sec.hasKey (s : Sec) (role slot : Nat) : Bool :=
  match role with
  | 1 => Tab.has s.operators slot
  | 2 => Tab.has s.installers slot
  | _ => decide (slot < 2)

/-- The lowest session number from 1 that is free. -/
def Sec.freeSession (s : Sec) : Nat := (Tab.freeIn s.sessions 1 9).getD 9

/-- An AUTH_FINISH that fails (R595): after 8 in a row AUTH_BEGIN is refused for 1 s, and for twice as long with each further failure, up to 64 s. -/
def authFailed (k : Ctl) : Ctl :=
  let n := k.sec.fails + 1
  { k with sec := { k.sec with
    fails := n
    lockUntil := if 8 ≤ n then k.ticks + Nat.min (2 ^ (n - 8)) 64 * secTicks else k.sec.lockUntil } }

/-- AUTH_FINISH (R594): within 10 s of AUTH_BEGIN, by a signature that verifies against the named slot, it opens the session. -/
def authFinish (x : Ctl × Data) (chan seq : Nat) (sigOk : Bool) : Ctl × Data :=
  let k := x.1
  if !k.serves chan then x
  else
    let d := takeIn x.2 chan
    let b := Tab.get? k.sec.begun chan
    let k1 := { k with sec := { k.sec with begun := Tab.erase k.sec.begun chan } }
    let ok := match b with
      | some g => decide (k.ticks ≤ g.since + 10 * secTicks) && sigOk && k.sec.hasKey g.role g.slot && decide (k.sec.sessions.length < 8)
      | none => false
    let role := match b with | some g => g.role | none => 0
    let slot := match b with | some g => g.slot | none => 0
    if !ok then closeCmd (acted (authFailed k1, d.bump (secCnt 1) 1) .perm) role slot 0x02 ⟨chan, 0, seq, true⟩ [(slot, 0, 0)]
    else
      let n := k.sec.freeSession
      let k2 := { k1 with sec := { k1.sec with
        sessions := Tab.set k1.sec.sessions n ⟨chan, role, slot, 0, k.ticks⟩
        fails := 0
        lockUntil := 0 } }
      closeCmd (acted (k2, d.bump (secCnt 0) 1) .ok) role slot 0x02 ⟨chan, n, seq, true⟩ [(slot, 0, 0)]

/-- AUTH_FINISH. -/
def execAuthFinish (chan seq : Nat) (sigOk : Bool) (s : State) : Host.Outcome State Fault Refusal :=
  onBoth (fun x => authFinish x chan seq sigOk) s

/-- An AUTH_FINISH that comes later than 10 s after its AUTH_BEGIN (R594), whatever its signature. -/
def execAuthTimeout (chan seq : Nat) (s : State) : Host.Outcome State Fault Refusal :=
  onBoth (fun x =>
    match Tab.get? x.1.sec.begun chan with
    | none => x
    | some g => if x.1.ticks ≤ g.since + 10 * secTicks then x else authFinish x chan seq true) s

/-- A session that has had no command for SESS_IDLE ends (R595). -/
def execSessionIdle (session : Nat) (s : State) : Host.Outcome State Fault Refusal :=
  onBoth (fun x =>
    match Tab.get? x.1.sec.sessions session with
    | none => x
    | some y => if x.1.ticks < y.last + x.1.sessIdle then x else endSession x session) s

/-- END (R595). -/
def execEndSession (c : SecCmd) (s : State) : Host.Outcome State Fault Refusal :=
  onBoth (fun x => command x c 0x03 [(0, 0, 0)] (fun y => acted (endSession y c.session) .ok)) s

/-! ### Registers -/

/-- The size of an access of a session command at an address: 8 bytes, or 4 at the upper half of a word. -/
def accSize (a : Nat) : Nat := if a % 8 = 4 then 4 else 8

/-- What accesses of a session have given back since `x`: the data of a read, and whether one got the DOMAIN_OFF error response; they leave the outputs. -/
def gather (x y : Ctl × Data) (n a : Nat) : (Ctl × Data) × Option Word × Bool :=
  let new := y.2.out.drop x.2.out.length
  let mine := fun (o : Out) => match o with
    | .readData p b _ => p == .session n && b == a
    | .refuse p b => p == .session n && b == a
    | _ => false
  let v := new.findSome? (fun o => match o with | .readData p b w => if p = .session n ∧ b = a then some w else none | _ => none)
  let off := new.any (fun o => match o with | .refuse p b => p == .session n && b == a | _ => false)
  ((y.1, { y.2 with out := x.2.out ++ new.filter (fun o => !mine o) }), v, off)

/-- Whether a session's role may write an address with a value and mask (R597): secure channels and buffers are the operator's. -/
def Ctl.mayStore (k : Ctl) (n a : Nat) (v m : Word) : Bool :=
  match targetOf a (accSize a) with
  | .chan _ _ => k.roleOf n == 1
  | .buf _ => k.roleOf n == 1
  | _ => k.mayWrite n (a / 8 * 8) (toLane a v) (toLane a m)

/-- REG_READ of a list of addresses (R589, R597): refused whole where the role has no right to one of them. -/
def sessionReads (x : Ctl × Data) (n : Nat) (addrs : List Nat) : Acted :=
  if !addrs.all (fun a => x.1.mayRead n (a / 8 * 8)) then acted x .perm
  else
    let r := addrs.foldl (fun (acc : (Ctl × Data) × List Byte × Bool) a =>
      let g := gather acc.1 (accessRead acc.1 (.session n) a (accSize a)) n a
      (g.1, acc.2.1 ++ bytesLE 8 (g.2.1.getD 0#64).toNat, acc.2.2 || g.2.2)) (x, [], false)
    ⟨r.1, if r.2.2 then .domainOff else .ok, r.2.1, []⟩

/-- REG_READ. -/
def execRegRead (c : SecCmd) (addrs : List Nat) (s : State) : Host.Outcome State Fault Refusal :=
  onBoth (fun x => command x c 0x10 [(addrs.headD 0, 0, 0)] (fun y => sessionReads y c.session addrs)) s

/-- A commit of a REG_WRITE and its result (R596, R52): a set that finds no application point in 10 ms is withdrawn. -/
def sessionCommit (x : Ctl × Data) (n a : Nat) (late : Bool) : (Ctl × Data) × Status :=
  let y := commitGo x (.session n) a (x.1.commit a).tag
  let busy := match (y.1.commit a).cap with | some c => commitBusy y.2 a c | none => false
  let z := if late || busy then (match (y.1.commit a).cap with | some c => (commitDrop y.1 a c .timeout, y.2) | none => y) else commitPoint y a
  (z, (z.1.commit a).result)

/-- REG_WRITE (R596): its triples and then its commits as one command; the first result that is not OK is the answer. -/
def sessionWrites (x : Ctl × Data) (n : Nat) (writes : List (Nat × BitVec 64 × BitVec 64)) (commits late : List Nat) : Acted :=
  if x.1.roleOf n = 3 ∧ !x.1.fa then acted x .perm
  else if 64 < writes.length ∨ 4 < commits.length ∨ !commits.all isCommit then acted x .badDesc
  else if !writes.all (fun w => x.1.mayStore n w.1 w.2.1 w.2.2) || !commits.all (fun a => x.1.mayWrite n a 1#64 1#64) then acted x .perm
  else
    let r := writes.foldl (fun (acc : (Ctl × Data) × List Status) w =>
      let g := gather acc.1 (accessWrite acc.1 (.session n) w.1 (accSize w.1) w.2.1 w.2.2) n w.1
      (g.1, acc.2 ++ [if g.2.2 then .domainOff else .ok])) (x, [])
    let q := commits.foldl (fun (acc : (Ctl × Data) × List Status) a =>
      let g := sessionCommit acc.1 n a (late.contains a)
      (g.1, acc.2 ++ [g.2])) (r.1, [])
    ⟨q.1, ((r.2 ++ q.2).find? (fun st => st != .ok)).getD .ok, [], r.2⟩

/-- REG_WRITE: a record for each triple, or one for a command of commits alone. -/
def execRegWrite (c : SecCmd) (writes : List (Nat × BitVec 64 × BitVec 64)) (commits late : List Nat) (s : State) : Host.Outcome State Fault Refusal :=
  onBoth (fun x =>
    let objs := if writes.isEmpty then [(commits.headD 0, 0, 0)] else writes.map (fun w => (w.1, w.2.1.toNat, w.2.2.toNat))
    command x c 0x11 objs (fun y => sessionWrites y c.session writes commits late)) s

/-! ### Keys -/

/-- KEY_INSTALL (R603). -/
def keyInstall (x : Ctl × Data) (part kind slot key : Nat) : Acted :=
  let s := x.1.sec
  if 16 ≤ part then acted x .badDesc
  else match kind with
  | 0 => acted ({ x.1 with sec := { s with prefixKeys := Tab.set s.prefixKeys part (key % 2 ^ 128) } }, x.2) .ok
  | 1 => if 256 ≤ slot then acted x .badDesc else acted ({ x.1 with sec := { s with qpKeys := Tab.set s.qpKeys (256 * part + slot) (key % 2 ^ 256) } }, x.2) .ok
  | 2 => acted ({ x.1 with sec := { s with progKeys := Tab.set s.progKeys part key } }, x.2) .ok
  | _ => acted x .badDesc

/-- KEY_INSTALL. -/
def execKeyInstall (c : SecCmd) (part kind slot key : Nat) (s : State) : Host.Outcome State Fault Refusal :=
  onBoth (fun x => command x c 0x20 [(if kind = 1 then slot else part, 0, 0)] (fun y => keyInstall y part kind slot key)) s

/-- A key slot takes a key, or none. -/
def putKey (t : Tab Nat) (slot : Nat) (key : Option Nat) : Tab Nat :=
  match key with
  | some v => Tab.set t slot v
  | none => Tab.erase t slot

/-- KEY_ENROL (R590, R604): a slot enrolled or cleared ends the sessions of its key (R595). A new Ballast key is an identity that no earlier one had. -/
def keyEnrol (x : Ctl × Data) (e : Enrol) : Acted :=
  let k := x.1
  let s := k.sec
  match e with
  | .operator slot key =>
    if 8 ≤ slot then acted x .badDesc
    else acted (endSessions ({ k with sec := { s with operators := putKey s.operators slot key } }, x.2) (fun y => y.role == 1 && y.slot == slot)) .ok
  | .installer slot key =>
    if 2 ≤ slot then acted x .badDesc
    else acted (endSessions ({ k with sec := { s with installers := putKey s.installers slot key } }, x.2) (fun y => y.role == 2 && y.slot == slot)) .ok
  | .ballastNew p =>
    if 16 ≤ p then acted x .badDesc
    else acted ({ k with sec := { s with blsKeys := Tab.set s.blsKeys p (x.2.free + 1) } }, { x.2 with free := x.2.free + 1 }) .ok
  | .ballastDrop p => if 16 ≤ p then acted x .badDesc else acted ({ k with sec := { s with blsKeys := Tab.erase s.blsKeys p } }, x.2) .ok

/-- The object of KEY_ENROL's record: a key slot or a partition. -/
def enrolObject (e : Enrol) : Nat :=
  match e with
  | .operator n _ => n
  | .installer n _ => n
  | .ballastNew p => p
  | .ballastDrop p => p

/-- KEY_ENROL; without a session, the enrolment of installer slot 0 by an UNOWNED device (R591). -/
def execKeyEnrol (c : SecCmd) (e : Enrol) (s : State) : Host.Outcome State Fault Refusal :=
  onBoth (fun x =>
    let objs : List RecObj := [(enrolObject e, 0, 0)]
    if c.session ≠ 0 then command x c 0x21 objs (fun y => keyEnrol y e)
    else if !x.1.serves c.chan then x
    else
      let y := (x.1, takeIn x.2 c.chan)
      match e with
      | .installer 0 (some key) =>
        if x.1.sec.owner ≠ 0 ∨ c.chan = 32 ∨ x.1.sec.recovery then closeCmd (acted y .perm) 0 0 0x21 c objs
        else closeCmd (acted ({ y.1 with sec := { y.1.sec with installers := Tab.set y.1.sec.installers 0 key, owner := 1 } }, y.2) .ok) 0 0 0x21 c objs
      | _ => closeCmd (acted y .perm) 0 0 0x21 c objs) s

/-! ### Programs and partitions -/

/-- Whether a program of a partition has a live thread. -/
def progLive (d : Data) (p n : Nat) : Bool := d.fyl.threads.any (fun e => e.2.part == p && e.2.prog == n)

/-- Whether the regions can serve a session command (R677, R655): the chip runs and start-up is done. -/
def Ctl.regionsServe (k : Ctl) : Bool := k.pwr.state == .run && k.done

/-- PROG_LOAD (R609) of the image at a DPA. -/
def progLoad (x : Ctl × Data) (p dpa : Nat) (sigOk : Bool) : Acted :=
  let k := x.1
  let d := x.2
  if 16 ≤ p then acted x .badDesc
  else if !k.regionsServe then acted x .domainOff
  else if !k.inPlain p dpa 16 then acted x .perm
  else
    let n := ofBytesLE (memBytes d.mem dpa 2)
    let words := ofBytesLE (memBytes d.mem (dpa + 4) 4)
    let len := 16 + 4 * words + 96
    let old := match Tab.get? k.progs (65536 * p + n) with | some g => 4 * g.words.length | none => 0
    if words = 0 ∨ 65536 < words then acted x .badDesc
    else if !k.inPlain p dpa len then acted x .perm
    else if d.bad dpa len then acted x .poison
    else if Tab.has k.sec.progKeys p ∧ !sigOk then acted x .checkFail
    else if !Tab.has k.sec.progKeys p ∧ k.fld 0x0800040 16 1 = 1 then acted x .perm
    else if k.progKb p * 1024 < k.storeBytes p - old + 4 * words then acted x .noSpace
    else if progLive d p n then acted x .cfgInvalid
    else
      let code := (List.range words).map (fun i => BitVec.ofNat 32 (ofBytesLE (memBytes d.mem (dpa + 16 + 4 * i) 4)))
      acted (installProg k p n code (Config.sha384 (memBytes d.mem dpa len)), d) .ok

/-- PROG_LOAD. -/
def execProgLoad (c : SecCmd) (part dpa : Nat) (sigOk : Bool) (s : State) : Host.Outcome State Fault Refusal :=
  onBoth (fun x => command x c 0x30 [(ofBytesLE (memBytes x.2.mem dpa 2), 0, 0)] (fun y => progLoad y part dpa sigOk)) s

/-- PROG_UNLOAD (R609): a program with no live thread is freed. -/
def progUnload (x : Ctl × Data) (p n : Nat) : Acted :=
  let k := x.1
  if 16 ≤ p ∨ 65536 ≤ n then acted x .badDesc
  else if !k.regionsServe then acted x .domainOff
  else if !Tab.has k.progs (65536 * p + n) || progLive x.2 p n then acted x .cfgInvalid
  else acted ({ k with progs := Tab.erase k.progs (65536 * p + n) }, x.2) .ok

/-- PROG_UNLOAD. -/
def execProgUnload (c : SecCmd) (part prog : Nat) (s : State) : Host.Outcome State Fault Refusal :=
  onBoth (fun x => command x c 0x31 [(prog, 0, 0)] (fun y => progUnload y part prog)) s

/-- PART_TEARDOWN (R605), answered DOMAIN_OFF before start-up is done (R655) and in S1 (R677). -/
def execPartTeardown (c : SecCmd) (part : Nat) (wipe : Bool) (s : State) : Host.Outcome State Fault Refusal :=
  onBoth (fun x => command x c 0x32 [(part, 0, 0)] (fun y =>
    if 16 ≤ part then acted y .badDesc
    else if !y.1.regionsServe then acted y .domainOff
    else acted (tearPartition y part wipe) .ok)) s

/-! ### Option bytes and firmware -/

/-- OPT_WRITE (R662): bytes 8 to 507 into the copy not in use, or copy A under SAFE. A copy that reads back otherwise holds free values. -/
def optWrite (x : Ctl × Data) (body : List Byte) (readBack : Bool) : Acted :=
  let k := x.1
  let r := k.rst
  let head := bytesLE 4 0x4B524F42 ++ bytesLE 4 (if r.safe then 1 else (r.seq + 1) % 2 ^ 32) ++ body
  if body.length ≠ 500 ∨ !obFields head then acted x .badDesc
  else
    let free := freeBytes x.2 512
    let copy := if readBack then head ++ bytesLE 4 (crc32c head) else free.1
    let k1 := { k with rst := if r.safe || r.useB then { r with optA := copy } else { r with optB := copy } }
    acted (k1, if readBack then x.2 else free.2) (if readBack then .ok else .uncorrectable)

/-- OPT_WRITE. -/
def execOptWrite (c : SecCmd) (body : List Byte) (readBack : Bool) (s : State) : Host.Outcome State Fault Refusal :=
  onBoth (fun x => command x c 0x40 [(0, 0, 0)] (fun y => optWrite y body readBack)) s

/-- FW_UPDATE (R607): a maker-signed image goes to the slot not running; RAISE_SVN raises SVN_MIN to the SVN of the image that runs. -/
def fwUpdate (x : Ctl × Data) (img : FwImage) (raise : Bool) : Acted :=
  let s := x.1.sec
  if !img.good then acted x .checkFail
  else
    let running := if s.recovery then 0 else (match Tab.get? s.fw s.fwSlot with | some f => f.svn | none => 0)
    acted ({ x.1 with sec := { s with
      fw := Tab.set s.fw (1 - s.fwSlot) img
      svnMin := if raise then Nat.max s.svnMin running else s.svnMin } }, x.2) .ok

/-- FW_UPDATE with an image of an SVN, a version, a SHA-384 and a boot program, whose maker signature verifies or not. -/
def execFwUpdate (c : SecCmd) (good : Bool) (svn version digest : Nat) (boot : List (BitVec 32)) (raise : Bool) (s : State) : Host.Outcome State Fault Refusal :=
  onBoth (fun x => command x c 0x41 [(0, 0, 0)] (fun y => fwUpdate y ⟨good, svn, version, digest, boot⟩ raise)) s

/-! ### Quotes, the black box and the maker -/

/-- QUOTE (R610): the measurement registers of a mask (M0 to M3, then PM[0] to PM[15]), SVN and OWNER, the nonce, and the signature, which is a free value. -/
def quote (x : Ctl × Data) (nonce : BitVec 384) (mask : BitVec 20) : Acted :=
  let s := x.1.sec
  let regs := (List.range 20).filter (fun i => mask.getLsbD i)
  let svn := match Tab.get? s.fw s.fwSlot with | some f => f.svn | none => 0
  let sig := freeBytes x.2 96
  actedBody (x.1, sig.2)
    (regs.flatMap (fun i => bytesLE 48 (Tab.getD s.measures (if i < 4 then i else 12 + i) 0)) ++ bytesLE 1 svn ++ bytesLE 1 s.owner ++ bytesLE 48 nonce.toNat ++ sig.1)

/-- QUOTE. -/
def execQuote (c : SecCmd) (nonce : BitVec 384) (mask : BitVec 20) (s : State) : Host.Outcome State Fault Refusal :=
  onBoth (fun x => command x c 0x50 [(0, 0, 0)] (fun y => quote y nonce mask)) s

/-- BBX_READ (R631): 1 to 60 records from an index, as stored, invalid ones included. -/
def execBbxRead (c : SecCmd) (first count : Nat) (s : State) : Host.Outcome State Fault Refusal :=
  onBoth (fun x => command x c 0x51 [(first, 0, 0)] (fun y =>
    if count = 0 ∨ 60 < count ∨ 65536 < first + count then acted y .badDesc
    else actedBody y ((List.range count).flatMap (fun i => (Tab.get? y.2.bbx.recs (first + i)).getD (bytesLE 64 0))))) s

/-- Every HBM, Ballast, prefix hash and transport key is destroyed, and every session ends (R608): no partition data is readable afterwards. -/
def destroyKeys (x : Ctl × Data) : Ctl × Data :=
  let y := endSessions x (fun _ => true)
  let k := y.1
  let d := (List.range 16).foldl (fun e p => wipePart k e p) y.2
  ({ k with sec := { k.sec with
    blsKeys := []
    prefixKeys := []
    qpKeys := [] } }, d)

/-- FA_UNLOCK (R608). -/
def execFaUnlock (c : SecCmd) (s : State) : Host.Outcome State Fault Refusal :=
  onBoth (fun x => command x c 0x60 [(0, 0, 0)] (fun y =>
    let z := destroyKeys y
    acted ({ z.1 with sec := { z.1.sec with owner := 2 } }, z.2) .ok)) s

/-- OWNER_RESET (R608): the installer and operator slots are cleared, and the device is UNOWNED. -/
def execOwnerReset (c : SecCmd) (s : State) : Host.Outcome State Fault Refusal :=
  onBoth (fun x => command x c 0x61 [(0, 0, 0)] (fun y =>
    let z := destroyKeys y
    acted ({ z.1 with sec := { z.1.sec with
      owner := 0
      installers := []
      operators := [] } }, z.2) .ok)) s

end Sys2Proof.Machine
end

