-- ==== Sys2Proof/Machine/Dispatch.lean ====
section
/-!
DEFINITION. The dispatch: one arm per command.
-/
namespace Sys2Proof.Machine

open Host (Outcome)

/-- The effect of one command on everything but the queue. -/
def exec (i : Instr) (s : State) : Host.Outcome State Fault Refusal :=
  match i with
  | .add t p rd ra rb => Sys2Proof.Machine.execAdd t p rd ra rb s
  | .sub t p rd ra rb => Sys2Proof.Machine.execSub t p rd ra rb s
  | .and t p rd ra rb => Sys2Proof.Machine.execAnd t p rd ra rb s
  | .or t p rd ra rb => Sys2Proof.Machine.execOr t p rd ra rb s
  | .xor t p rd ra rb => Sys2Proof.Machine.execXor t p rd ra rb s
  | .andn t p rd ra rb => Sys2Proof.Machine.execAndn t p rd ra rb s
  | .shl t p rd ra rb => Sys2Proof.Machine.execShl t p rd ra rb s
  | .shr t p rd ra rb => Sys2Proof.Machine.execShr t p rd ra rb s
  | .sra t p rd ra rb => Sys2Proof.Machine.execSra t p rd ra rb s
  | .mul t p rd ra rb => Sys2Proof.Machine.execMul t p rd ra rb s
  | .mulhu t p rd ra rb => Sys2Proof.Machine.execMulhu t p rd ra rb s
  | .min t p rd ra rb => Sys2Proof.Machine.execMin t p rd ra rb s
  | .minu t p rd ra rb => Sys2Proof.Machine.execMinu t p rd ra rb s
  | .max t p rd ra rb => Sys2Proof.Machine.execMax t p rd ra rb s
  | .maxu t p rd ra rb => Sys2Proof.Machine.execMaxu t p rd ra rb s
  | .clz t p rd ra => Sys2Proof.Machine.execClz t p rd ra s
  | .ctz t p rd ra => Sys2Proof.Machine.execCtz t p rd ra s
  | .popc t p rd ra => Sys2Proof.Machine.execPopc t p rd ra s
  | .addi t p rd ra imm => Sys2Proof.Machine.execAddi t p rd ra imm s
  | .andi t p rd ra imm => Sys2Proof.Machine.execAndi t p rd ra imm s
  | .ori t p rd ra imm => Sys2Proof.Machine.execOri t p rd ra imm s
  | .xori t p rd ra imm => Sys2Proof.Machine.execXori t p rd ra imm s
  | .shli t p rd ra count => Sys2Proof.Machine.execShli t p rd ra count s
  | .shri t p rd ra count => Sys2Proof.Machine.execShri t p rd ra count s
  | .srai t p rd ra count => Sys2Proof.Machine.execSrai t p rd ra count s
  | .li t p rd imm => Sys2Proof.Machine.execLi t p rd imm s
  | .lih t p rd imm => Sys2Proof.Machine.execLih t p rd imm s
  | .cmp t p pd c ra rb => Sys2Proof.Machine.execCmp t p pd c ra rb s
  | .cmpi t p pd c ra imm => Sys2Proof.Machine.execCmpi t p pd c ra imm s
  | .pand t p pd pa pb => Sys2Proof.Machine.execPand t p pd pa pb s
  | .por t p pd pa pb => Sys2Proof.Machine.execPor t p pd pa pb s
  | .pnot t p pd pa => Sys2Proof.Machine.execPnot t p pd pa s
  | .pmov t p pd ra => Sys2Proof.Machine.execPmov t p pd ra s
  | .ld t p size rd ra off => Sys2Proof.Machine.execLd t p size rd ra off s
  | .st t p size rs ra off => Sys2Proof.Machine.execSt t p size rs ra off s
  | .descLd t p dd ra => Sys2Proof.Machine.execDescLd t p dd ra s
  | .descSt t p ds ra => Sys2Proof.Machine.execDescSt t p ds ra s
  | .descSet t p dd ra pos w1 => Sys2Proof.Machine.execDescSet t p dd ra pos w1 s
  | .descGet t p rd ds pos w1 => Sys2Proof.Machine.execDescGet t p rd ds pos w1 s
  | .descSeti t p dd pos w1 imm => Sys2Proof.Machine.execDescSeti t p dd pos w1 imm s
  | .descClr t p dd => Sys2Proof.Machine.execDescClr t p dd s
  | .descMov t p dd ds => Sys2Proof.Machine.execDescMov t p dd ds s
  | .br t p off => Sys2Proof.Machine.execBr t p off s
  | .jal t p rd off => Sys2Proof.Machine.execJal t p rd off s
  | .jr t p ra => Sys2Proof.Machine.execJr t p ra s
  | .yield t p => Sys2Proof.Machine.execYield t p s
  | .live t p dmask smask => Sys2Proof.Machine.execLive t p dmask smask s
  | .endThr t p ra => Sys2Proof.Machine.execEnd t p ra s
  | .waitTag t p ts dd wr pd => Sys2Proof.Machine.execWaitTag t p ts dd wr pd s
  | .waitAny t p dd wr pd => Sys2Proof.Machine.execWaitAny t p dd wr pd s
  | .waitAll t p dd wr pd => Sys2Proof.Machine.execWaitAll t p dd wr pd s
  | .fence t p => Sys2Proof.Machine.execFence t p s
  | .bskLoad t p rv rb w rs => Sys2Proof.Machine.execBskLoad t p rv rb w rs s
  | .bskStore t p rv rb rm w rs => Sys2Proof.Machine.execBskStore t p rv rb rm w rs s
  | .flagSet t p ra rb => Sys2Proof.Machine.execFlagSet t p ra rb s
  | .flagAdd t p rd ra rb => Sys2Proof.Machine.execFlagAdd t p rd ra rb s
  | .flagRead t p rd ra => Sys2Proof.Machine.execFlagRead t p rd ra s
  | .flagWait t p rd ra rb cc => Sys2Proof.Machine.execFlagWait t p rd ra rb cc s
  | .flagWaiterWake t => Sys2Proof.Machine.execFlagWaiterWake t s
  | .mbxPost t p rd ra rb => Sys2Proof.Machine.execMbxPost t p rd ra rb s
  | .mbxTake t p rd ra rb wait => Sys2Proof.Machine.execMbxTake t p rd ra rb wait s
  | .dbRing t p rd ra rb => Sys2Proof.Machine.execDbRing t p rd ra rb s
  | .dbTake t p rd ra rb => Sys2Proof.Machine.execDbTake t p rd ra rb s
  | .dbWait t p rd ra rb => Sys2Proof.Machine.execDbWait t p rd ra rb s
  | .thrLaunch t p rd ds tile rt => Sys2Proof.Machine.execThrLaunch t p rd ds tile rt s
  | .sysGet t p rd sel => Sys2Proof.Machine.execSysGet t p rd sel s
  | .undefinedEncodingFault t w0 w1 => Sys2Proof.Machine.execUndefinedEncodingFault t w0 w1 s
  | .sliceExpiry t => Sys2Proof.Machine.execSliceExpiry t s
  | .threadSwitch tile core slot => Sys2Proof.Machine.execThreadSwitch tile core slot s
  | .launchTake rt part tile => Sys2Proof.Machine.execLaunchTake rt part tile s
  | .completionPost t op => Sys2Proof.Machine.execCompletionPost t op s
  | .engineIssueFullWait t => Sys2Proof.Machine.execEngineIssueFullWait t s
  | .pushLayer t p ts ds => Sys2Proof.Machine.execPushLayer t p ts ds s
  | .pushEnd t p ts ds => Sys2Proof.Machine.execPushEnd t p ts ds s
  | .pullPages t p ts ds => Sys2Proof.Machine.execPullPages t p ts ds s
  | .feedLayer t p ts ds => Sys2Proof.Machine.execFeedLayer t p ts ds s
  | .pushPrefix t p ts ds => Sys2Proof.Machine.execPushPrefix t p ts ds s
  | .bdlRelease t p ts ds => Sys2Proof.Machine.execBdlRelease t p ts ds s
  | .sailCmd t p ts ds => Sys2Proof.Machine.execSailCmd t p ts ds s
  | .sailFence t p ts ds => Sys2Proof.Machine.execSailFence t p ts ds s
  | .sailAttn t p ts ds => Sys2Proof.Machine.execSailAttn t p ts ds s
  | .sailDelta t p ts ds => Sys2Proof.Machine.execSailDelta t p ts ds s
  | .mrgOpen t p ts ds => Sys2Proof.Machine.execMrgOpen t p ts ds s
  | .envPack t p ts ds => Sys2Proof.Machine.execEnvPack t p ts ds s
  | .envUnpack t p ts ds => Sys2Proof.Machine.execEnvUnpack t p ts ds s
  | .matSearch t p ts ds => Sys2Proof.Machine.execMatSearch t p ts ds s
  | .matInsert t p ts ds => Sys2Proof.Machine.execMatInsert t p ts ds s
  | .matDelete t p ts ds => Sys2Proof.Machine.execMatDelete t p ts ds s
  | .matSpread t p ts ds => Sys2Proof.Machine.execMatSpread t p ts ds s
  | .matHash t p ts ds => Sys2Proof.Machine.execMatHash t p ts ds s
  | .matRun t p ts ds => Sys2Proof.Machine.execMatRun t p ts ds s
  | .tieEvict t p ts ds => Sys2Proof.Machine.execTieEvict t p ts ds s
  | .qpCreate t p ts ds => Sys2Proof.Machine.execQpCreate t p ts ds s
  | .qpConnect t p ts ds => Sys2Proof.Machine.execQpConnect t p ts ds s
  | .qpDestroy t p ts ds => Sys2Proof.Machine.execQpDestroy t p ts ds s
  | .tqSend t p ts ds => Sys2Proof.Machine.execTqSend t p ts ds s
  | .tqRecv t p ts ds => Sys2Proof.Machine.execTqRecv t p ts ds s
  | .tqWrite t p ts ds => Sys2Proof.Machine.execTqWrite t p ts ds s
  | .tqFadd t p ts ds => Sys2Proof.Machine.execTqFadd t p ts ds s
  | .tqCas t p ts ds => Sys2Proof.Machine.execTqCas t p ts ds s
  | .tqReg t p ts ds => Sys2Proof.Machine.execTqReg t p ts ds s
  | .tqRevoke t p ts ds => Sys2Proof.Machine.execTqRevoke t p ts ds s
  | .fabLoad t p ts ds => Sys2Proof.Machine.execFabLoad t p ts ds s
  | .fabStore t p ts ds => Sys2Proof.Machine.execFabStore t p ts ds s
  | .fabFadd t p ts ds => Sys2Proof.Machine.execFabFadd t p ts ds s
  | .fabCas t p ts ds => Sys2Proof.Machine.execFabCas t p ts ds s
  | .gopBarrier t p ts ds => Sys2Proof.Machine.execGopBarrier t p ts ds s
  | .gopBroadcast t p ts ds => Sys2Proof.Machine.execGopBroadcast t p ts ds s
  | .gopSnapshot t p ts ds => Sys2Proof.Machine.execGopSnapshot t p ts ds s
  | .gopResume t p ts ds => Sys2Proof.Machine.execGopResume t p ts ds s
  | .fabReset t p ts ds => Sys2Proof.Machine.execFabReset t p ts ds s
  | .fabHbTether t p ts ds => Sys2Proof.Machine.execFabHbTether t p ts ds s
  | .fabHbMgmt t p ts ds => Sys2Proof.Machine.execFabHbMgmt t p ts ds s
  | .blsRead t p ts ds => Sys2Proof.Machine.execBlsRead t p ts ds s
  | .blsWrite t p ts ds => Sys2Proof.Machine.execBlsWrite t p ts ds s
  | .blsTrim t p ts ds => Sys2Proof.Machine.execBlsTrim t p ts ds s
  | .blsFlush t p ts ds => Sys2Proof.Machine.execBlsFlush t p ts ds s
  | .blsFormat t p ts ds => Sys2Proof.Machine.execBlsFormat t p ts ds s
  | .blsMaintGc t p ts ds => Sys2Proof.Machine.execBlsMaintGc t p ts ds s
  | .blsMaintWl t p ts ds => Sys2Proof.Machine.execBlsMaintWl t p ts ds s
  | .blsMaintPatrol t p ts ds => Sys2Proof.Machine.execBlsMaintPatrol t p ts ds s
  | .blsMaintRebuild t p ts ds => Sys2Proof.Machine.execBlsMaintRebuild t p ts ds s
  | .kvwMap t p ts ds => Sys2Proof.Machine.execKvwMap t p ts ds s
  | .kvwUnmap t p ts ds => Sys2Proof.Machine.execKvwUnmap t p ts ds s
  | .kvAppend t p ts ds => Sys2Proof.Machine.execKvAppend t p ts ds s
  | .bskAdmit t p ts ds => Sys2Proof.Machine.execBskAdmit t p ts ds s
  | .bskRelease t p ts ds => Sys2Proof.Machine.execBskRelease t p ts ds s
  | .bskQuery t p ts ds => Sys2Proof.Machine.execBskQuery t p ts ds s
  | .bskPark t p ts ds => Sys2Proof.Machine.execBskPark t p ts ds s
  | .bskResume t p ts ds => Sys2Proof.Machine.execBskResume t p ts ds s
  | .bskUnhold t p ts ds => Sys2Proof.Machine.execBskUnhold t p ts ds s
  | .bskPrefill t p ts ds => Sys2Proof.Machine.execBskPrefill t p ts ds s
  | .adpPublish t p ts ds => Sys2Proof.Machine.execAdpPublish t p ts ds s
  | .adpPin t p ts ds => Sys2Proof.Machine.execAdpPin t p ts ds s
  | .adpUnpin t p ts ds => Sys2Proof.Machine.execAdpUnpin t p ts ds s
  | .adpRetire t p ts ds => Sys2Proof.Machine.execAdpRetire t p ts ds s
  | .adpFetch t p ts ds => Sys2Proof.Machine.execAdpFetch t p ts ds s
  | .adpPlace t p ts ds => Sys2Proof.Machine.execAdpPlace t p ts ds s
  | .specCommit t p ts ds => Sys2Proof.Machine.execSpecCommit t p ts ds s
  | .budCharge t p ts ds => Sys2Proof.Machine.execBudCharge t p ts ds s
  | .budSet t p ts ds => Sys2Proof.Machine.execBudSet t p ts ds s
  | .budQuery t p ts ds => Sys2Proof.Machine.execBudQuery t p ts ds s
  | .trfMset t p ts ds => Sys2Proof.Machine.execTrfMset t p ts ds s
  | .trfMget t p ts ds => Sys2Proof.Machine.execTrfMget t p ts ds s
  | .meterColour t op => Sys2Proof.Machine.execMeterColour t op s
  | .meterDeferRetry t op => Sys2Proof.Machine.execMeterDeferRetry t op s
  | .budgetWindowBoundary part account => Sys2Proof.Machine.execBudgetWindowBoundary part account s
  | .regulatorRefill => Sys2Proof.Machine.execRegulatorRefill s
  | .windsockSample => Sys2Proof.Machine.execWindsockSample s
  | .handoffTmo b => Sys2Proof.Machine.execHandoffTmo b s
  | .firstTmo b => Sys2Proof.Machine.execFirstTmo b s
  | .pushTmo b => Sys2Proof.Machine.execPushTmo b s
  | .layer qp => Sys2Proof.Machine.execLayer qp s
  | .landed qp => Sys2Proof.Machine.execLanded qp s
  | .creditRequest qp => Sys2Proof.Machine.execCreditRequest qp s
  | .creditGrant qp => Sys2Proof.Machine.execCreditGrant qp s
  | .runSend qp => Sys2Proof.Machine.execRunSend qp s
  | .offer qp => Sys2Proof.Machine.execOffer qp s
  | .reOffer qp => Sys2Proof.Machine.execReOffer qp s
  | .commit qp => Sys2Proof.Machine.execCommit qp s
  | .refuse qp => Sys2Proof.Machine.execRefuse qp s
  | .anchored qp => Sys2Proof.Machine.execAnchored qp s
  | .unknown qp => Sys2Proof.Machine.execUnknown qp s
  | .query qp => Sys2Proof.Machine.execQuery qp s
  | .answer qp => Sys2Proof.Machine.execAnswer qp s
  | .pullReq qp => Sys2Proof.Machine.execPullReq qp s
  | .pullData qp => Sys2Proof.Machine.execPullData qp s
  | .pullEnd qp => Sys2Proof.Machine.execPullEnd qp s
  | .offerQ qp => Sys2Proof.Machine.execOfferQ qp s
  | .offerA qp => Sys2Proof.Machine.execOfferA qp s
  | .prefixData qp => Sys2Proof.Machine.execPrefixData qp s
  | .prefixDone qp => Sys2Proof.Machine.execPrefixDone qp s
  | .forwardedLookup qp => Sys2Proof.Machine.execForwardedLookup qp s
  | .adapterFetchServe qp => Sys2Proof.Machine.execAdapterFetchServe qp s
  | .unitCommand unit => Sys2Proof.Machine.execUnitCommand unit s
  | .strokeEnd unit => Sys2Proof.Machine.execStrokeEnd unit s
  | .refreshDue unit => Sys2Proof.Machine.execRefreshDue unit s
  | .sailUnitLost unit => Sys2Proof.Machine.execSailUnitLost unit s
  | .partialRowArrival engine stream => Sys2Proof.Machine.execPartialRowArrival engine stream s
  | .endMarker engine stream => Sys2Proof.Machine.execEndMarker engine stream s
  | .peerContribution qp => Sys2Proof.Machine.execPeerContribution qp s
  | .streamFinish engine stream => Sys2Proof.Machine.execStreamFinish engine stream s
  | .mrgTmo engine stream => Sys2Proof.Machine.execMrgTmo engine stream s
  | .peerRetry engine stream => Sys2Proof.Machine.execPeerRetry engine stream s
  | .reclaimSweep => Sys2Proof.Machine.execReclaimSweep s
  | .tilePassSweep tile => Sys2Proof.Machine.execTilePassSweep tile s
  | .pinDropRetire t op => Sys2Proof.Machine.execPinDropRetire t op s
  | .prefixLeaseEnd record => Sys2Proof.Machine.execPrefixLeaseEnd record s
  | .matParityError bank row => Sys2Proof.Machine.execMatParityError bank row s
  | .matScrubRow bank => Sys2Proof.Machine.execMatScrubRow bank s
  | .journalFlush chan => Sys2Proof.Machine.execJournalFlush chan s
  | .openRowPad chan native => Sys2Proof.Machine.execOpenRowPad chan native s
  | .ballastRebuild => Sys2Proof.Machine.execBallastRebuild s
  | .dieLost chan die => Sys2Proof.Machine.execDieLost chan die s
  | .laserLost port input power => Sys2Proof.Machine.execLaserLost port input power s
  | .laserOk port input power => Sys2Proof.Machine.execLaserOk port input power s
  | .calibrationDone port link good => Sys2Proof.Machine.execCalibrationDone port link good s
  | .linkLock port link => Sys2Proof.Machine.execLinkLock port link s
  | .acquireTimeout port link => Sys2Proof.Machine.execAcquireTimeout port link s
  | .linkFault port link remote => Sys2Proof.Machine.execLinkFault port link remote s
  | .holdDown port link => Sys2Proof.Machine.execHoldDown port link s
  | .faultClear port link => Sys2Proof.Machine.execFaultClear port link s
  | .engineHot port above => Sys2Proof.Machine.execEngineHot port above s
  | .frameReceive port link len fcs codewords pause dst => Sys2Proof.Machine.execFrameReceive port link len fcs codewords pause dst s
  | .connReqResend qp => Sys2Proof.Machine.execConnReqResend qp s
  | .connReq port link crc pkt => Sys2Proof.Machine.execConnReq port link crc pkt s
  | .connAcc port link crc pkt => Sys2Proof.Machine.execConnAcc port link crc pkt s
  | .connRej port link crc pkt => Sys2Proof.Machine.execConnRej port link crc pkt s
  | .connWait port link crc pkt => Sys2Proof.Machine.execConnWait port link crc pkt s
  | .connTmo qp => Sys2Proof.Machine.execConnTmo qp s
  | .close port link crc pkt => Sys2Proof.Machine.execClose port link crc pkt s
  | .dataPacket port link crc auth bad pkt => Sys2Proof.Machine.execDataPacket port link crc auth bad pkt s
  | .ackTimer qp => Sys2Proof.Machine.execAckTimer qp s
  | .ack port link crc pkt => Sys2Proof.Machine.execAck port link crc pkt s
  | .nak port link crc pkt => Sys2Proof.Machine.execNak port link crc pkt s
  | .atomicResp port link crc pkt => Sys2Proof.Machine.execAtomicResp port link crc pkt s
  | .qpRetxTimer qp psn => Sys2Proof.Machine.execQpRetxTimer qp psn s
  | .packetTransmit qp => Sys2Proof.Machine.execPacketTransmit qp s
  | .floadReq port link crc auth bad pkt => Sys2Proof.Machine.execFloadReq port link crc auth bad pkt s
  | .floadResp port link crc pkt => Sys2Proof.Machine.execFloadResp port link crc pkt s
  | .heartbeat port link crc pkt => Sys2Proof.Machine.execHeartbeat port link crc pkt s
  | .mgmtHb node => Sys2Proof.Machine.execMgmtHb node s
  | .gopUp port link crc auth bad pkt => Sys2Proof.Machine.execGopUp port link crc auth bad pkt s
  | .gopDown port link crc auth bad pkt => Sys2Proof.Machine.execGopDown port link crc auth bad pkt s
  | .gopTmo group => Sys2Proof.Machine.execGopTmo group s
  | .snapHold part => Sys2Proof.Machine.execSnapHold part s
  | .freset group parent => Sys2Proof.Machine.execFreset group parent s
  | .fresetAck group node count => Sys2Proof.Machine.execFresetAck group node count s
  | .teardown part => Sys2Proof.Machine.execTeardown part s
  | .elect node dead => Sys2Proof.Machine.execElect node dead s
  | .electWait dead => Sys2Proof.Machine.execElectWait dead s
  | .electDone dead => Sys2Proof.Machine.execElectDone dead s
  | .ocsReply tag => Sys2Proof.Machine.execOcsReply tag s
  | .ocsRetry tag => Sys2Proof.Machine.execOcsRetry tag s
  | .slotDataWrite half off data ep => Sys2Proof.Machine.execSlotDataWrite half off data ep s
  | .prod half win value => Sys2Proof.Machine.execProd half win value s
  | .grant half win slot => Sys2Proof.Machine.execGrant half win slot s
  | .reclaim half win slot => Sys2Proof.Machine.execReclaim half win slot s
  | .grantTmo t op => Sys2Proof.Machine.execGrantTmo t op s
  | .creditWordWrite win => Sys2Proof.Machine.execCreditWordWrite win s
  | .cfgRequest port value => Sys2Proof.Machine.execCfgRequest port value s
  | .cfgCompletion port cpl data => Sys2Proof.Machine.execCfgCompletion port cpl data s
  | .ptmRequest half => Sys2Proof.Machine.execPtmRequest half s
  | .cxlMemAccess half addr write => Sys2Proof.Machine.execCxlMemAccess half addr write s
  | .bridleLinkDown half => Sys2Proof.Machine.execBridleLinkDown half s
  | .msixSend half vec unmask => Sys2Proof.Machine.execMsixSend half vec unmask s
  | .inLo path part chan value => Sys2Proof.Machine.execInLo path part chan value s
  | .inHi path part chan value => Sys2Proof.Machine.execInHi path part chan value s
  | .outHi path part chan => Sys2Proof.Machine.execOutHi path part chan s
  | .dbKSet path part chan bits => Sys2Proof.Machine.execDbKSet path part chan bits s
  | .dbH path part chan bits => Sys2Proof.Machine.execDbH path part chan bits s
  | .dbHEn path part chan bits => Sys2Proof.Machine.execDbHEn path part chan bits s
  | .launchProd path part tile rt value => Sys2Proof.Machine.execLaunchProd path part tile rt value s
  | .ccons path part tile rt value => Sys2Proof.Machine.execCcons path part tile rt value s
  | .secViol half chan write => Sys2Proof.Machine.execSecViol half chan write s
  | .authBegin chan seq role slot known => Sys2Proof.Machine.execAuthBegin chan seq role slot known s
  | .authFinish chan seq sigOk => Sys2Proof.Machine.execAuthFinish chan seq sigOk s
  | .authTimeout chan seq => Sys2Proof.Machine.execAuthTimeout chan seq s
  | .sessionIdle session => Sys2Proof.Machine.execSessionIdle session s
  | .endSession c => Sys2Proof.Machine.execEndSession c s
  | .regRead c addrs => Sys2Proof.Machine.execRegRead c addrs s
  | .regWrite c writes commits late => Sys2Proof.Machine.execRegWrite c writes commits late s
  | .keyInstall c part kind slot key => Sys2Proof.Machine.execKeyInstall c part kind slot key s
  | .keyEnrol c e => Sys2Proof.Machine.execKeyEnrol c e s
  | .progLoad c part dpa sigOk => Sys2Proof.Machine.execProgLoad c part dpa sigOk s
  | .progUnload c part prog => Sys2Proof.Machine.execProgUnload c part prog s
  | .partTeardown c part wipe => Sys2Proof.Machine.execPartTeardown c part wipe s
  | .optWrite c body readBack => Sys2Proof.Machine.execOptWrite c body readBack s
  | .fwUpdate c good svn version digest boot raise => Sys2Proof.Machine.execFwUpdate c good svn version digest boot raise s
  | .quote c nonce mask => Sys2Proof.Machine.execQuote c nonce mask s
  | .bbxRead c first count => Sys2Proof.Machine.execBbxRead c first count s
  | .faUnlock c => Sys2Proof.Machine.execFaUnlock c s
  | .ownerReset c => Sys2Proof.Machine.execOwnerReset c s
  | .commitGo path addr tag => Sys2Proof.Machine.execCommitGo path addr tag s
  | .commitDiscard path addr => Sys2Proof.Machine.execCommitDiscard path addr s
  | .commitApply addr => Sys2Proof.Machine.execCommitApply addr s
  | .commitWithdraw addr => Sys2Proof.Machine.execCommitWithdraw addr s
  | .registerWrite path addr size value => Sys2Proof.Machine.execRegisterWrite path addr size value s
  | .counterRead path addr size => Sys2Proof.Machine.execCounterRead path addr size s
  | .unmappedAccess path addr size write => Sys2Proof.Machine.execUnmappedAccess path addr size write s
  | .hostViol half addr size write => Sys2Proof.Machine.execHostViol half addr size write s
  | .wskDump path value => Sys2Proof.Machine.execWskDump path value s
  | .fabDeclare path node => Sys2Proof.Machine.execFabDeclare path node s
  | .rasInjectArm path loc bit addr => Sys2Proof.Machine.execRasInjectArm path loc bit addr s
  | .warm path => Sys2Proof.Machine.execWarm path s
  | .feed path => Sys2Proof.Machine.execFeed path s
  | .rstBlk path loc => Sys2Proof.Machine.execRstBlk path loc s
  | .watchdogExpiry => Sys2Proof.Machine.execWatchdogExpiry s
  | .powerOn => Sys2Proof.Machine.execPowerOn s
  | .resetN => Sys2Proof.Machine.execResetN s
  | .perstN half => Sys2Proof.Machine.execPerstN half s
  | .vin18Loss => Sys2Proof.Machine.execVin18Loss s
  | .vin18Good => Sys2Proof.Machine.execVin18Good s
  | .vaux18Loss => Sys2Proof.Machine.execVaux18Loss s
  | .startupStep bad nand => Sys2Proof.Machine.execStartupStep bad nand s
  | .s1Request path => Sys2Proof.Machine.execS1Request path s
  | .s1Entry => Sys2Proof.Machine.execS1Entry s
  | .s1HoldTimeout => Sys2Proof.Machine.execS1HoldTimeout s
  | .exitS1 path => Sys2Proof.Machine.execExit path s
  | .s3Request path => Sys2Proof.Machine.execS3Request path s
  | .s3Wake => Sys2Proof.Machine.execS3Wake s
  | .capEvaluation watts average => Sys2Proof.Machine.execCapEvaluation watts average s
  | .capMiss => Sys2Proof.Machine.execCapMiss s
  | .thermalEvaluation die hbm => Sys2Proof.Machine.execThermalEvaluation die hbm s
  | .thermalTrip loc => Sys2Proof.Machine.execThermalTrip loc s
  | .clockInputLoss input => Sys2Proof.Machine.execClockInputLoss input s
  | .ppsEdge => Sys2Proof.Machine.execPpsEdge s
  | .ptpMessage port offset => Sys2Proof.Machine.execPtpMessage port offset s
  | .timeSourceLoss => Sys2Proof.Machine.execTimeSourceLoss s
  | .ppsOutPulse n => Sys2Proof.Machine.execPpsOutPulse n s
  | .sramUncorrectable loc word syn held => Sys2Proof.Machine.execSramUncorrectable loc word syn held s
  | .hbmUncorrectable addr chan syn => Sys2Proof.Machine.execHbmUncorrectable addr chan syn s
  | .interRegionLinkLost a b => Sys2Proof.Machine.execInterRegionLinkLost a b s
  | .containmentTimeout region block => Sys2Proof.Machine.execContainmentTimeout region block s
  | .ceStorm loc hbm n => Sys2Proof.Machine.execCeStorm loc hbm n s
  | .patrolScrub stack fixed bad syn => Sys2Proof.Machine.execPatrolScrub stack fixed bad syn s
  | .blackBoxWrite => Sys2Proof.Machine.execBlackBoxWrite s
  | .mgmtLinkChange port up => Sys2Proof.Machine.execMgmtLinkChange port up s
  | .linkUp half gen width => Sys2Proof.Machine.execLinkUp half gen width s
  | .clockInputReturn input => Sys2Proof.Machine.execClockInputReturn input s
  | .blockRejoin region block => Sys2Proof.Machine.execBlockRejoin region block s
  | .promptStarved => Sys2Proof.Machine.execPromptStarved s
  | .syncInterval kind slave => Sys2Proof.Machine.execSyncInterval kind slave s

end Sys2Proof.Machine
end

