-- ==== Sys2Proof/Machine/Tick.lean ====
section
/-!
DEFINITION. What passes with time alone: the releases and the evictions that are under way go on, and the cycles in which runs are held without credit, or prompt work
waits for generation work, are counted.
-/
namespace Sys2Proof.Machine

/-- Cycles of CLK_FYL, of 1.6 GHz, in the `n` cycles of CLK_MGT, of 500 MHz, that begin at cycle `t` (R46). -/
def fylCycles (t n : Nat) : Nat := 16 * (t + n) / 5 - 16 * t / 5

/-- The releases in progress end (R113): every Basket that is RELEASING becomes FREE (DESIGN CHOICE that it is at the next tick, log entry 195). -/
def releasesEnd (k : Ctl) (d : Data) : Data :=
  (d.bsk.tab.filter (fun e => e.2.state == .releasing)).foldl (fun f e => (releaseEnd k f e.1).1) d

/-- Whether a run that is next on its READY QP is held by Spool `s` without credit (R232, R255). -/
def creditHeld (k : Ctl) (d : Data) (s : Nat) : Bool :=
  (headRuns d.spl.sendq []).any (fun r => r.from == s && (d.qp r.qp).state == .ready && decide (r.credit d < r.need k d))

/-- The Spool that a Spool message belongs to: by the receiving Basket of what arrives there, else by the sending one (R216). -/
def msgSpool (o : TxOp) : Nat := (if msgType o.inl = 2 then msgRecv o.inl else msgSend o.inl) % 4

/-- Whether QP `q` has a message of prompt work of Spool `s` to send next, while generation work is ready on the same link (R492, R240). -/
def egressYields (k : Ctl) (d : Data) (s q : Nat) : Bool :=
  match nextTx k d q, Data.pathOf k d q with
  | some (.op o), some l =>
    promptMsg k d o && msgSpool o == s &&
      d.ttx.qps.any (fun y => Data.pathOf k d y.1 == some l && (nextTx k d y.1).isSome && !promptNext k d y.1)
  | _, _ => false

/-- Whether prompt work of Spool `s` waits for generation work (R240): a run behind one that its Spool could send, or a message on a link. -/
def promptYields (k : Ctl) (d : Data) (s : Nat) : Bool :=
  let rs := readyRuns k d s
  k.role == 4 && ((rs.any (fun r => r.prompt k d) && rs.any (fun r => !r.prompt k d)) || d.ttx.qps.any (fun y => egressYields k d s y.1))

/-- The cycles of CLK_FYL that CREDIT_WAIT and PROMPT_YIELD of each Spool count over `n` ticks (R240, R255). -/
def countWaits (k : Ctl) (d : Data) (n : Nat) : Data :=
  let c := fylCycles d.tick n
  (List.range 4).foldl (fun e s =>
    let e1 := if creditHeld k d s then e.bump (splCnt s 4) c else e
    if promptYields k d s then e1.bump (splCnt s 6) c else e1) d

/-- Whether a release or an eviction is under way. -/
def Data.underWay (d : Data) : Bool :=
  d.bsk.tab.any (fun e => e.2.state == .releasing) || d.mat.evicts.any (fun e => e.running && !e.todo.isEmpty)

/-- `n` ticks of CLK_MGT pass over the data plane. -/
def passTicks (k : Ctl) (d : Data) (n : Nat) : Data :=
  let d1 := countWaits k d n
  let d2 := if d1.underWay then let e := evictTick k (releasesEnd k d1); kickAll k (settleCommits k e.adp.commits e) else d1
  { d2 with tick := d.tick + n }

end Sys2Proof.Machine
end

