-- ==== Sys2Proof/Machine/Step.lean ====
section
/-!
DEFINITION. One step: the command at the front of the queue, or on an empty queue one cycle of CLK_MGT.
-/
namespace Sys2Proof.Machine

/-- What the machine does with no command waiting: one CLK_MGT cycle passes (R640), with what time alone does in it. -/
def idle (s : State) : State :=
  { s with
    k := perstoRise (tickTime s.k)
    d := { passTicks s.k s.d 1 with tick := s.k.ticks + 1 } }

/-- One step. -/
def step (s : State) : Host.Outcome State Fault Refusal :=
  match s.pending with
  | [] => .next (idle s)
  | c :: rest => exec c { s with pending := rest }

/-- The state with the command that a word spells at the front of its queue. -/
def State.withFetchWord (s : State) (nbits w : Nat) : State :=
  match decodeTableWord nbits w with
  | some c => { s with pending := c :: s.pending }
  | none => s

end Sys2Proof.Machine
end

