-- ==== Sys2Proof/Machine/Wire.lean ====
section
/-!
DEFINITION. The bytes of a transport packet on the wire, from its base header to its trailer (R6, R423, R425, R427): every field of more than one byte stands in network byte
order. The commands carry packets as records; this is the image of one.
-/
namespace Sys2Proof.Machine

/-- The `n` low bytes of a value, most significant first (R6). -/
def bytesBE (n v : Nat) : List Byte := (bytesLE n v).reverse

/-- The 20-byte base header (R425). -/
def pktBase (p : Packet) : List Byte :=
  bytesBE 1 (2 ^ 4 + p.cls % 8 * 2 + b2n p.sec) ++ bytesBE 1 p.opcode ++ bytesBE 2 p.srcNode ++ bytesBE 2 p.dstNode ++ bytesBE 2 (p.dstQp % 2 ^ 14) ++
    bytesBE 1 (p.part % 16 * 2 ^ 4 + b2n p.ackReq * 2 ^ 3 + b2n p.first * 2 ^ 2 + b2n p.last * 2 + b2n p.retx) ++ bytesBE 1 p.incarn ++ bytesBE 3 p.psn ++
    bytesBE 3 0 ++ bytesBE 4 p.txTime

/-- The extension (R427). The spec places no FINAL in the extension of a WRITE, and lays out none of the fabric opcodes: their bytes are not shown (log entry 197). -/
def extImage : Ext → List Byte
  | .msg c n o => bytesBE 1 c ++ bytesBE 3 0 ++ bytesBE 4 n ++ bytesBE 4 o
  | .write t o n _ => bytesBE 4 t ++ bytesBE 8 (o % 2 ^ 48) ++ bytesBE 4 n
  | .atomic key o a b => bytesBE 4 key ++ bytesBE 4 0 ++ bytesBE 8 o ++ bytesBE 8 a ++ bytesBE 8 b
  | .ack psn st echo sack => bytesBE 4 (psn % 2 ^ 24 + st % 256 * 2 ^ 24) ++ bytesBE 4 echo ++ bytesBE 8 sack.toNat
  | .nak psn st => bytesBE 4 psn ++ bytesBE 1 st ++ bytesBE 3 0
  | .resp psn st v => bytesBE 4 psn ++ bytesBE 1 st ++ bytesBE 3 0 ++ bytesBE 8 v
  | .conn q inc pay sec st => bytesBE 2 q ++ bytesBE 1 inc ++ bytesBE 1 (pay % 4 + b2n sec * 4) ++ bytesBE 1 st ++ bytesBE 3 0
  | _ => []

/-- What the trailer covers: base header, extension, payload and, on a data packet of a SEC QP, the GCM tag (R423). -/
def pktCovered (p : Packet) (tag : List Byte) : List Byte := pktBase p ++ extImage p.ext ++ p.data ++ (if p.sec then tag else [])

/-- The packet from its base header to its trailer, the CRC-32C of what stands before it (R423, R167). -/
def pktImage (p : Packet) (tag : List Byte) : List Byte := pktCovered p tag ++ bytesBE 4 (crc32c (pktCovered p tag))

/-- The UDP source port: 0xC000 + QP number (R423). -/
def pktSrcPort (p : Packet) : Nat := 0xC000 + p.srcQp

end Sys2Proof.Machine
end

