-- ==== Sys2Proof/Safety.lean ====
section
/-!
DEFINITION. The terms that claims use: what it is for a command to complete, what a thread's instruction leaves unchanged, and the properties that every state of the block
should keep.
-/
namespace Sys2Proof.Machine

/-! ### Completion -/

/-- A command answers a next state that differs in the data plane only, of which `P` holds. -/
def Goes (c : Instr) (s : State) (P : Data → Prop) : Prop := ∃ d', exec c s = .next { s with d := d' } ∧ P d'

/-- A command answers a next state with the same queue, of which `P` holds. -/
def GoesBoth (c : Instr) (s : State) (P : Ctl → Data → Prop) : Prop := ∃ k' d', exec c s = .next { s with k := k', d := d' } ∧ P k' d'

/-! ### Threads -/

/-- Thread `t` is `th`, may issue an instruction, and reads 1 in predicate `p` (R61). -/
def Issues (d : Data) (t : Nat) (p : BitVec 2) (th : Thread) : Prop := d.thr t = some th ∧ th.running = true ∧ th.pReg p.toNat = true

/-- Thread `t` becomes `th'`, and nothing else of the data plane changes: no other thread, no byte of memory, no status bit, no counter. -/
def OnlyThread (d d' : Data) (t : Nat) (th' : Thread) : Prop :=
  d'.thr t = some th' ∧ (∀ u, u ≠ t → d'.thr u = d.thr u) ∧ d' = { d with fyl := { d.fyl with threads := d'.fyl.threads } }

/-- The scalars after `v` is written to scalar `rd`: s0 reads zero whatever is written to it (R61, R561). -/
def ScalarsAfter (th th' : Thread) (rd : Nat) (v : Word) : Prop := ∀ n, th'.sReg n = if n = rd ∧ n ≠ 0 then v else th.sReg n

/-- An instruction of `len` bytes has written `v` to scalar `rd` and nothing else of its thread. -/
def WroteScalar (th th' : Thread) (rd : Nat) (v : Word) (len : Nat) : Prop :=
  ScalarsAfter th th' rd v ∧ th' = { th with s := th'.s, pc := th.pc + len, issued := th.issued + 1 }

/-- An instruction of `len` bytes has written `v` to descriptor register `dd` and nothing else of its thread. -/
def WroteDesc (th th' : Thread) (dd : Nat) (v : Desc) (len : Nat) : Prop :=
  (∀ n, th'.dReg n = if n = dd then v else th.dReg n) ∧ th' = { th with d := th'.d, pc := th.pc + len, issued := th.issued + 1 }

/-- The predicates after `b` is written to predicate `pd`: p0 reads 1 whatever is written to it (R561). -/
def PredsAfter (th th' : Thread) (pd : Nat) (b : Bool) : Prop := ∀ n, n < 4 → th'.pReg n = if n = pd ∧ n ≠ 0 then b else th.pReg n

/-- An instruction of 4 bytes has written `b` to predicate `pd` and nothing else of its thread. -/
def WrotePred (th th' : Thread) (pd : Nat) (b : Bool) : Prop :=
  PredsAfter th th' pd b ∧ th' = { th with p1 := th'.p1, p2 := th'.p2, p3 := th'.p3, pc := th.pc + 4, issued := th.issued + 1 }

/-- The bytes of memory outside a range are as they were. -/
def SameOutside (d d' : Data) (a n : Nat) : Prop := ∀ i, i < a ∨ a + n ≤ i → memByte d'.mem i = memByte d.mem i

/-- R567: an access of `n` bytes at `a` that a partition's thread may make: naturally aligned, in the partition's plain range, outside the system area and every
committed meter and budget table. -/
def AccessOk (k : Ctl) (p a n : Nat) : Prop :=
  a % n = 0 ∧ k.plainBase p ≤ a ∧ a + n ≤ k.plainBase p + k.plainSize p ∧ k.sysTop ≤ a ∧ a + n ≤ plainTop ∧ k.inTables a n = false

/-- The 16 bytes of a completion word stand at an address (R75). -/
def HoldsCpl (d : Data) (a : Nat) (c : Cpl) : Prop := ∀ i, i < 16 → memByte d.mem (a + i) = c.bits.extractLsb' (8 * i) 8

/-- The end completion of a thread that had no operation outstanding has been posted to its ring, where the ring is VALID: the word at CPROD, and CPROD advanced by one;
the thread is gone, and no other byte of memory has changed (R77, R552). -/
def EndPosted (k : Ctl) (d d' : Data) (t : Nat) (th : Thread) (st : Status) (detail : Nat) : Prop :=
  let r := ringNo th.rt th.part (t / 4096)
  let a := k.ringCbase r + 16 * ((d.ring r).cprod % Nat.max 1 (k.ringSize r))
  d'.thr t = none ∧
  (k.ringOn r = true → (d'.ring r).cprod = ((d.ring r).cprod + 1) % 2 ^ 32 ∧ SameOutside d d' a 16 ∧
    HoldsCpl d' a { status := st, engine := 0, tag := th.tag, bsk := th.bsk, part := th.part, count := 0, detail := detail }) ∧
  (k.ringOn r = false → d'.mem = d.mem)

/-! ### Engine operations -/

/-- The operation that an issue puts into its engine's queue: the copy of d(DS), with the tag and pre-colour of s(TS) (R575, R576). -/
def newOp (k : Ctl) (th : Thread) (eng opc : Nat) (bsk : Option Nat) (ts : BitVec 5) (ds : BitVec 4) : Op :=
  { id := th.freshOp, eng := eng, op := opc, tag := fld (th.sReg ts.toNat) 0 16, pre := fld (th.sReg ts.toNat) 16 2, cls := th.cls, bsk := bsk,
    desc := th.dReg ds.toNat, started := false, done := none, since := k.ticks }

/-- Nothing keeps an operation from starting as it is issued: an entry of the thread's ring is free, no snapshot holds the partition, no earlier operation
of the thread waits for the engine, no meter judges it, and no `spec.commit` waits where it is a decode operation. -/
def Prompt (k : Ctl) (d : Data) (th : Thread) (o : Op) : Prop :=
  th.reserved < 32 ∧ d.heldPart th.part = false ∧ (∀ x ∈ th.ops, x.eng = o.eng → x.started = true ∨ x.done.isSome = true) ∧
  metering k d th o = .pass ∧ (o.decode = true → d.adp.commits = [])

/-- The thread has gone on behind the issue of `o`, and the engine has completed it. -/
def Completed (d' : Data) (t : Nat) (th : Thread) (o : Op) (st : Status) (count detail : Nat) : Prop :=
  ∃ th', d'.thr t = some th' ∧ th'.pc = th.pc + 4 ∧ { o with started := true, done := some (o.cpl th.part st count detail) } ∈ th'.ops

/-- The thread has gone on behind the issue of `o`, which its engine has started and will complete later. -/
def Started (d' : Data) (t : Nat) (th : Thread) (o : Op) : Prop :=
  ∃ th', d'.thr t = some th' ∧ th'.pc = th.pc + 4 ∧ { o with started := true } ∈ th'.ops

/-- A thread's operation `id` has completed. -/
def OpDone (d' : Data) (t id : Nat) (st : Status) (count detail : Nat) : Prop :=
  ∃ th' o c, d'.thr t = some th' ∧ o ∈ th'.ops ∧ o.id = id ∧ o.done = some c ∧ c.status = st ∧ c.count = count ∧ c.detail = detail

/-- `n` bytes at `a` are as those at `b` were. -/
def CopiedTo (d d' : Data) (a b n : Nat) : Prop := ∀ i, i < n → memByte d'.mem (a + i) = memByte d.mem (b + i)

/-- A Spool message waits to be sent on a QP (R225). -/
def SentSpool (d' : Data) (q : Nat) (bytes : List Byte) : Prop := ∃ o ∈ (d'.qp q).txq, o.consumer = 1 ∧ o.inl = bytes

/-- A message waits to be sent on a QP to its peer's engine. -/
def SentEngine (d' : Data) (q consumer : Nat) (bytes : List Byte) : Prop := ∃ o ∈ (d'.qp q).txq, o.consumer = consumer ∧ o.inl = bytes

/-- Every operation of every thread has finished, so that no engine has one to start. -/
def AllDone (d : Data) : Prop := ∀ e ∈ d.fyl.threads, ∀ o ∈ e.2.ops, o.done.isSome = true

/-- Basket `b` has become `x`, and the records of the other Baskets are as they were. -/
def BasketNow (d d' : Data) (b : Nat) (x : Basket) : Prop := d'.basket b = x ∧ ∀ c, c ≠ b → d'.basket c = d.basket c

/-! ### Tether -/

/-- A packet without a PSN of an opcode arrives whole at a Kratal that takes part in the transport, on a link that passes frames (R29, R404, R428). -/
def Arrives (k : Ctl) (d : Data) (port link opc : Nat) (pkt : Packet) : Prop :=
  k.nodeOn = true ∧ Data.carries k d (port, link) = true ∧ pkt.opcode = opc

/-- A packet with a PSN arrives whole, for a READY QP as it now is, and is the next that it expects, with none held behind it (R435). -/
def ArrivesNext (k : Ctl) (d : Data) (port link : Nat) (auth : Bool) (pkt : Packet) : Prop :=
  k.nodeOn = true ∧ Data.carries k d (port, link) = true ∧ (d.qp pkt.dstQp).state = .ready ∧ (d.qp pkt.dstQp).incarn = pkt.incarn ∧
  (d.qp pkt.dstQp).peerNode = pkt.srcNode ∧ (d.qp pkt.dstQp).sec = pkt.sec ∧ (pkt.sec = true → auth = true) ∧ (d.qp pkt.dstQp).epsn = pkt.psn ∧
  pkt.psn < 2 ^ 24 ∧ (d.qp pkt.dstQp).held = [] ∧ (d.qp pkt.dstQp).rx = none

/-- Nothing but its own operations rides QP `q`: no engine, no group and no region. -/
def Data.noRiders (d : Data) (q : Nat) : Prop :=
  (∀ e ∈ d.bsk.tab, ¬ (e.2.qpKnown = true ∧ e.2.qp = q)) ∧ (∀ o ∈ d.spl.pulls, o.qp ≠ q) ∧ (∀ o ∈ d.spl.offers, o.qp ≠ q) ∧ (∀ x ∈ d.spl.queries, x.2.2.1 ≠ q) ∧
  (∀ x ∈ d.adp.fetches, x.2.2.1 ≠ q) ∧ (∀ x ∈ d.mat.lookups, x.qp ≠ q) ∧ (∀ r ∈ d.spl.sendq ++ d.spl.flight, r.qp ≠ q) ∧ (∀ o ∈ d.spl.offerServes, o.qp ≠ q) ∧
  d.spl.waiting = [] ∧ (∀ e ∈ d.ttx.regions, q ∉ e.2.openOps) ∧ d.fab.groups = []

/-- QP `q` has become `x`, and the others are as they were. -/
def QpNow (d d' : Data) (q : Nat) (x : Qp) : Prop := d'.qp q = x ∧ ∀ j, j ≠ q → d'.qp j = d.qp j

/-- A thread's operation `id` is outstanding and not finished. -/
def Pending (d : Data) (t id : Nat) : Prop := ∃ th o, d.thr t = some th ∧ o ∈ th.ops ∧ o.id = id ∧ o.done = none

/-! ### Sessions and registers -/

/-- A session's command is heard and may be performed (R592, R593, R597): its channel is served, the session is open on that channel, its TAG verifies, its SEQ is not
below the next, and the device and the role admit the opcode. -/
def Ctl.mayCommand (k : Ctl) (c : SecCmd) (opc : Nat) (y : Session) : Prop :=
  k.serves c.chan = true ∧ Tab.get? k.sec.sessions c.session = some y ∧ y.chan = c.chan ∧ c.tagOk = true ∧ y.seq ≤ c.seq ∧
  k.admits c.chan opc = true ∧ mayIssue k.sec.recovery y.role opc = true

/-- The control plane once a session's command has been heard: its SEQ is spent and its idle time starts anew (R593, R595). -/
def Ctl.heard (k : Ctl) (c : SecCmd) (y : Session) : Ctl :=
  { k with sec := { k.sec with sessions := Tab.set k.sec.sessions c.session { y with
    seq := c.seq + 1
    last := k.ticks } } }

/-- The answer to a command waits in the black box's queue on its CHANGE record (R598). -/
def AnswerDue (d' : Data) (chan session opc : Nat) (st : Status) (seq : Nat) (body : List Byte) : Prop :=
  ∃ r ∈ d'.bbx.queue, r.kind = 2 ∧ r.answer = some ⟨chan, session, opc, st, seq, body⟩

/-- A command of a session is performed: the control plane becomes `k1`, memory stays, and its answer is OK with a body. -/
def Performed (i : Instr) (c : SecCmd) (opc : Nat) (body : List Byte) (s : State) (k1 : Ctl) : Prop :=
  GoesBoth i s (fun k' d' => k' = k1 ∧ d'.mem = s.d.mem ∧ AnswerDue d' c.chan c.session opc .ok c.seq body)

/-- A path may write the register word at an address other than GLB_ROLE: the role of its session, or the reach of its half (R589, R597). -/
def Ctl.pathWrites (k : Ctl) (path : Path) (a : Nat) : Prop :=
  a ≠ 0x0000040 ∧ match path with
  | .session n => ∀ v m, k.mayWrite n a v m = true
  | .half h => k.halfReach h a = true

/-- A path may read the register word at an address other than GLB_ROLE. -/
def Ctl.pathReads (k : Ctl) (path : Path) (a : Nat) : Prop :=
  a ≠ 0x0000040 ∧ match path with
  | .session n => k.mayRead n a = true
  | .half h => k.halfReach h a = true

/-- A whole access by a live path to a register word of a control space that answers (R12, R514, R657). -/
def WordAccess (s : State) (path : Path) (a : Nat) : Prop :=
  a % 8 = 0 ∧ targetOf a 8 = .word ∧ pathLive s.k s.d path = true ∧ s.k.spaceUp = true

/-- The staged word of an address takes the bits of `r` from `v` (R51). -/
def stageBits (k : Ctl) (a : Nat) (v r : Word) : Ctl :=
  let old := Tab.getD k.shell.staged a ⟨0#64, 0#64⟩
  { k with shell := { k.shell with staged := Tab.set k.shell.staged a ⟨(old.val &&& ~~~ r) ||| (v &&& r), old.mask ||| r⟩ } }

/-! ### Resets -/

/-- The machine right after a warm, cold or power-on reset: start-up at a step, from a source; no program, session, thread or Basket, every region in reset, and memory
with nothing written (R653, R654). -/
def AfterReset (k' : Ctl) (d' : Data) (stage source : Nat) : Prop :=
  k'.rst.stage = stage ∧ k'.rst.source = source ∧ k'.rst.ready = false ∧ k'.rst.fail = false ∧ k'.pwr.state = .run ∧ k'.progs = [] ∧ k'.sec.sessions = [] ∧
  k'.down = heldDown ∧ d'.mem = [] ∧ d'.fyl.threads = [] ∧ d'.bsk.tab = [] ∧ d'.ttx.qps = []

/-! ### What every state keeps -/

/-- Every word in force holds only bits that the register map defines, so that reserved bits read zero (R9). -/
def Ctl.cfgDefined (k : Ctl) : Prop := ∀ key v, (key, v) ∈ k.shell.cfg → v &&& ~~~ maskAt (fun _ => true) key = 0#64

/-- The memory is in its canonical form. -/
def Data.memCanon (d : Data) : Prop := memWf d.mem = true

/-- At most 8 sessions are open (R595), each number once. -/
def Ctl.sessionsBounded (k : Ctl) : Prop := k.sec.sessions.length ≤ 8 ∧ k.sec.sessions.Pairwise (fun x y => x.1 < y.1)

end Sys2Proof.Machine
end

