-- ==== Sys2Proof/Certificates/Slice0/Obligations.lean ====
section
/-!
DEFINITION. The statements for the provers.
-/
open Sys2Proof Sys2Proof.Machine

/-! ### The queue -/

/-- The step runs the command at the front of the queue, with the queue's rest. -/
def Obligations.StepRunsFrontCommand : Prop :=
  ∀ (s : State) (c : Instr) (rest : List Instr), s.pending = c :: rest → step s = exec c { s with pending := rest }

/-! ### The Fyley cores -/

/-- R564: each register form writes its result to sD, and nothing else changes. -/
def Obligations.ScalarRegisterForms : Prop :=
  ∀ (s : State) (t : Nat) (p : BitVec 2) (th : Thread) (rd ra rb : BitVec 5), Issues s.d t p th →
    let a := th.sReg ra.toNat
    let b := th.sReg rb.toNat
    let n := b.toNat % 64
    ∀ x ∈ ([
      (.add t p rd ra rb, fun v => v = a + b),
      (.sub t p rd ra rb, fun v => v = a - b),
      (.and t p rd ra rb, fun v => v = a &&& b),
      (.or t p rd ra rb, fun v => v = a ||| b),
      (.xor t p rd ra rb, fun v => v = a ^^^ b),
      (.andn t p rd ra rb, fun v => v = a &&& ~~~ b),
      (.shl t p rd ra rb, fun v => v = a <<< n),
      (.shr t p rd ra rb, fun v => v = a >>> n),
      (.sra t p rd ra rb, fun v => v = a.sshiftRight n),
      (.mul t p rd ra rb, fun v => v.toNat = a.toNat * b.toNat % 2 ^ 64),
      (.mulhu t p rd ra rb, fun v => v.toNat = a.toNat * b.toNat / 2 ^ 64),
      (.min t p rd ra rb, fun v => v = if a.toInt < b.toInt then a else b),
      (.minu t p rd ra rb, fun v => v = if a.toNat < b.toNat then a else b),
      (.max t p rd ra rb, fun v => v = if a.toInt < b.toInt then b else a),
      (.maxu t p rd ra rb, fun v => v = if a.toNat < b.toNat then b else a),
      (.clz t p rd ra, fun v => v.toNat ≤ 64 ∧ (∀ i, i < v.toNat → a.getLsbD (63 - i) = false) ∧ (v.toNat < 64 → a.getLsbD (63 - v.toNat) = true)),
      (.ctz t p rd ra, fun v => v.toNat ≤ 64 ∧ (∀ i, i < v.toNat → a.getLsbD i = false) ∧ (v.toNat < 64 → a.getLsbD v.toNat = true)),
      (.popc t p rd ra, fun v => v.toNat = ((List.range 64).filter (fun i => a.getLsbD i)).length)] : List (Instr × (Word → Prop))),
    Goes x.1 s (fun d' => ∃ th' v, OnlyThread s.d d' t th' ∧ WroteScalar th th' rd.toNat v 4 ∧ x.2 v)

/-- R565: each immediate form writes its result to sD, and nothing else changes; `li` and `lih` are long forms at a multiple of 8. -/
def Obligations.ScalarImmediateForms : Prop :=
  ∀ (s : State) (t : Nat) (p : BitVec 2) (th : Thread) (rd ra : BitVec 5) (imm : BitVec 14) (c : BitVec 6) (w : BitVec 32), Issues s.d t p th →
    let a := th.sReg ra.toNat
    (∀ x ∈ ([
      (.addi t p rd ra imm, a + imm.signExtend 64),
      (.andi t p rd ra imm, a &&& imm.setWidth 64),
      (.ori t p rd ra imm, a ||| imm.setWidth 64),
      (.xori t p rd ra imm, a ^^^ imm.setWidth 64),
      (.shli t p rd ra c, a <<< c.toNat),
      (.shri t p rd ra c, a >>> c.toNat),
      (.srai t p rd ra c, a.sshiftRight c.toNat)] : List (Instr × Word)),
    Goes x.1 s (fun d' => ∃ th', OnlyThread s.d d' t th' ∧ WroteScalar th th' rd.toNat x.2 4)) ∧
    (th.pc % 8 = 0 →
      Goes (.li t p rd w) s (fun d' => ∃ th', OnlyThread s.d d' t th' ∧ WroteScalar th th' rd.toNat (w.signExtend 64) 8) ∧
      Goes (.lih t p rd w) s (fun d' => ∃ th', OnlyThread s.d d' t th' ∧
        WroteScalar th th' rd.toNat (w ++ (th.sReg rd.toNat).setWidth 32 : BitVec 64) 8))

/-- R566: the compares and the predicate operations write pD, and nothing else changes. R61, R562: an instruction whose predicate reads 0 has no effect but its issue
cycle: the thread goes on behind it, and nothing else changes. -/
def Obligations.PredicateForms : Prop :=
  (∀ (s : State) (t : Nat) (p pd pa pb : BitVec 2) (th : Thread) (ra rb : BitVec 5) (imm : BitVec 14), Issues s.d t p th →
     let a := th.sReg ra.toNat
     let cmp := fun (c : Cond) (b : Word) =>
       match c with
       | .eq => decide (a = b)
       | .ne => decide (a ≠ b)
       | .lt => decide (a.toInt < b.toInt)
       | .ltu => decide (a.toNat < b.toNat)
       | .ge => decide (b.toInt ≤ a.toInt)
       | .geu => decide (b.toNat ≤ a.toNat)
     (∀ c x, x ∈ ([
       (.cmp t p pd c ra rb, cmp c (th.sReg rb.toNat)),
       (.cmpi t p pd c ra imm, cmp c (imm.signExtend 64)),
       (.pand t p pd pa pb, th.pReg pa.toNat && th.pReg pb.toNat),
       (.por t p pd pa pb, th.pReg pa.toNat || th.pReg pb.toNat),
       (.pnot t p pd pa, !th.pReg pa.toNat),
       (.pmov t p pd ra, decide (a ≠ 0#64))] : List (Instr × Bool)) →
     Goes x.1 s (fun d' => ∃ th', OnlyThread s.d d' t th' ∧ WrotePred th th' pd.toNat x.2))) ∧
  (∀ (s : State) (t : Nat) (p : BitVec 2) (th : Thread) (rd ra rb : BitVec 5) (dd : BitVec 4) (off : BitVec 12) (size : BitVec 2) (o : BitVec 24),
     s.d.thr t = some th → th.running = true → th.pReg p.toNat = false →
     ∀ c ∈ ([.add t p rd ra rb, .mulhu t p rd ra rb, .ld t p size rd ra off, .st t p size rd ra off, .descLd t p dd ra, .br t p o, .yield t p, .endThr t p ra,
         .flagSet t p ra rb, .dbRing t p rd ra rb, .bdlRelease t p rd dd, .bskAdmit t p rd dd, .tqSend t p rd dd, .blsWrite t p rd dd,
         .sailAttn t p rd dd] : List Instr),
       Goes c s (fun d' => OnlyThread s.d d' t { th with pc := th.pc + 4, issued := th.issued + 1 }))

/-- R567, R569, R570: a load that its rules allow, of data that is not poisoned, gives the bytes at its address to its destination register; one of poisoned data gives
them too and records POISON; memory stays as it is. The regulator of R493 must let it pass, and no plain stack that it meets is in reset (log entry 187). R567, R570: a store that its rules allow writes the low bytes of its
source register, least significant first, at its address and no other byte; its thread goes on. -/
def Obligations.LoadStoreForms : Prop :=
  (∀ (s : State) (t : Nat) (p : BitVec 2) (th : Thread) (size : BitVec 2) (rd ra : BitVec 5) (dd : BitVec 4) (off : BitVec 12), Issues s.d t p th →
     Data.mayGrant s.k s.d th.part 0 = true →
     let a := (th.sReg ra.toNat + off.signExtend 64).toNat
     let n := 2 ^ size.toNat
     let b := (th.sReg ra.toNat).toNat
     let acc := fun (x m : Nat) => if s.d.bad x m && th.acc.isNone then some (Status.poison, x % 2 ^ 48) else th.acc
     let rest := fun (d' : Data) => (∀ u, u ≠ t → d'.thr u = s.d.thr u) ∧ d' = { s.d with fyl := { s.d.fyl with threads := d'.fyl.threads }, trf := d'.trf }
     (AccessOk s.k th.part a n → s.k.plainDown a n = false → Goes (.ld t p size rd ra off) s (fun d' => rest d' ∧ ∃ th', d'.thr t = some { th' with acc := acc a n } ∧
       WroteScalar th th' rd.toNat (BitVec.ofNat 64 (ofBytesLE (memBytes s.d.mem a n))) 4)) ∧
     (AccessOk s.k th.part b 64 → s.k.plainDown b 64 = false → Goes (.descLd t p dd ra) s (fun d' => rest d' ∧ ∃ th', d'.thr t = some { th' with acc := acc b 64 } ∧
       WroteDesc th th' dd.toNat (BitVec.ofNat 512 (ofBytesLE (memBytes s.d.mem b 64))) 4))) ∧
  (∀ (s : State) (t : Nat) (p : BitVec 2) (th : Thread) (size : BitVec 2) (rs ra : BitVec 5) (ds : BitVec 4) (off : BitVec 12), Issues s.d t p th →
     let a := (th.sReg ra.toNat + off.signExtend 64).toNat
     let n := 2 ^ size.toNat
     let b := (th.sReg ra.toNat).toNat
     let rest := fun (d' : Data) => d'.thr t = some { th with pc := th.pc + 4, issued := th.issued + 1 } ∧ (∀ u, u ≠ t → d'.thr u = s.d.thr u) ∧
       d'.mbx = s.d.mbx ∧ d'.bsk = s.d.bsk ∧ d'.sts = s.d.sts ∧ d'.cnt = s.d.cnt
     (AccessOk s.k th.part a n → s.k.plainDown a n = false → Goes (.st t p size rs ra off) s (fun d' => rest d' ∧ SameOutside s.d d' a n ∧
       ∀ i, i < n → memByte d'.mem (a + i) = (th.sReg rs.toNat).extractLsb' (8 * i) 8)) ∧
     (AccessOk s.k th.part b 64 → s.k.plainDown b 64 = false → Goes (.descSt t p ds ra) s (fun d' => rest d' ∧ SameOutside s.d d' b 64 ∧
       ∀ i, i < 64 → memByte d'.mem (b + i) = (th.dReg ds.toNat).extractLsb' (8 * i) 8)))

/-- R567, R569: an access that breaks a rule does not fault: a load returns zero, a store is dropped, and the access status records the first failure, BAD_DESC for a
misaligned address and PERM for one outside the thread's ranges. R348: the Basket records, the handoff ledgers and the push contexts stand at such addresses. -/
def Obligations.AccessRefused : Prop :=
  ∀ (s : State) (t : Nat) (p : BitVec 2) (th : Thread) (size : BitVec 2) (rd ra : BitVec 5) (dd : BitVec 4) (off : BitVec 12), Issues s.d t p th →
    let a := (th.sReg ra.toNat + off.signExtend 64).toNat
    let n := 2 ^ size.toNat
    let b := (th.sReg ra.toNat).toNat
    let acc := fun (x m : Nat) => if th.acc.isNone then some (if x % m ≠ 0 then Status.badDesc else Status.perm, x % 2 ^ 48) else th.acc
    (¬ AccessOk s.k th.part a n →
      Goes (.ld t p size rd ra off) s (fun d' => ∃ th', OnlyThread s.d d' t { th' with acc := acc a n } ∧ WroteScalar th th' rd.toNat 0#64 4) ∧
      Goes (.st t p size rd ra off) s (fun d' => OnlyThread s.d d' t { th with acc := acc a n, pc := th.pc + 4, issued := th.issued + 1 })) ∧
    (∀ x m, 0 < m → m ≤ 16 → (∃ i, i < 1048576 ∧ x = basketDpa i) ∨ (∃ q e, q < 8192 ∧ e < 64 ∧ x = ledgerDpa q e) ∨ (∃ r c, r < 4 ∧ c < 4096 ∧ x = ctxDpa r c) →
      ¬ AccessOk s.k th.part x m ∧ s.k.dpaCheck th.part x m false = some .perm) ∧
    (¬ AccessOk s.k th.part b 64 →
      Goes (.descLd t p dd ra) s (fun d' => ∃ th', OnlyThread s.d d' t { th' with acc := acc b 64 } ∧ WroteDesc th th' dd.toNat 0#512 4) ∧
      Goes (.descSt t p dd ra) s (fun d' => OnlyThread s.d d' t { th with acc := acc b 64, pc := th.pc + 4, issued := th.issued + 1 }))

/-- R570: the descriptor-field instructions: bit by bit, with bits beyond 511 dropped or read as zero; nothing else changes. -/
def Obligations.DescriptorFields : Prop :=
  ∀ (s : State) (t : Nat) (p : BitVec 2) (th : Thread) (dd ds : BitVec 4) (rd ra : BitVec 5) (pos : BitVec 9) (w1 : BitVec 6) (imm : BitVec 32),
    Issues s.d t p th →
    let old := th.dReg dd.toNat
    let in_ := fun (i : Nat) => pos.toNat ≤ i ∧ i ≤ pos.toNat + w1.toNat
    let set := fun (src : Nat → Bool) (v : Desc) =>
      ∀ i, i < 512 → ((in_ i → v.getLsbD i = src (i - pos.toNat)) ∧ (¬ in_ i → v.getLsbD i = old.getLsbD i))
    Goes (.descSet t p dd ra pos w1) s (fun d' => ∃ th' v, OnlyThread s.d d' t th' ∧ WroteDesc th th' dd.toNat v 4 ∧
      set (fun j => (th.sReg ra.toNat).getLsbD j) v) ∧
    (th.pc % 8 = 0 → w1.toNat < 32 → Goes (.descSeti t p dd pos w1 imm) s (fun d' => ∃ th' v, OnlyThread s.d d' t th' ∧ WroteDesc th th' dd.toNat v 8 ∧
      set (fun j => imm.getLsbD j) v)) ∧
    Goes (.descGet t p rd ds pos w1) s (fun d' => ∃ th' v, OnlyThread s.d d' t th' ∧ WroteScalar th th' rd.toNat v 4 ∧
      ∀ i, i < 64 → v.getLsbD i = (decide (i ≤ w1.toNat) && (th.dReg ds.toNat).getLsbD (pos.toNat + i))) ∧
    Goes (.descClr t p dd) s (fun d' => ∃ th', OnlyThread s.d d' t th' ∧ WroteDesc th th' dd.toNat 0#512 4) ∧
    Goes (.descMov t p dd ds) s (fun d' => ∃ th', OnlyThread s.d d' t th' ∧ WroteDesc th th' dd.toNat (th.dReg ds.toNat) 4)

/-- R571: a branch to a byte of its program goes there; `jal` writes its own address + 4 to sD; `jr` ignores bits [1:0]. Nothing else changes. -/
def Obligations.BranchForms : Prop :=
  ∀ (s : State) (t : Nat) (p : BitVec 2) (th : Thread) (rd ra : BitVec 5) (o : BitVec 24) (j : BitVec 19) (x : Nat), Issues s.d t p th →
    x < s.k.progBytes th →
    ((x : Int) = th.pc + 4 * o.toInt → Goes (.br t p o) s (fun d' => OnlyThread s.d d' t { th with pc := x, issued := th.issued + 1 })) ∧
    ((x : Int) = th.pc + 4 * j.toInt → Goes (.jal t p rd j) s (fun d' => ∃ th', OnlyThread s.d d' t th' ∧
      ScalarsAfter th th' rd.toNat (BitVec.ofNat 64 (th.pc + 4)) ∧ th' = { th with s := th'.s, pc := x, issued := th.issued + 1 })) ∧
    (x = (th.sReg ra.toNat).toNat / 4 * 4 → Goes (.jr t p ra) s (fun d' => OnlyThread s.d d' t { th with pc := x, issued := th.issued + 1 }))

/-- R573, R572, R65, R581: `yield` gives up the slot, and s8 to s31 and d0 to d15 that the declaration does not name read zero from then on; `live` sets the declaration;
`fence` only goes on. -/
def Obligations.YieldLiveFence : Prop :=
  ∀ (s : State) (t : Nat) (p : BitVec 2) (th : Thread) (dm : BitVec 16) (sm : BitVec 24), Issues s.d t p th →
    (∀ c sl, th.run = .inSlot c sl → th.rt = false → Goes (.yield t p) s (fun d' => ∃ th', OnlyThread s.d d' t th' ∧
      th' = { th with s := th'.s, d := th'.d, pc := th.pc + 4, issued := th.issued + 1, run := .leaving c sl, wait := none } ∧
      (∀ n, n < 32 → th'.sReg n = if n < 8 ∨ th.smask.getLsbD (n - 8) then th.sReg n else 0#64) ∧
      (∀ n, n < 16 → th'.dReg n = if th.dmask.getLsbD n then th.dReg n else 0#512))) ∧
    (th.pc % 8 = 0 → Goes (.live t p dm sm) s (fun d' => OnlyThread s.d d' t { th with dmask := dm, smask := sm, pc := th.pc + 8, issued := th.issued + 1 })) ∧
    Goes (.fence t p) s (fun d' => OnlyThread s.d d' t { th with pc := th.pc + 4, issued := th.issued + 1 })

/-- R586: what `sys.get` gives for each SEL; SEL 4 and 5 clear what they read. -/
def Obligations.SysGetForms : Prop :=
  ∀ (s : State) (t : Nat) (p : BitVec 2) (th : Thread) (rd : BitVec 5), Issues s.d t p th →
    let gives := fun (sel : BitVec 9) (v : Word) (after : Thread) => Goes (.sysGet t p rd sel) s (fun d' => ∃ th', OnlyThread s.d d' t th' ∧
      ScalarsAfter th th' rd.toNat v ∧ th' = { after with s := th'.s, pc := th.pc + 4, issued := th.issued + 1 })
    gives 0 (BitVec.ofNat 64 s.k.ns) { th with frac := s.k.frac / 2 ^ 16 } ∧
    gives 1 (BitVec.ofNat 64 (th.frac % 2 ^ 16)) th ∧
    (∀ c sl, th.run = .inSlot c sl → ∃ v, gives 2 v th ∧ fld v 0 20 = (match th.bsk with | some b => b % 2 ^ 20 | none => 0xFFFFF) ∧
      fld v 20 4 = th.part % 16 ∧ fld v 24 4 = t / 4096 % 16 ∧ fld v 28 2 = c % 4 ∧ fld v 30 3 = sl % 8 ∧ fld v 33 3 = th.cls % 8 ∧
      fld v 36 1 = (if th.rt then 1 else 0) ∧ fld v 37 16 = th.prog % 2 ^ 16 ∧ fld v 53 1 = (if th.bsk.isNone then 1 else 0)) ∧
    gives 3 (BitVec.ofNat 64 (th.ops.length % 64 + th.held.length % 64 * 2 ^ 8)) th ∧
    gives 4 (match th.acc with | some (st, a) => BitVec.ofNat 64 (st.code + a * 2 ^ 16) | none => 0#64) { th with acc := none } ∧
    gives 5 (match th.lost with | some (st, g) => BitVec.ofNat 64 (st.code + g * 2 ^ 16) | none => 0#64) { th with lost := none }

/-- R579: `wait.tag` and `wait.any` take the oldest held completion that they may, write it to d(DD)[127:0] where WR is 1, and set pD where its status is outside class
0x0. R579: `wait.all` with nothing outstanding discards every held completion; pD is set, and d(DD)[127:0] receives the oldest outside class 0x0, where there is one,
else OK with the number discarded. R579, R65: a wait for which nothing is held and an operation is outstanding leaves the slot and waits. -/
def Obligations.WaitForms : Prop :=
  (∀ (s : State) (t : Nat) (p pd : BitVec 2) (th : Thread) (ts : BitVec 5) (dd : BitVec 4) (wr : Bool) (before after : List Cpl) (c : Cpl), Issues s.d t p th →
     th.held = before ++ c :: after →
     let post := fun (d' : Data) => ∃ th', OnlyThread s.d d' t th' ∧ PredsAfter th th' pd.toNat (decide (16 ≤ c.status.code)) ∧
       (∀ n, n ≠ dd.toNat → th'.dReg n = th.dReg n) ∧
       (∀ i, i < 512 → (th'.dReg dd.toNat).getLsbD i = if wr = true ∧ i < 128 then c.bits.getLsbD i else (th.dReg dd.toNat).getLsbD i) ∧
       th' = { th with d := th'.d, p1 := th'.p1, p2 := th'.p2, p3 := th'.p3, held := before ++ after, pc := th.pc + 4, issued := th.issued + 1 }
     (c.tag = fld (th.sReg ts.toNat) 0 16 → (∀ x ∈ before, x.tag ≠ c.tag) → Goes (.waitTag t p ts dd wr pd) s post) ∧
     (before = [] → Goes (.waitAny t p dd wr pd) s post)) ∧
  (∀ (s : State) (t : Nat) (p pd : BitVec 2) (th : Thread) (dd : BitVec 4) (wr : Bool), Issues s.d t p th → th.ops = [] →
     let bad := th.held.find? (fun c => decide (16 ≤ c.status.code))
     let word := match bad with
       | some c => c
       | none => { status := .ok, engine := 0, tag := 0, bsk := th.bsk, part := th.part, count := th.held.length, detail := 0 }
     Goes (.waitAll t p dd wr pd) s (fun d' => ∃ th', OnlyThread s.d d' t th' ∧ PredsAfter th th' pd.toNat bad.isSome ∧
       (∀ i, i < 512 → (th'.dReg dd.toNat).getLsbD i = if wr = true ∧ i < 128 then word.bits.getLsbD i else (th.dReg dd.toNat).getLsbD i) ∧
       th' = { th with d := th'.d, p1 := th'.p1, p2 := th'.p2, p3 := th'.p3, held := [], pc := th.pc + 4, issued := th.issued + 1 })) ∧
  (∀ (s : State) (t : Nat) (p pd : BitVec 2) (th : Thread) (ts : BitVec 5) (dd : BitVec 4) (wr : Bool) (o : Op) (c sl : Nat), Issues s.d t p th →
     th.run = .inSlot c sl → th.rt = false → o ∈ th.ops →
     let post := fun (w : Wait) (d' : Data) => ∃ th', OnlyThread s.d d' t th' ∧ th' = { th with s := th'.s, d := th'.d, run := .leaving c sl, wait := some w }
     (o.tag = fld (th.sReg ts.toNat) 0 16 → (∀ x ∈ th.held, x.tag ≠ o.tag) → Goes (.waitTag t p ts dd wr pd) s (post (.tag o.tag dd.toNat wr pd.toNat))) ∧
     (th.held = [] → Goes (.waitAny t p dd wr pd) s (post (.any dd.toNat wr pd.toNat))) ∧
     Goes (.waitAll t p dd wr pd) s (post (.all dd.toNat wr pd.toNat)))

/-- R77, R574: `end` of a thread with nothing outstanding, which holds no adapter pin, frees its frame and posts its end completion with the status in sA[7:0], or
BAD_DESC for a value that R80 does not list. R77: `end` with operations outstanding waits for them: the completions held are discarded, and the thread issues nothing
more. -/
def Obligations.ThreadEnds : Prop :=
  (∀ (s : State) (t : Nat) (p : BitVec 2) (th : Thread) (ra : BitVec 5) (st : Status), Issues s.d t p th → th.ops = [] →
     (∀ x ∈ s.d.adp.pins, x.1 ≠ t) → Tab.get? s.d.fyl.owed t = none →
     (fld (th.sReg ra.toNat) 0 8 = st.code ∨ (st = .badDesc ∧ ∀ u : Status, fld (th.sReg ra.toNat) 0 8 ≠ u.code)) →
     Goes (.endThr t p ra) s (fun d' => EndPosted s.k s.d d' t th st 0)) ∧
  (∀ (s : State) (t : Nat) (p : BitVec 2) (th : Thread) (ra : BitVec 5), Issues s.d t p th → th.ops ≠ [] →
     Goes (.endThr t p ra) s (fun d' => ∃ th' st, OnlyThread s.d d' t th' ∧ th'.ending = some (st, 0) ∧ th'.held = [] ∧ th'.ops = th.ops ∧ th'.running = false))

/-- R78: a thread that meets a word whose MAJOR is undefined faults: it ends with BAD_DESC and the byte offset of the instruction, and FAULT is set and counted. -/
def Obligations.UndefinedEncodingFaults : Prop :=
  ∀ (s : State) (t : Nat) (th : Thread) (w0 w1 : BitVec 32), s.d.thr t = some th → th.running = true → (fld w0 26 6 = 0 ∨ 0x21 ≤ fld w0 26 6) →
    th.ops = [] → (∀ x ∈ s.d.adp.pins, x.1 ≠ t) → Tab.get? s.d.fyl.owed t = none → s.d.cntVal (cntAddr 0x10 (t / 4096) 2) < 2 ^ 64 - 1 →
    Goes (.undefinedEncodingFault t w0 w1) s (fun d' => EndPosted s.k s.d d' t th .badDesc th.pc ∧ d'.stsBit 0x1000080 0 = true ∧
      d'.cntVal (cntAddr 0x10 (t / 4096) 2) = s.d.cntVal (cntAddr 0x10 (t / 4096) 2) + 1)

/-- R583, R547: the flag instructions on a cell of the partition's range, whose region is not fenced (R40, log entry 187). R549: a write that makes a waiting thread's condition true keeps the value for it, and that
thread then becomes ready with the value the write stored. -/
def Obligations.FlagForms : Prop :=
  (∀ (s : State) (t : Nat) (p : BitVec 2) (th : Thread) (rd ra rb : BitVec 5) (cc : BitVec 2), Issues s.d t p th →
     (th.sReg ra.toNat).toNat < (s.k.frange th.part).2 →
     let cell := (s.k.frange th.part).1 + (th.sReg ra.toNat).toNat
     s.k.down.contains (64 * (cell % 4) + 63) = false →
     let old := Tab.getD s.d.mbx.flags cell 0#64
     let b := th.sReg rb.toNat
     let cellAfter := fun (d' : Data) (v : Word) => d'.mem = s.d.mem ∧ ∀ i, Tab.getD d'.mbx.flags i 0#64 = if i = cell then v else Tab.getD s.d.mbx.flags i 0#64
     Goes (.flagSet t p ra rb) s (fun d' => cellAfter d' b ∧ d'.thr t = some { th with pc := th.pc + 4, issued := th.issued + 1 }) ∧
     Goes (.flagAdd t p rd ra rb) s (fun d' => cellAfter d' (old + b) ∧ ∃ th', d'.thr t = some th' ∧ WroteScalar th th' rd.toNat old 4) ∧
     Goes (.flagRead t p rd ra) s (fun d' => ∃ th', OnlyThread s.d d' t th' ∧ WroteScalar th th' rd.toNat old 4) ∧
     (((cc = 0#2 ∧ old = b) ∨ (cc = 1#2 ∧ old ≠ b) ∨ (cc = 2#2 ∧ (old - b).toInt < 0) ∨ (cc = 3#2 ∧ 0 ≤ (old - b).toInt)) →
       Goes (.flagWait t p rd ra rb cc) s (fun d' => ∃ th', OnlyThread s.d d' t th' ∧ WroteScalar th th' rd.toNat old 4))) ∧
  (∀ (s : State) (t u : Nat) (p : BitVec 2) (th w : Thread) (ra rb : BitVec 5) (cc rd : Nat) (x : Word), Issues s.d t p th →
     (th.sReg ra.toNat).toNat < (s.k.frange th.part).2 → u ≠ t → s.d.thr u = some w →
     s.k.down.contains (64 * (((s.k.frange th.part).1 + (th.sReg ra.toNat).toNat) % 4) + 63) = false →
     w.wait = some (.flag ((s.k.frange th.part).1 + (th.sReg ra.toNat).toNat) cc x rd) → flagCond cc (th.sReg rb.toNat) x = true → w.run = .waiting →
     Goes (.flagSet t p ra rb) s (fun d' =>
       d'.thr u = some { w with wait := some (.flagMet rd (th.sReg rb.toNat)) } ∧
       ∀ s' : State, s'.d = d' → Goes (.flagWaiterWake u) s' (fun d'' => ∃ w', d''.thr u = some w' ∧ w'.run = .ready ∧ w'.wait = none ∧ w'.pc = w.pc + 4 ∧
         ScalarsAfter w w' rd (th.sReg rb.toNat) ∧ u ∈ d''.fyl.readyQ)))

/-- R545, R584: what the mailbox and doorbell instructions do on an enabled channel of the partition, from 1 to 31. R545: an instruction that names channel 0, a secure
channel or a channel of another partition completes with PERM, and one that names a channel that is not enabled with CFG_INVALID; nothing but the thread changes. -/
def Obligations.MailboxForms : Prop :=
  (∀ (s : State) (t : Nat) (p : BitVec 2) (th : Thread) (rd ra rb : BitVec 5) (wait : Bool) (c : Nat), Issues s.d t p th →
     c = fld (th.sReg ra.toNat) 0 6 → 0 < c → c < 32 → s.k.chPart c = th.part → s.k.chOn c = true →
     let ch := s.d.chan c
     let mask : BitVec 32 := (th.sReg rb.toNat).setWidth 32
     let others := fun (d' : Data) => d'.mem = s.d.mem ∧ (∀ i, i ≠ c → d'.chan i = s.d.chan i) ∧ (∀ u, u ≠ t → d'.thr u = s.d.thr u)
     let wrote := fun (d' : Data) (st : Status) => ∃ th', d'.thr t = some th' ∧ WroteScalar th th' rd.toNat (BitVec.ofNat 64 st.code) 4
     (rb.toNat % 2 = 0 → rb.toNat < 31 → ch.outFull = false → Goes (.mbxPost t p rd ra rb) s (fun d' => others d' ∧ wrote d' .ok ∧
       d'.chan c = { ch with outPtr := th.sReg rb.toNat, outHi := th.sReg (rb.toNat + 1), outFull := true })) ∧
     (rb.toNat % 2 = 0 → rb.toNat < 31 → ch.outFull = true → Goes (.mbxPost t p rd ra rb) s (fun d' => others d' ∧ wrote d' .noSpace ∧ d'.chan c = ch)) ∧
     (rb.toNat % 2 = 0 → rb.toNat < 31 → ch.inFull = true → rd ≠ rb → rd.toNat ≠ rb.toNat + 1 → Goes (.mbxTake t p rd ra rb wait) s (fun d' => others d' ∧
       d'.chan c = { ch with inFull := false } ∧ ∃ th', d'.thr t = some th' ∧ th'.sReg rb.toNat = (if rb = 0 then 0#64 else ch.inPtr) ∧
         th'.sReg (rb.toNat + 1) = ch.inHi ∧ th'.sReg rd.toNat = 0#64 ∧ th'.pc = th.pc + 4)) ∧
     (rb.toNat % 2 = 0 → rb.toNat < 31 → ch.inFull = false → Goes (.mbxTake t p rd ra rb false) s (fun d' => others d' ∧ wrote d' .okEmpty ∧ d'.chan c = ch)) ∧
     Goes (.dbRing t p rd ra rb) s (fun d' => others d' ∧ wrote d' .ok ∧ d'.chan c = { ch with dbH := ch.dbH ||| mask }) ∧
     (rd ≠ rb → Goes (.dbTake t p rd ra rb) s (fun d' => others d' ∧ d'.chan c = { ch with dbK := ch.dbK &&& ~~~ mask } ∧ ∃ th', d'.thr t = some th' ∧
       (rb ≠ 0 → th'.sReg rb.toNat = (ch.dbK &&& mask).setWidth 64) ∧
       (rd ≠ 0 → th'.sReg rd.toNat = BitVec.ofNat 64 (if ch.dbK &&& mask = 0#32 then 1 else 0)) ∧ th'.pc = th.pc + 4)) ∧
     (rd ≠ rb → ch.dbK &&& mask ≠ 0#32 → Goes (.dbWait t p rd ra rb) s (fun d' => others d' ∧ d'.chan c = ch ∧ ∃ th', d'.thr t = some th' ∧
       (rb ≠ 0 → th'.sReg rb.toNat = (ch.dbK &&& mask).setWidth 64) ∧ th'.sReg rd.toNat = 0#64 ∧ th'.pc = th.pc + 4))) ∧
  (∀ (s : State) (t : Nat) (p : BitVec 2) (th : Thread) (rd ra rb : BitVec 5) (wait : Bool) (st : Status), Issues s.d t p th →
     rb.toNat % 2 = 0 → rb.toNat < 31 →
     let c := fld (th.sReg ra.toNat) 0 6
     let foreign := c = 0 ∨ 32 ≤ c ∨ s.k.chPart c ≠ th.part
     (foreign ∧ st = .perm) ∨ (¬ foreign ∧ s.k.chOn c = false ∧ st = .cfgInvalid) →
     ∀ i ∈ ([.mbxPost t p rd ra rb, .mbxTake t p rd ra rb wait, .dbRing t p rd ra rb, .dbTake t p rd ra rb, .dbWait t p rd ra rb] : List Instr),
       Goes i s (fun d' => ∃ th', OnlyThread s.d d' t th' ∧ WroteScalar th th' rd.toNat (BitVec.ofNat 64 st.code) 4))

/-- R585, R551: `thr.launch` writes d(DS) as entry PROD of its partition's ring on the tile and advances PROD by one, where that ring is VALID, fed by threads and not full;
only those 64 bytes of memory change. -/
def Obligations.ThreadLaunchQueues : Prop :=
  ∀ (s : State) (t : Nat) (p : BitVec 2) (th : Thread) (rd : BitVec 5) (ds tile : BitVec 4), Issues s.d t p th →
    let r := 16 * th.part + tile.toNat
    let g := s.d.ring r
    let a := s.k.ringBase r + 64 * (g.prod % Nat.max 1 (s.k.ringSize r))
    s.k.ringOn r = true → s.k.ringThreads r = true → (g.prod + 2 ^ 32 - g.cprod) % 2 ^ 32 ≠ s.k.ringSize r →
    Goes (.thrLaunch t p rd ds tile false) s (fun d' => (∃ th', d'.thr t = some th' ∧ WroteScalar th th' rd.toNat 0#64 4) ∧
      d'.ring r = { g with prod := (g.prod + 1) % 2 ^ 32 } ∧ SameOutside s.d d' a 64 ∧
      ∀ i, i < 64 → memByte d'.mem (a + i) = (th.dReg ds.toNat).extractLsb' (8 * i) 8)

/-! ### Baskets and engine issues -/

/-- R582: `bsk.load` reads a word of a record of the thread's partition, which its cache slice then holds (R97), whatever the Basket's state; `bsk.store` changes exactly the bits that sM selects, where each of
them is a program's to write. Memory and the other Baskets stay as they are. -/
def Obligations.BasketWords : Prop :=
  ∀ (s : State) (t : Nat) (p : BitVec 2) (th : Thread) (rv rb rm rs w : BitVec 5), Issues s.d t p th → th.pc % 8 = 0 →
    let b := fld (th.sReg rb.toNat) 0 20
    let x := s.d.basket b
    let m := th.sReg rm.toNat
    let v := th.sReg rv.toNat
    s.k.bskPart b = some th.part → x.lost = false →
    Goes (.bskLoad t p rv rb w rs) s (fun d' => ∃ th', OnlyThread (s.d.touchRec b false) d' t th' ∧
      th' = { th with s := th'.s, pc := th.pc + 8, issued := th.issued + 1 } ∧
      ∀ n, th'.sReg n = if n = rs.toNat ∧ n ≠ 0 then BitVec.ofNat 64 (match x.state with | .free => Status.notAnchor.code | .orphaned => Status.orphaned.code | _ => 0)
        else if n = rv.toNat ∧ n ≠ 0 then x.word w.toNat else th.sReg n) ∧
    (x.state ≠ .free → x.state ≠ .orphaned → m ≠ 0#64 → m &&& ~~~ x.writeMask w.toNat = 0#64 →
      Goes (.bskStore t p rv rb rm w rs) s (fun d' => (∃ th', d'.thr t = some th' ∧ WroteScalar th th' rs.toNat 0#64 8) ∧ d'.mem = s.d.mem ∧
        (∀ c, c ≠ b → d'.basket c = s.d.basket c) ∧
        ∀ i, i < 32 → (d'.basket b).word i = if i = w.toNat then (x.word i &&& ~~~ m) ||| (v &&& m) else x.word i))

/-- R573, R575, R576, R489: an engine issue copies d(DS) with the tag and pre-colour of s(TS) into its engine's queue and goes on; behind an earlier operation of its
thread that the engine has not started, it waits there, and nothing else changes. R73, R580: an issue that finds all 32 entries of the thread's ring reserved, with
an operation outstanding, yields and is made when the thread runs again; the thread's registers that its declaration names, its pc and its operations stay. -/
def Obligations.IssueQueues : Prop :=
  (∀ (s : State) (t : Nat) (p : BitVec 2) (th : Thread) (ts : BitVec 5) (ds : BitVec 4), Issues s.d t p th → th.reserved < 32 → s.d.heldPart th.part = false →
     let x := th.dReg ds.toNat
     let named := some (df x 0 0 20)
     let goes := fun (i : Instr) (eng opc : Nat) (bsk : Option Nat) =>
       (∃ o ∈ th.ops, o.eng = eng ∧ o.started = false ∧ o.done = none) →
       Goes i s (fun d' => ∃ w, OnlyThread s.d d' t { th with
         ops := th.ops ++ [newOp s.k th eng opc bsk ts ds]
         nextOp := th.freshOp + 1
         wait := w
         pc := th.pc + 4
         issued := th.issued + 1 } ∧ (w = none ∨ (eng = 7 ∧ opc = 0 ∧ w = some (.block th.freshOp))))
     (∀ y ∈ ([(.pushLayer t p ts ds, 1, 0), (.pushEnd t p ts ds, 1, 1), (.pullPages t p ts ds, 1, 2), (.feedLayer t p ts ds, 1, 3), (.pushPrefix t p ts ds, 1, 4)] :
         List (Instr × Nat × Nat)), goes y.1 y.2.1 y.2.2 th.bsk) ∧
     (∀ y ∈ ([(.kvwMap t p ts ds, 9, 0), (.kvwUnmap t p ts ds, 9, 1), (.kvAppend t p ts ds, 9, 2), (.sailAttn t p ts ds, 2, 2), (.bskRelease t p ts ds, 10, 1),
         (.bskQuery t p ts ds, 10, 2), (.bskPark t p ts ds, 10, 3), (.bskResume t p ts ds, 10, 4), (.bskUnhold t p ts ds, 10, 5), (.bskPrefill t p ts ds, 10, 13),
         (.specCommit t p ts ds, 10, 12), (.budCharge t p ts ds, 11, 0)] : List (Instr × Nat × Nat)), goes y.1 y.2.1 y.2.2 named) ∧
     (∀ y ∈ ([(.bdlRelease t p ts ds, 1, 5), (.sailCmd t p ts ds, 2, 0), (.sailFence t p ts ds, 2, 1), (.sailDelta t p ts ds, 2, 3), (.mrgOpen t p ts ds, 3, 0),
         (.envPack t p ts ds, 4, 0), (.envUnpack t p ts ds, 4, 1), (.matSearch t p ts ds, 5, 0), (.matInsert t p ts ds, 5, 1), (.matDelete t p ts ds, 5, 2),
         (.matSpread t p ts ds, 5, 3), (.matHash t p ts ds, 5, 4), (.matRun t p ts ds, 5, 5), (.tieEvict t p ts ds, 5, 6), (.qpCreate t p ts ds, 6, 0),
         (.qpConnect t p ts ds, 6, 1), (.qpDestroy t p ts ds, 6, 2), (.tqSend t p ts ds, 6, 3), (.tqRecv t p ts ds, 6, 4), (.tqWrite t p ts ds, 6, 5),
         (.tqFadd t p ts ds, 6, 6), (.tqCas t p ts ds, 6, 7), (.tqReg t p ts ds, 6, 8), (.tqRevoke t p ts ds, 6, 9), (.fabLoad t p ts ds, 7, 0),
         (.fabStore t p ts ds, 7, 1), (.fabFadd t p ts ds, 7, 2), (.fabCas t p ts ds, 7, 3), (.fabReset t p ts ds, 7, 5), (.blsRead t p ts ds, 8, 0),
         (.blsWrite t p ts ds, 8, 1), (.blsTrim t p ts ds, 8, 2), (.blsFlush t p ts ds, 8, 3), (.blsFormat t p ts ds, 8, 4), (.bskAdmit t p ts ds, 10, 0),
         (.adpPublish t p ts ds, 10, 6), (.adpPin t p ts ds, 10, 7), (.adpUnpin t p ts ds, 10, 8), (.adpRetire t p ts ds, 10, 9), (.adpFetch t p ts ds, 10, 10),
         (.adpPlace t p ts ds, 10, 11), (.budSet t p ts ds, 11, 1), (.budQuery t p ts ds, 11, 2), (.trfMset t p ts ds, 11, 3), (.trfMget t p ts ds, 11, 4)] :
         List (Instr × Nat × Nat)), goes y.1 y.2.1 y.2.2 none) ∧
     (∀ y ∈ ([(.gopBarrier t p ts ds, 0), (.gopBroadcast t p ts ds, 1), (.gopSnapshot t p ts ds, 2), (.gopResume t p ts ds, 3)] : List (Instr × Nat)),
       df x 0 4 3 = y.2 → goes y.1 7 4 none) ∧
     (∀ y ∈ ([(.fabHbTether t p ts ds, 0), (.fabHbMgmt t p ts ds, 1)] : List (Instr × Nat)), df x 0 0 1 = y.2 → goes y.1 7 6 none) ∧
     (∀ y ∈ ([(.blsMaintGc t p ts ds, 0), (.blsMaintWl t p ts ds, 1), (.blsMaintPatrol t p ts ds, 2), (.blsMaintRebuild t p ts ds, 3)] : List (Instr × Nat)),
       df x 0 0 2 = y.2 → goes y.1 8 5 none)) ∧
  (∀ (s : State) (t : Nat) (p : BitVec 2) (th : Thread) (ts : BitVec 5) (ds : BitVec 4) (c sl : Nat), Issues s.d t p th → th.reserved = 32 → th.ops ≠ [] →
     th.run = .inSlot c sl → th.rt = false →
     ∀ i ∈ ([.engineIssueFullWait t, .tqSend t p ts ds, .bskAdmit t p ts ds, .kvAppend t p ts ds, .pushLayer t p ts ds] : List Instr),
       Goes i s (fun d' => OnlyThread s.d d' t { th.dropDead with run := .leaving c sl, wait := some .issue }))

/-- R87, R93, R95, R112, R578: the short Basket operations on a Basket of the thread's partition whose slice is in service: each changes that Basket's record as its rule
says, no other record, and completes with OK. -/
def Obligations.BasketOperations : Prop :=
  ∀ (s : State) (t : Nat) (p : BitVec 2) (th : Thread) (ts : BitVec 5) (ds : BitVec 4), Issues s.d t p th →
    let x := th.dReg ds.toNat
    let b := df x 0 0 20
    let y := s.d.basket b
    let o := fun (opc : Nat) => newOp s.k th 10 opc (some b) ts ds
    let goes := fun (i : Instr) (opc : Nat) (z : Basket) =>
      Prompt s.k s.d th (o opc) → Goes i s (fun d' => BasketNow s.d d' b z ∧ Completed d' t th (o opc) .ok 0 0 ∧ d'.mem = s.d.mem)
    let moved := fun (st : BState) => { y with state := st, anchor := true, stateTime := s.k.ns, deadline := none }
    descOk x [(0, 0, 20)] = true → s.k.bskPart b = some th.part → s.k.up (b % 4) 21 = true → y.lost = false →
    (y.receiver = false → y.state = .admitted → goes (.bskPrefill t p ts ds) 13 (moved .prefill)) ∧
    (y.receiver = false → y.state = .inPrefix ∨ y.state = .prefill → goes (.bskPrefill t p ts ds) 13 y) ∧
    (y.state = .anchor ∨ y.state = .decoding → y.parks = [] → y.budPark = false → anyOp s.d b Op.decode = false → goes (.bskPark t p ts ds) 3 (moved .parked)) ∧
    (y.state = .parked → goes (.bskResume t p ts ds) 4 (moved .anchor)) ∧
    (y.state = .anchor → y.held = true → goes (.bskUnhold t p ts ds) 5 { y with held := false })

/-- R87, R89, R96, R109, R113: admission takes the lowest free ID of the slice whose turn it is and writes its record; a release puts its Basket into RELEASING, or joins the release that is in progress; a local query
answers in DETAIL. R106, R110: an origin in HANDING whose time is over re-offers while RETRIES is below RETRY_MAX and else returns to ANCHOR with HELD and TIMEOUT; a
receiver that waits in ADMITTED or PUSHING past its time is ORPHANED with TIMEOUT. R113, R94, R640: with no command waiting one cycle of CLK_MGT passes, and a release in
progress frees its Basket and ends every `bsk.release` that it completes with OK: that it does so with the next cycle is the model's choice (log entry 195). -/
def Obligations.BasketQueriesAndTimers : Prop :=
  (∀ (s : State) (t : Nat) (p : BitVec 2) (th : Thread) (ts : BitVec 5) (ds : BitVec 4) (b : Nat), Issues s.d t p th →
     let x := th.dReg ds.toNat
     let oa := newOp s.k th 10 0 none ts ds
     (Prompt s.k s.d th oa → admitBad s.k s.d th.part x = false → admitPerm s.k th.part x = false → df x 12 0 16 = 0xFFFF → admitId s.k s.d th.part = some b →
       Goes (.bskAdmit t p ts ds) s (fun d' => Completed d' t th { oa with bsk := some b } .ok 0 b ∧ ∃ y, BasketNow s.d d' b y ∧ y.state = .admitted ∧
         y.anchor = decide (df x 0 0 1 = 0) ∧ y.receiver = decide (df x 0 0 1 = 1) ∧ y.held = false ∧ y.part = th.part ∧ y.tenant = df x 0 1 16 ∧
         y.model = df x 0 17 12 ∧ y.epoch.toNat = df x 8 0 32 ∧ y.user.toNat = df x 32 0 64 ∧ y.seqLen = 0 ∧ y.pages = 0 ∧ y.admitTime = s.k.ns)) ∧
     (Prompt s.k s.d th (newOp s.k th 10 1 (some b) ts ds) → b = df x 0 0 20 → descOk x [(0, 0, 20)] = true → s.k.bskPart b = some th.part →
       s.k.up (b % 4) 21 = true → (s.d.basket b).state ≠ .free → (s.d.basket b).state ≠ .handing →
       let o := newOp s.k th 10 1 (some b) ts ds
       ((s.d.basket b).state ≠ .releasing → Goes (.bskRelease t p ts ds) s (fun d' => Started d' t th o ∧ (d'.basket b).state = .releasing ∧
         (d'.basket b).anchor = false ∧ (d'.basket b).releases = [(t, o.id)] ∧ d'.ctx b = none)) ∧
       ((s.d.basket b).state = .releasing → Goes (.bskRelease t p ts ds) s (fun d' => Started d' t th o ∧
         BasketNow s.d d' b { s.d.basket b with releases := (s.d.basket b).releases ++ [(t, o.id)] }))) ∧
     (Prompt s.k s.d th (newOp s.k th 10 2 (some b) ts ds) → b = df x 0 0 20 → df x 0 20 1 = 0 → descOk x [(0, 0, 21), (4, 0, 32), (8, 0, 14)] = true →
       s.k.bskPart b = some th.part → s.k.up (b % 4) 21 = true →
       Goes (.bskQuery t p ts ds) s (fun d' => d'.bsk = s.d.bsk ∧ d'.mem = s.d.mem ∧
         Completed d' t th (newOp s.k th 10 2 (some b) ts ds) .ok 0 (queryDetail s.d b (BitVec.ofNat 32 (df x 4 0 32)))))) ∧
  (∀ (s : State) (b at_ : Nat) (c : PushCtx),
     let x := s.d.basket b
     x.deadline = some at_ → at_ ≤ s.k.ticks →
     (x.state = .handing → s.d.ctx b = some c → x.retries < s.k.retryMax → Goes (.handoffTmo b) s (fun d' =>
       BasketNow s.d d' b { x with retries := x.retries + 1, deadline := some (s.k.ticks + s.k.handoffTmo) } ∧ d'.ctx b = some c ∧
       (∀ r, c.endRec = some r → (s.d.qp x.qp).state = .ready → SentSpool d' x.qp (offerMsg 0x07 (x.retries + 1) b x r)))) ∧
     (x.state = .handing → s.d.ctx b = some c → s.k.retryMax ≤ x.retries → Goes (.handoffTmo b) s (fun d' =>
       BasketNow s.d d' b { x with state := .anchor, anchor := true, held := true, lastStatus := Status.timeout.code, stateTime := s.k.ns, deadline := none } ∧
       d'.ctx b = none)) ∧
     (x.receiver = true → x.state = .admitted → Goes (.firstTmo b) s (fun d' => (d'.basket b).state = .orphaned ∧ (d'.basket b).anchor = false ∧
       (d'.basket b).lastStatus = Status.timeout.code)) ∧
     (x.receiver = true → x.state = .pushing → Goes (.pushTmo b) s (fun d' => (d'.basket b).state = .orphaned ∧ (d'.basket b).anchor = false ∧
       (d'.basket b).lastStatus = Status.timeout.code))) ∧
  (∀ (s : State), s.pending = [] →
    ∃ s', step s = .next s' ∧ s'.pending = [] ∧ s'.k.ticks = s.k.ticks + 1 ∧
      (s.d.adp.commits = [] → s.d.mat.evicts = [] → (∀ e ∈ s.d.fyl.threads, ∀ o ∈ e.2.ops, o.started = true) →
        ∀ b, (∀ e ∈ s.d.bsk.tab, e.2.state = .releasing → e.1 = b) → (s.d.basket b).state = .releasing → (s.d.basket b).lost = false →
          s'.d.basket b = Basket.freed s.k.ns ∧ (∀ c, c ≠ b → s'.d.basket c = s.d.basket c) ∧
          ∃ n, ∀ x ∈ (s.d.basket b).releases, Pending s.d x.1 x.2 → ∃ th o c, s'.d.thr x.1 = some th ∧ o ∈ th.ops ∧ o.id = x.2 ∧ o.done = some c ∧
            c.status = .ok ∧ c.count = n))

/-- R103, R104, R105: what the messages of re-anchoring do to the Baskets they are for. An offer whose check passes makes its receiver the anchor of the next epoch, with
an entry in the QP's ledger; COMMIT and ANCHORED begin the release of the origin that is HANDING, whose waiting `push.end` completes with OK and the pages of its
push; REFUSE returns it to ANCHOR; UNKNOWN changes no Basket. R109, R226: a QUERY
received is answered from the Basket and the ledger, with PERM for a Basket of another partition than the QP's, and changes no Basket; an ANSWER completes the oldest
remote query that it answers. -/
def Obligations.HandoffMessages : Prop :=
  (∀ (s : State) (q : Nat) (m : List Byte),
     let rb := msgRecv m
     let x := s.d.basket rb
     let e := BitVec.ofNat 32 (msgEpoch m)
     let sb := msgSend m
     let y := s.d.basket sb
     let origin := replyMatch s.d q m = true ∧ y.state = .handing
     (∀ i ty, ((i, ty) = (Instr.offer q, 0x04) ∨ (i, ty) = (Instr.reOffer q, 0x07)) → s.d.peekSpool q ty = some m → x.receiver = true → x.state = .pushing →
       peerMatch s.d q sb x = true → x.epoch = e → endCheck s.k s.d rb (endRecOf m) = true → (s.d.ledger q).length < 64 →
       Goes i s (fun d' => BasketNow s.d d' rb { x with state := .anchor, anchor := true, epoch := e + 1, seqLen := (endRecOf m).seq, stateTime := s.k.ns, deadline := none } ∧
         d'.ledger q = s.d.ledger q ++ [⟨rb, (s.d.qp q).peerNode, sb, e + 1, s.k.ns⟩] ∧ d'.ctx rb = none ∧
         ((s.d.qp q).state = .ready → SentSpool d' q (splHdr 0x05 0 0 sb rb (msgEpoch m))))) ∧
     (∀ i ty, ((i, ty) = (Instr.commit q, 0x05) ∨ (i, ty) = (Instr.anchored q, 0x08)) → s.d.peekSpool q ty = some m → origin →
       Goes i s (fun d' => (d'.basket sb).state = .releasing ∧ (d'.basket sb).anchor = false ∧ d'.ctx sb = none ∧
         (∀ c t id, s.d.ctx sb = some c → c.endOp = some (t, id) → Pending s.d t id → OpDone d' t id .ok c.pages 0))) ∧
     (s.d.peekSpool q 0x06 = some m → origin → Goes (.refuse q) s (fun d' => BasketNow s.d d' sb { y with
       state := .anchor
       anchor := true
       held := false
       lastStatus := (refuseStatus m).code
       stateTime := s.k.ns
       deadline := none } ∧ d'.ctx sb = none)) ∧
     (s.d.peekSpool q 0x09 = some m → origin → Goes (.unknown q) s (fun d' => d'.bsk = s.d.bsk ∧ d'.ttx.inbox = dropFirst q s.d.ttx.inbox))) ∧
  (∀ (s : State) (q : Nat) (m : List Byte),
     let b := msgRecv m
     let mine := s.k.bskPart b = some (s.d.qp q).part
     (∀ st v, s.d.peekSpool q 0x0A = some m → (s.d.qp q).state = .ready →
       ((mine ∧ st = Status.ok.code ∧ v = queryDetail s.d b (BitVec.ofNat 32 (msgEpoch m))) ∨ (¬ mine ∧ st = Status.perm.code ∧ v = 0)) →
       Goes (.query q) s (fun d' => d'.bsk = s.d.bsk ∧ d'.mem = s.d.mem ∧ SentSpool d' q (splHdr 0x0B st 0 (msgSend m) b (msgEpoch m) ++ bytesLE 4 v))) ∧
     (∀ t id th o st, s.d.peekSpool q 0x0B = some m → s.d.spl.queries.find? (fun x => x.2.2.1 == q && x.2.2.2.1 == b && x.2.2.2.2 == msgEpoch m) =
         some (t, id, q, b, msgEpoch m) → s.d.thr t = some th → o ∈ th.ops → o.id = id → o.done = none → Status.ofCode? (msgStatus m) = some st →
       Goes (.answer q) s (fun d' => d'.bsk = s.d.bsk ∧ OpDone d' t id st 0 (mfld m 16 4))))

/-! ### Scheduling -/

/-- R59, R60, R552: a tile takes the launch entry at CONS of a ring and makes its thread in the lowest free frame: pc 0, s1 to s7 from the descriptor, every other
register zero, ready behind the others; CONS advances by one. R64 to R68: a full slice forces a switch with every register live; a switch saves the thread that
leaves, and gives a free slot to the thread that is ready, with the SLICE then in force (R83), where the power cap and the throttle withhold no grant (R683, R685). -/
def Obligations.ThreadSlots : Prop :=
  (∀ (s : State) (part tile t : Nat), part < 16 → tile < 16 → s.k.kDown = false → s.k.up (tile / 4) (tile % 4) = true →
     let r := 16 * part + tile
     let g := s.d.ring r
     let x : Desc := BitVec.ofNat 512 (s.d.rd (s.k.ringBase r + 64 * (g.cons % Nat.max 1 (s.k.ringSize r))) 64)
     s.k.ringOn r = true → g.cons ≠ g.prod → df x 0 56 8 = 0 → Tab.has s.k.progs (part * 65536 + df x 0 0 16) = true →
     (df x 0 36 1 = 0 → s.k.bskPart (df x 0 16 20) = some part) → Tab.freeIn s.d.fyl.threads (4096 * tile) 4096 = some t →
     Goes (.launchTake false part tile) s (fun d' => ∃ th, d'.thr t = some th ∧ (∀ u, u ≠ t → d'.thr u = s.d.thr u) ∧ d'.mem = s.d.mem ∧
       d'.ring r = { g with cons := (g.cons + 1) % 2 ^ 32 } ∧ d'.fyl.readyQ = s.d.fyl.readyQ ++ [t] ∧ th.run = .ready ∧ th.part = part ∧ th.pc = 0 ∧
       th.prog = df x 0 0 16 ∧ th.bsk = (if df x 0 36 1 = 1 then none else some (df x 0 16 20)) ∧ th.cls = df x 0 37 3 ∧ th.tag = df x 0 40 16 ∧ th.rt = false ∧
       th.ops = [] ∧ th.held = [] ∧ (∀ i, i < 7 → (th.sReg (i + 1)).toNat = df x (8 + 8 * i) 0 64) ∧ (∀ n, 7 < n → th.sReg n = 0#64) ∧
       (∀ n, th.dReg n = 0#512) ∧ th.p1 = false ∧ th.p2 = false ∧ th.p3 = false)) ∧
  (∀ (s : State) (tile core slot t : Nat) (th : Thread), tile < 16 → core < 4 → slot < 8 → t / 4096 = tile → s.d.thr t = some th →
     let rest := fun (d' : Data) => d'.mem = s.d.mem ∧ ∀ u, u ≠ t → d'.thr u = s.d.thr u
     (th.running = true → th.run = .inSlot core slot → th.rt = false → 64 * th.slice ≤ th.issued →
       Goes (.sliceExpiry t) s (fun d' => rest d' ∧ d'.thr t = some { th with run := .leaving core slot })) ∧
     (s.k.up (tile / 4) (tile % 4) = true → slotOf s.d tile core slot = some (t, th) → th.run = .leaving core slot → s.d.fyl.readyQ = [] →
       th.wait.isSome = true → Goes (.threadSwitch tile core slot) s (fun d' => rest d' ∧ d'.thr t = some { th with run := .waiting, issued := 0 })) ∧
     (s.k.up (tile / 4) (tile % 4) = true → slotOf s.d tile core slot = none → s.k.coreUp tile core = true → s.k.slotRt slot = false → s.d.fyl.readyQ = [t] →
       th.cls < 8 → (capGrant s.k s.d tile th.cls th.part false).2 = true →
       Goes (.threadSwitch tile core slot) s (fun d' => rest d' ∧
         d'.thr t = some { th with run := .inSlot core slot, issued := 0, slice := s.k.fld 0x1000040 0 16 } ∧ d'.fyl.readyQ = [])))

/-- R74, R144: posting a finished operation's completion takes it out of its thread's operations into the held completions, oldest first, and drops its pins; a thread
that waits for its tag becomes ready with the completion delivered. No operation is left for an engine to start in these states. -/
def Obligations.CompletionPosts : Prop :=
  ∀ (s : State) (t id : Nat) (th : Thread) (o : Op) (c : Cpl), s.d.thr t = some th → th.ops.find? (fun x => x.id == id) = some o → o.done = some c →
    th.ending = none → AllDone s.d → s.d.adp.commits = [] → (∀ x ∈ s.d.spl.ctxs, x.2.endOp = none) →
    let ops := th.ops.filter (fun x => x.id != id)
    let post := fun (d' : Data) (th' : Thread) => d'.thr t = some th' ∧ (∀ u, u ≠ t → d'.thr u = s.d.thr u) ∧ ∀ y ∈ d'.kvw.pins, ¬ (y.1 = t ∧ y.2.1 = id)
    (th.wait = none → Goes (.completionPost t id) s (fun d' => post d' { th with ops := ops, held := th.held ++ [c] })) ∧
    (∀ dd wr pd, pd < 4 → th.wait = some (.tag c.tag dd wr pd) → th.run = .waiting → (∀ x ∈ th.held, x.tag ≠ c.tag) →
      Goes (.completionPost t id) s (fun d' => ∃ th', post d' th' ∧ th'.run = .ready ∧ th'.wait = none ∧ th'.held = th.held ∧ th'.ops = ops ∧
        th'.pc = th.pc + 4 ∧ PredsAfter th th' pd (!c.status.good) ∧ t ∈ d'.fyl.readyQ))

/-- R144, R146: an operation that is no longer live drops its read pins, and a frame whose references are gone retires with its last pin. R147, R150: a period starts a
sweep at tile 0, or marks the one that still runs late; a tile passes once the operations issued before the sweep reached it are gone or pinned; past tile 15 the
epoch advances. -/
def Obligations.PinsAndReclaim : Prop :=
  (∀ (s : State) (t id a : Nat), s.d.live t id = false → s.d.kvw.pins.filter (fun x => x.1 == t && x.2.1 == id) = [(t, id, a)] →
     Goes (.pinDropRetire t id) s (fun d' => (∀ y ∈ d'.kvw.pins, ¬ (y.1 = t ∧ y.2.1 = id)) ∧ SameOutside s.d d' a 8 ∧ d'.fyl = s.d.fyl ∧
       (refcnt s.d a = 0 → pinCnt s.d a = 1 → frecState s.d a = 1 → frecState d' a = 2 ∧ refcnt d' a = 0 ∧ pinCnt d' a = 0 ∧
         bitsOf (d'.rd a 8) 32 16 = s.d.kvw.epoch % 65536) ∧
       (1 < pinCnt s.d a → pinCnt d' a = pinCnt s.d a - 1 ∧ refcnt d' a = refcnt s.d a))) ∧
  (∀ (s : State) (tile : Nat) (w : Sweep),
     (s.d.kvw.nextSweep ≤ s.k.ticks → s.d.kvw.sweep = none → Goes .reclaimSweep s (fun d' => d'.kvw.sweep = some ⟨0, tileOps s.d 0, false⟩ ∧
       d'.kvw.nextSweep = s.k.ticks + s.k.reclaimTicks ∧ d'.mem = s.d.mem)) ∧
     (s.d.kvw.nextSweep ≤ s.k.ticks → s.d.kvw.sweep = some w → Goes .reclaimSweep s (fun d' => d'.kvw.sweep = some { w with late := true } ∧
       d'.kvw.owedSweeps = s.d.kvw.owedSweeps + 1 ∧ d'.stsBit 0x1200080 4 = true ∧ d'.mem = s.d.mem)) ∧
     (s.d.kvw.sweep = some w → w.tile = tile → (∀ x ∈ w.ops, s.d.live x.1 x.2 = false ∨ ∃ y ∈ s.d.kvw.pins, y.1 = x.1 ∧ y.2.1 = x.2) →
       (tile < 15 → Goes (.tilePassSweep tile) s (fun d' => d'.kvw.sweep = some ⟨tile + 1, tileOps s.d (tile + 1), false⟩ ∧ d'.kvw.epoch = s.d.kvw.epoch ∧
         d'.mem = s.d.mem)) ∧
       (15 ≤ tile → s.d.kvw.owedSweeps = 0 → Goes (.tilePassSweep tile) s (fun d' => d'.kvw.sweep = none ∧ d'.kvw.epoch = s.d.kvw.epoch + 1))))

/-! ### Traffic and budgets -/

/-- R488, R489: a metered operation at the head of its engine's queue is coloured by its tokens as grown for the time since LAST, and the action of its colour is taken:
passed in its class, passed in DEMOTE_CLASS, or held. An operation that is held is judged again when its tokens are there. R490, R578: `trf.mset` writes the
program's fields of its tenant's and class's entry, fills both buckets and sets LAST; `trf.mget` copies the entry to DST. No other byte of memory changes. -/
def Obligations.Meters : Prop :=
  (∀ (s : State) (t id a : Nat) (th : Thread) (o : Op), s.d.thr t = some th → th.ops.find? (fun x => x.id == id) = some o → o.id = id →
     metering s.k s.d th o = .entry a →
     let n := meterBytes s.k s.d th o
     let g := meterGrow s.d a s.k.ns
     let aware := bitsOf (s.d.rd (a + 16) 1) 1 1 = 1
     let red := (aware ∧ 2 ≤ o.pre) ∨ g.2.1 ≤ 0
     let yellow := ¬ red ∧ ((aware ∧ o.pre = 1) ∨ g.1 ≤ 0)
     let r := meterTake s.d th.part a s.k.ns o.pre n
     let counted := fun (i : Nat) => SameOutside s.d r.1 a 64 ∧ r.1.rd (a + 40 + 8 * i) 8 = (s.d.rd (a + 40 + 8 * i) 8 + n) % 2 ^ 64 ∧
       ∀ j, j < 3 → j ≠ i → r.1.rd (a + 40 + 8 * j) 8 = s.d.rd (a + 40 + 8 * j) 8
     let act := fun (lo : Nat) => bitsOf (s.d.rd (a + 16) 1) lo 2
     let deferred := fun (d' : Data) => d'.mem = r.1.mem ∧ d'.fyl = s.d.fyl ∧ ∃ h ∈ d'.trf.meterHeld, h.thread = t ∧ h.opId = id ∧ h.again = false
     let first := (atHead s.d t th o = true ∨ (o.eng = 3 ∧ o.started = true ∧ o.done = none)) ∧ o.metered = false ∧ (∀ h ∈ s.d.trf.meterHeld, ¬ (h.thread = t ∧ h.opId = id))
     let again := ∃ h, s.d.trf.meterHeld.find? (fun h => h.thread == t && h.opId == id) = some h ∧ (h.again = true ∨ 0 < (meterGrow s.d h.entry s.k.ns).2.1)
     ∀ c, (c = Instr.meterColour t id ∧ first) ∨ (c = Instr.meterDeferRetry t id ∧ again) →
       (¬ red → ¬ yellow → counted 0 ∧ Goes c s (fun d' => d' = letPass s.k r.1 t o o.cls)) ∧
       (yellow → counted 1 ∧ (act 2 = 0 → Goes c s (fun d' => d' = letPass s.k r.1 t o o.cls)) ∧
         (act 2 = 1 → Goes c s (fun d' => d' = letPass s.k r.1 t o (r.1.rd (a + 17) 1 % 8))) ∧ (act 2 = 2 → Goes c s deferred)) ∧
       (red → counted 2 ∧ (act 4 = 0 → Goes c s (fun d' => d' = letPass s.k r.1 t o o.cls)) ∧
         (act 4 = 1 → Goes c s (fun d' => d' = letPass s.k r.1 t o (r.1.rd (a + 17) 1 % 8))) ∧ (act 4 = 2 → Goes c s deferred))) ∧
  (∀ (s : State) (t : Nat) (p : BitVec 2) (th : Thread) (ts : BitVec 5) (ds : BitVec 4), Issues s.d t p th →
     let x := th.dReg ds.toNat
     let a := (s.k.mtab th.part).1 + 64 * (8 * df x 20 0 16 + df x 22 0 3)
     let dst := df x 24 0 48
     df x 20 0 16 < (s.k.mtab th.part).2 →
     (Prompt s.k s.d th (newOp s.k th 11 3 none ts ds) → descOk x [(0, 0, 128), (16, 0, 6), (17, 0, 3), (20, 0, 16), (22, 0, 3)] = true →
       df x 0 0 32 ≤ df x 4 0 32 → df x 16 2 2 < 2 → df x 16 4 2 < 3 → df x 17 0 3 ≠ 0 →
       Goes (.trfMset t p ts ds) s (fun d' => Completed d' t th (newOp s.k th 11 3 none ts ds) .ok 0 0 ∧ SameOutside s.d d' a 40 ∧ d'.rd a 16 = df x 0 0 128 ∧
         d'.rd (a + 16) 1 = df x 16 0 6 ∧ d'.rd (a + 17) 1 = df x 17 0 3 ∧ d'.rd (a + 24) 4 = Nat.min (df x 8 0 32) (2 ^ 31 - 1) ∧
         d'.rd (a + 28) 4 = Nat.min (df x 12 0 32) (2 ^ 31 - 1) ∧ d'.rd (a + 32) 8 = s.k.ns % 2 ^ 64)) ∧
     (Prompt s.k s.d th (newOp s.k th 11 4 none ts ds) → descOk x [(20, 0, 16), (22, 0, 3), (24, 0, 48)] = true → dst % 64 = 0 →
       s.k.dpaCheck th.part dst 64 false = none →
       Goes (.trfMget t p ts ds) s (fun d' => Completed d' t th (newOp s.k th 11 4 none ts ds) .ok 0 0 ∧ SameOutside s.d d' dst 64 ∧ CopiedTo s.d d' dst a 64)))

/-- R495 to R499: `bud.set` writes the program's fields of an account, with BALANCE = CAP where FILL is 1; `bud.query` copies it; a `bud.charge` that its account can pay
takes the cost from the balance, counts it as spent, and completes with the whole tokens in COUNT. R496, R497, R498: when a window boundary passes, a waiting charge
that its DEFER account can pay by now is taken from it and no longer waits. -/
def Obligations.Accounts : Prop :=
  (∀ (s : State) (t : Nat) (p : BitVec 2) (th : Thread) (ts : BitVec 5) (ds : BitVec 4), Issues s.d t p th →
     let x := th.dReg ds.toNat
     let n := df x 0 0 32
     let a := s.k.acct th.part n
     let dst := df x 40 0 48
     let noneWaits := fun (n : Nat) => ∀ c ∈ s.d.trf.charges, ¬ (c.part = th.part ∧ c.acct = n)
     (n < (s.k.btab th.part).2 → noneWaits n → Prompt s.k s.d th (newOp s.k th 11 1 none ts ds) →
       descOk x [(0, 0, 32), (8, 0, 48), (16, 0, 48), (24, 0, 24), (28, 0, 16), (30, 0, 16), (32, 0, 3), (34, 0, 16), (36, 0, 1)] = true →
       df x 32 1 2 < 3 → 1000 ≤ df x 24 0 24 → df x 24 0 24 ≤ 10000000 → df x 8 0 48 ≤ df x 16 0 48 →
       Goes (.budSet t p ts ds) s (fun d' => Completed d' t th (newOp s.k th 11 1 none ts ds) .ok 0 0 ∧ SameOutside s.d d' a 36 ∧
         d'.rd (a + 8) 28 = df x 8 0 224 ∧ d'.rd a 8 = if df x 36 0 1 = 1 then df x 16 0 48 else s.d.rd a 8)) ∧
     (n < (s.k.btab th.part).2 → Prompt s.k s.d th (newOp s.k th 11 2 none ts ds) → descOk x [(0, 0, 32), (40, 0, 48)] = true → dst % 64 = 0 →
       s.k.dpaCheck th.part dst 64 false = none →
       acctFieldsOk (bitsOf (s.d.rd (a + 8) 8) 0 48) (acctCap s.d a) (bitsOf (s.d.rd (a + 24) 4) 0 24) (acctPolicy s.d a) = true →
       Goes (.budQuery t p ts ds) s (fun d' => Completed d' t th (newOp s.k th 11 2 none ts ds) .ok 0 0 ∧ SameOutside s.d d' dst 64 ∧ CopiedTo s.d d' dst a 64)) ∧
     (let b := df x 0 0 20
      let y := s.d.basket b
      let e := s.k.acct th.part y.budget.toNat
      let cost := s.d.rd (e + 28) 2 * df x 8 0 32 + s.d.rd (e + 30) 2 * df x 12 0 32
      let d1 := acctEval s.k s.d e
      Prompt s.k s.d th (newOp s.k th 11 0 (some b) ts ds) → descOk x [(0, 0, 20), (8, 0, 32), (12, 0, 32)] = true → s.k.bskPart b = some th.part → y.lost = false →
      y.state ≠ .free → y.state ≠ .orphaned → y.state ≠ .releasing → y.budget ≠ 0xFFFFFFFF#32 → acctOn s.k s.d th.part y.budget.toNat = true → noneWaits y.budget.toNat → 0 < cost →
      (cost : Int) ≤ acctBal d1 e →
      Goes (.budCharge t p ts ds) s (fun d' => Completed d' t th (newOp s.k th 11 0 (some b) ts ds) .ok ((cost + 255) / 256) 0 ∧ SameOutside s.d d' e 64 ∧
        acctBal d' e = acctBal d1 e - cost ∧ d'.rd (e + 48) 8 = (s.d.rd (e + 48) 8 + cost) % 2 ^ 64))) ∧
  (∀ (s : State) (part n : Nat) (c : Charge), s.d.trf.charges = [c] → c.part = part → c.acct = n → acctOn s.k s.d part n = true →
     let a := s.k.acct part n
     let d1 := acctEval s.k s.d a
     acctPolicy d1 a = 0 → (Nat.min c.cost (acctCap d1 a) : Int) ≤ acctBal d1 a →
     Goes (.budgetWindowBoundary part n) s (fun d' => d'.trf.charges = [] ∧ acctBal d' a = max (-(2 ^ 63 : Int)) (acctBal d1 a - c.cost) ∧
       SameOutside s.d d' a 64 ∧ (∀ th o, s.d.thr c.thread = some th → o ∈ th.ops → o.id = c.opId → o.done = none →
         OpDone d' c.thread c.opId .ok ((c.cost + 255) / 256) 2)))

/-- R494: each enabled bucket gains RATE × 64 bytes per microsecond, up to BURST × 4,096 bytes; the others stay. R500, R501: each period, every queue's depth and delay
add one to their bins, which stay at their maximum. -/
def Obligations.RegulatorsAndWindsock : Prop :=
  (∀ (s : State), s.d.trf.refillAt ≤ s.k.ticks → AllDone s.d → s.d.bdl.jobs = [] →
     Goes .regulatorRefill s (fun d' => d'.mem = s.d.mem ∧ d'.fyl = s.d.fyl ∧ d'.trf.refillAt = s.k.ticks + 500 ∧
       ∀ p r, p < 16 → r < 4 → d'.bucket p r =
         if s.k.regOn p r then min ((s.k.fld (0x1D400C0 + 0x1000 * p + 8 * r) 20 12 * 4096 : Nat) : Int) (s.d.bucket p r + (s.k.fld (0x1D400C0 + 0x1000 * p + 8 * r) 0 20 * 64 : Nat))
         else s.d.bucket p r)) ∧
  (∀ (s : State), s.k.fld 0x1E00040 12 1 = 1 → s.d.trf.sampleAt ≤ s.k.ns →
     Goes .windsockSample s (fun d' => d'.mem = s.d.mem ∧ d'.fyl = s.d.fyl ∧ d'.trf.periods = Nat.min 65535 (s.d.trf.periods + 1) ∧ s.k.ns < d'.trf.sampleAt ∧
       ∀ q i, q < 272 → i < 16 →
         let v := queueOf s.k s.d q
         let old := fun (j : Nat) => Tab.getD s.d.trf.hist j 0
         let new := fun (j : Nat) (hit : Bool) => Tab.getD d'.trf.hist j 0 = if hit = true ∧ old j + 1 < 2 ^ 32 then old j + 1 else old j
         new (32 * q + i) (decide (i = binOf v.1)) ∧ new (32 * q + 16 + i) (decide (i = binOf (2 * v.2 / s.k.dunit)))))

/-! ### Pages and adapters -/

/-- R137, R144, R296 to R298, R340, R341: `kvw.map` maps a page as shared and takes a reference, and the source's entry reads SHARED (log entry 176); `kvw.unmap`
takes a page out; `kv.append` into a mapped page adds its positions, and in the last layer the sequence grows by them; `spec.commit` with nothing before it keeps the
accepted positions and drops the rest of the tail. -/
def Obligations.PageOperations : Prop :=
  ∀ (s : State) (t : Nat) (p : BitVec 2) (th : Thread) (ts : BitVec 5) (ds : BitVec 4), Issues s.d t p th →
    let x := th.dReg ds.toNat
    let b := df x 0 0 20
    let y := s.d.basket b
    let o := fun (eng opc : Nat) => newOp s.k th eng opc (some b) ts ds
    let more := fun (n : Nat) (sh : Bool) => { y with pages := y.pages + n, shared := y.shared + (if sh then n else 0) }
    s.k.bskPart b = some th.part → s.k.up (b % 4) 18 = true → y.lost = false →
    (∀ a r q, Prompt s.k s.d th (o 9 0) → descOk x [(0, 0, 21), (4, 0, 20), (8, 0, 58), (16, 0, 17), (20, 0, 24), (24, 0, 24), (28, 0, 13)] = true →
      df x 0 20 1 = 0 → df x 16 8 9 = 1 → df x 28 0 13 = 1 → y.mapTarget = none →
      let l := df x 16 0 8
      let src := df x 4 0 20
      let e := pageEntry s.k s.d src l (df x 20 0 24)
      let w1 := (s.d.basket src).ptRoot + 8 * l
      let w2 := bitsOf (s.d.rd w1 8) 12 36 * 4096 + 8 * (df x 20 0 24 / 512)
      let own := if pteShared e then 0 else 1
      s.k.bskPart src = some th.part → (s.d.basket src).opCheck = none → (s.d.basket src).anchor = true → (s.d.basket src).model = y.model →
      l < s.k.mdlLayers y.model → s.k.isReel y.model l = false → mapOpen s.k s.d b l (df x 24 0 24) = true → df x 20 0 24 < pageMax → pteValid e = true → pteTent e = false →
      l3At s.d b l (df x 24 0 24) = some a → r = s.k.frecOf y.model (pteFrame e) → refcnt s.d r < 65535 → (a + 8 ≤ r ∨ r + 2 ≤ a) →
      l3At s.d src l (df x 20 0 24) = some q → (∀ v ∈ [w1, w2, q], (v + 8 ≤ a ∨ a + 8 ≤ v) ∧ (v + 8 ≤ r ∨ r + 2 ≤ v)) →
      Goes (.kvwMap t p ts ds) s (fun d' => Completed d' t th (o 9 0) .ok 1 0 ∧
        (∀ c, let z := if c = b then more 1 true else s.d.basket c; d'.basket c = if c = src then { z with shared := z.shared + own } else z) ∧
        d'.rd a 8 = pte true false (s.k.mdlTier y.model) (pteFrame e) ∧ pteShared (d'.rd q 8) = true ∧ pteFrame (d'.rd q 8) = pteFrame e ∧
        refcnt d' r = refcnt s.d r + 1 ∧ ∀ i, (i < a ∨ a + 8 ≤ i) → (i < r ∨ r + 2 ≤ i) → (pteShared e = true ∨ i < q ∨ q + 8 ≤ i) →
          memByte d'.mem i = memByte s.d.mem i)) ∧
    (∀ q, Prompt s.k s.d th (o 9 1) → descOk x [(0, 0, 20), (4, 0, 8), (8, 0, 24)] = true → y.opCheck = none →
      let l := df x 4 0 8
      l < s.k.mdlLayers y.model → df x 8 0 24 < pageMax → (layerPages s.k s.d b l).filter (fun q => decide (df x 8 0 24 ≤ q)) = [q] →
      mapped s.k s.d b l q = true →
      Goes (.kvwUnmap t p ts ds) s (fun d' => Completed d' t th (o 9 1) .ok 1 0 ∧
        BasketNow s.d d' b { y with pages := y.pages - 1, shared := y.shared - (if pteShared (pageEntry s.k s.d b l q) then 1 else 0) })) ∧
    (Prompt s.k s.d th (o 9 2) → descOk x [(0, 0, 29), (4, 0, 32), (8, 0, 7), (16, 0, 48), (24, 0, 16)] = true →
      let l := df x 0 20 8
      let pos := df x 4 0 32
      let n := df x 8 0 7
      let w := df x 24 0 16
      let size := 4 * n * s.k.mdlKh y.model * s.k.mdlD y.model
      let sb := s.k.winSlotBytes w
      let e := pageEntry s.k s.d b l (pos / s.k.mdlT y.model)
      let z := { y with state := BState.decoding, anchor := true, stateTime := s.k.ns, deadline := none, decoded := true }
      0 < n → n ≤ 64 → s.k.genRole = true → s.k.winOn w = true → s.k.winPart w = th.part → s.k.winOut w = false → s.k.up (b % 4) 11 = true → winOff s.k s.d w = none →
      y.state = .anchor → y.decodeCheck s.k = none → df x 0 28 1 = 0 → pos = y.seqLen → y.tailLen = 0 → l < s.k.mdlLayers y.model →
      pos + n ≤ pageMax * s.k.mdlT y.model → df x 16 0 48 + size ≤ s.k.winSlots w * sb → df x 16 0 48 % Nat.max 1 sb + size ≤ sb →
      s.d.bad (s.k.winAddr w + df x 16 0 48) size = false → s.d.flaws = [] → pos % s.k.mdlT y.model + n ≤ s.k.mdlT y.model → pteValid e = true → pteShared e = false →
      Goes (.kvAppend t p ts ds) s (fun d' => Completed d' t th (o 9 2) .ok n 0 ∧
        BasketNow s.d d' b (if l + 1 = s.k.mdlLayers y.model then { z with seqLen := y.seqLen + n } else z))) ∧
    (Prompt s.k s.d th (o 10 12) → descOk x [(0, 0, 20), (0, 20, 7)] = true →
      let acc := df x 0 20 7
      s.k.up (b % 4) 21 = true → y.anchor = true → y.held = false → y.state = .speculating → acc < 64 → acc < y.tailLen →
      (∀ e ∈ s.d.fyl.threads, ∀ op ∈ e.2.ops, op.bsk ≠ some b ∧ b ∉ deltaNames s.d e.1 op) →
      Goes (.specCommit t p ts ds) s (fun d' => (∃ n, Completed d' t th (o 10 12) .ok (acc + 1) n) ∧ (d'.basket b).state = .decoding ∧
        (d'.basket b).seqLen = y.seqLen + acc + 1 ∧ (d'.basket b).tailLen = 0 ∧ ∀ c, c ≠ b → d'.basket c = s.d.basket c))

/-- R323 to R328, R331, R333: publishing takes a free record and puts its word first in the directory; pins count up and down; a version that is retired while pinned is
RETIRING; a fetch asks its peer; a placed version records its banks. R331: a cache node answers an adapter fetch with the object's segments and stored bytes where
they fit, and any other node with PERM. -/
def Obligations.AdapterVersions : Prop :=
  (∀ (s : State) (t : Nat) (p : BitVec 2) (th : Thread) (ts : BitVec 5) (ds : BitVec 4) (a w : Nat), Issues s.d t p th →
     let x := th.dReg ds.toNat
     let h := df x 0 0 32
     let o := fun (opc : Nat) => newOp s.k th 10 opc none ts ds
     s.k.up (t / 4096 / 4) 21 = true → s.k.adpCount th.part ≠ 0 →
     (Prompt s.k s.d th (o 6) → descOk x [(0, 0, 32), (4, 0, 15), (6, 0, 8), (8, 0, 32), (16, 0, 48), (32, 0, 64), (40, 0, 64)] = true →
       let id := df x 0 0 16
       let m := df x 4 0 12
       let np := df x 4 12 2 + 1
       let r := df x 6 0 8 + 1
       let obj := df x 16 0 48
       let dims := (List.range np).map (fun j => (df x (32 + 4 * j) 0 16, df x (34 + 4 * j) 0 16))
       let dir := s.k.adpDir th.part + 16 * id
       ∀ i, id ≠ 0xFFFF → (∀ y ∈ dims, y.1 % 512 = 0 ∧ 512 ≤ y.1 ∧ y.1 ≤ 16384 ∧ y.2 % 32 = 0 ∧ 32 ≤ y.2 ∧ y.2 ≤ 16384) → s.k.role ≠ 0 →
       let want := s.k.mdlLayers m * layerSegs r dims
       s.k.dpaCheck th.part obj 8 false = none → s.k.dpaCheck th.part obj (8 + 4 * (want + 1)) false = none →
       s.k.dpaCheck th.part obj (segStart s.d obj want) false = none → s.k.mdlOn m = true → s.k.mdlPart m = th.part →
       s.d.bad obj 8 = false → s.d.bad obj (8 + 4 * (want + 1)) = false → objHeader (s.d.rd obj 8) = some (want, 4096, df x 4 14 1) →
       (∀ v ∈ liveVersions s.k s.d th.part id, bitsOf (s.d.rd v 8) 16 16 < df x 0 16 16) → (liveVersions s.k s.d th.part id).length < 4 →
       (List.range (s.k.adpCount th.part)).find? (fun i => avState s.d (s.k.adpRecs th.part + 64 * i) == 0) = some i → a = s.k.adpRecs th.part + 64 * i →
       (dir + 16 ≤ a ∨ a + 64 ≤ dir) →
       Goes (.adpPublish t p ts ds) s (fun d' => Completed d' t th (o 6) .ok 0 i ∧ d'.rd dir 4 = i + 2 ^ 31 ∧
         bitsOf (d'.rd a 8) 0 16 = id ∧ bitsOf (d'.rd a 8) 16 16 = df x 0 16 16 ∧ avState d' a = 1 ∧ avPlaced d' a = false ∧ avProj d' a = np ∧ avRank d' a = r ∧
         avModel d' a = m ∧ avElem d' a = df x 4 14 1 ∧ avPins d' a = 0 ∧ avAlpha d' a = df x 8 0 32 ∧ avObj d' a = obj ∧
         ∀ j, (j < a ∨ a + 64 ≤ j) → (j < dir ∨ dir + 16 ≤ j) → memByte d'.mem j = memByte s.d.mem j)) ∧
     (Prompt s.k s.d th (o 7) → descOk x [(0, 0, 32)] = true → adpFind s.k s.d th.part h = some (a, w) → (s.d.adp.pins.filter (fun y => y.1 == t)).length < 8 →
       Goes (.adpPin t p ts ds) s (fun d' => Completed d' t th (o 7) .ok 0 0 ∧ avPins d' a = (avPins s.d a + 1) % 2 ^ 32 ∧ SameOutside s.d d' (a + 8) 4 ∧
         d'.adp.pins = s.d.adp.pins ++ [(t, th.part, h)])) ∧
     (Prompt s.k s.d th (o 8) → descOk x [(0, 0, 32)] = true → adpFind s.k s.d th.part h = some (a, w) → (t, th.part, h) ∈ s.d.adp.pins → 1 < avPins s.d a →
       Goes (.adpUnpin t p ts ds) s (fun d' => Completed d' t th (o 8) .ok 0 0 ∧ avPins d' a = avPins s.d a - 1 ∧ SameOutside s.d d' (a + 8) 4 ∧
         d'.adp.pins = s.d.adp.pins.erase (t, th.part, h))) ∧
     (Prompt s.k s.d th (o 9) → descOk x [(0, 0, 32), (4, 0, 1)] = true → adpFind s.k s.d th.part h = some (a, w) → df x 4 0 1 = 0 → avPins s.d a ≠ 0 →
       avState s.d a = 1 → Goes (.adpRetire t p ts ds) s (fun d' => Completed d' t th (o 9) .ok (avPins s.d a) 0 ∧ avState d' a = 2 ∧
         avPins d' a = avPins s.d a ∧ SameOutside s.d d' a 8)) ∧
     (let q := df x 4 0 14
      Prompt s.k s.d th (o 10) → descOk x [(0, 0, 32), (4, 0, 14), (8, 0, 48), (16, 0, 40)] = true → df x 8 0 48 % 8 = 0 → s.k.role ≠ 0 → s.k.role ≠ 3 →
       s.k.qpPart q = some th.part → s.k.dpaCheck th.part (df x 8 0 48) (df x 16 0 40) false = none → (s.d.qp q).state = .ready →
       Goes (.adpFetch t p ts ds) s (fun d' => Started d' t th (o 10) ∧ d'.mem = s.d.mem ∧
         d'.adp.fetches = s.d.adp.fetches ++ [(t, th.freshOp, q, df x 8 0 48)] ∧ SentEngine d' q 2 (bytesLE 4 1 ++ bytesLE 4 h ++ bytesLE 8 (df x 16 0 40)))) ∧
     (let np := avProj s.d a
      let dims := (List.range np).map (fun j => (avKin s.d a j, avNout s.d a j))
      let pa := dims.foldl (fun n y => Nat.max n (y.1 / 512)) 0
      let pb := dims.foldl (fun n y => Nat.max n (y.2 / 32)) 0
      let size := s.k.mdlLayers (avModel s.d a) * np * 1024 * avRank s.d a
      ∀ n last e, Prompt s.k s.d th (o 11) → descOk x [(0, 0, 32), (4, 0, 11), (6, 0, 11), (8, 0, 28), (12, 0, 4)] = true → 1 ≤ df x 12 0 4 → df x 12 0 4 ≤ 12 →
       df x 8 0 28 % 1024 = 0 → s.k.genRole = true → s.k.up (t / 4096 / 4) 11 = true → (∀ i, i < 4 → s.k.up i 10 = true) →
       adpFind s.k s.d th.part h = some (a, w) → avState s.d a = 1 → avPlaced s.d a = false → inside (df x 8 0 28) size (s.k.sailBase th.part) (s.k.sailSize th.part) = true →
       banksMeet (df x 4 0 11) pa (df x 6 0 11) pb = false → df x 8 0 28 + size ≤ bankBytes → s.k.meetsPool (df x 8 0 28) size = false →
       objHeader (s.d.rd (avObj s.d a) 8) = some (n, last, e) → (expand s.k s.d th.part (avObj s.d a) n last e n 0).2 = none → s.d.flaws = [] → a + 64 ≤ plainTop →
       Goes (.adpPlace t p ts ds) s (fun d' => Completed d' t th (o 11) .ok 0 0 ∧ d'.rd a 8 = s.d.rd a 8 + 2 ^ 34 ∧ avFirstA d' a = df x 4 0 11 ∧
         avFirstB d' a = df x 6 0 11 ∧ avArea d' a = df x 8 0 28))) ∧
  (∀ (s : State) (q a w n last e : Nat) (i : InMsg), s.d.peekMsg q 2 (fun m => mfld m.bytes 0 1 == 1) = some i → (s.d.qp q).state = .ready →
     let m := i.bytes
     let size := 8 * s.d.rd (avObj s.d a + 8 + 4 * n) 4
     (s.k.cacheRole = false → Goes (.adapterFetchServe q) s (fun d' => SentEngine d' q 2 (bytesLE 4 (2 + 256 * Status.perm.code) ++ bytesLE 4 0) ∧ d'.mem = s.d.mem)) ∧
     (s.k.cacheRole = true → adpFind s.k s.d (s.d.qp q).part (mfld m 4 4) = some (a, w) → objHeader (s.d.rd (avObj s.d a) 8) = some (n, last, e) →
       size ≤ mfld m 8 8 → s.d.bad (avObj s.d a) size = false →
       Goes (.adapterFetchServe q) s (fun d' => SentEngine d' q 2 (bytesLE 4 2 ++ bytesLE 4 n ++ memBytes s.d.mem (avObj s.d a) size) ∧ d'.mem = s.d.mem ∧
         d'.ttx.inbox = dropFirst q s.d.ttx.inbox)))

/-! ### The Spools -/

/-- R219 to R224, R234, R235, R238: a layer push whose pages are there makes its Basket PUSHING and queues its runs; `push.end` of a push whose layers are all final
sends END and enters HANDING, or ends a local push in ANCHOR. R245 to R250: a pull asks the cache node for its entries and moves an admitted Basket to PREFIX; an
offer asks which of its entries are absent, with its shared pages pinned (R144); a feed writes the codes of its pages, keys before values, into a granted slot. -/
def Obligations.SpoolIssues : Prop :=
  (∀ (s : State) (t : Nat) (p : BitVec 2) (th : Thread) (ts : BitVec 5) (ds : BitVec 4) (b : Nat), Issues s.d t p th → th.bsk = some b →
     let x := th.dReg ds.toNat
     let y := s.d.basket b
     let m := y.model
     let tt := s.k.mdlT m
     s.k.bskPart b = some th.part → s.k.promptRole = true → s.k.up (b % 4) 19 = true → y.lost = false →
     (let o := newOp s.k th 1 0 (some b) ts ds
      let l := df x 0 0 8
      let n := df x 8 0 21
      Prompt s.k s.d th o → descOk x [(0, 0, 19), (4, 0, 32), (8, 0, 21), (12, 0, 21), (16, 0, 24)] = true → df x 0 9 1 = 0 → df x 0 14 1 = 0 → 1 ≤ df x 0 10 4 →
      df x 0 10 4 ≤ 12 → df x 12 0 21 = 0 → df x 4 0 32 = 0 → 0 < n → n ≤ 1048576 → n % tt = 0 → n ≤ pageMax * tt → s.k.up (b % 4) 11 = true → s.k.up (b % 4) 18 = true →
      y.state = .prefill → y.receiver = false → y.nodeKnown = true → y.qpKnown = true → y.basketKnown = true → (s.d.qp y.qp).state = .ready →
      s.d.ctx b = none → ctxFree s.d b = true → l < s.k.mdlLayers m → s.k.isReel m l = false →
      s.d.flaws = [] → (∀ i, i < n / tt → mapped s.k s.d b l i = true ∧ pteShared (pageEntry s.k s.d b l i) = false ∧ s.d.bad (pageFrame s.k s.d b l i) (s.k.pageBytes m) = false) →
      Goes (.pushLayer t p ts ds) s (fun d' => Started d' t th o ∧ d'.mem = s.d.mem ∧
        BasketNow s.d d' b { y with state := .pushing, anchor := true, stateTime := s.k.ns, deadline := none } ∧
        d'.spl.sendq = s.d.spl.sendq ++ pushRuns s.k s.d b l o th.part 0 n ∧
        ∃ c, d'.ctx b = some c ∧ (c.layer l).next = n ∧ (c.layer l).fin = false ∧
          c.ops = [⟨t, o.id, l, 0, n, (pushRuns s.k s.d b l o th.part 0 n).length, 0, 0, none, none⟩])) ∧
     (∀ c, let o := newOp s.k th 1 1 (some b) ts ds
      let seq := (c.layer 0).next
      let r : EndRec := ⟨s.k.mdlLayers m, seq, c.pages, c.check % 2 ^ 64⟩
      Prompt s.k s.d th o → descOk x [(0, 0, 1)] = true → y.state = .pushing → y.receiver = false → s.d.ctx b = some c → c.endOp = none → c.ops = [] → c.endRec = none →
      c.failed = none → (∀ l, l < s.k.mdlLayers m → (c.layer l).fin = true ∧ (c.layer l).next = seq) →
      (c.localPush = true → df x 0 0 1 = 1 → Goes (.pushEnd t p ts ds) s (fun d' => Completed d' t th o .ok c.pages 0 ∧ d'.ctx b = none ∧
        BasketNow s.d d' b { y with state := .anchor, anchor := true, stateTime := s.k.ns, deadline := none, seqLen := seq })) ∧
      (c.localPush = false → df x 0 0 1 = 0 → (s.d.qp y.qp).state = .ready → Goes (.pushEnd t p ts ds) s (fun d' => Started d' t th o ∧
        d'.ctx b = some { c with endOp := some (t, o.id), endRec := some r } ∧ SentSpool d' y.qp (offerMsg 0x04 0 b y r) ∧ BasketNow s.d d' b { y with
          state := .handing
          anchor := false
          stateTime := s.k.ns
          deadline := some (s.k.ticks + s.k.handoffTmo)
          retries := 0 })))) ∧
  (∀ (s : State) (t : Nat) (p : BitVec 2) (th : Thread) (ts : BitVec 5) (ds : BitVec 4) (b : Nat), Issues s.d t p th → th.bsk = some b →
     let x := th.dReg ds.toNat
     let y := s.d.basket b
     let m := y.model
     s.k.bskPart b = some th.part → s.k.promptRole = true → s.k.up (b % 4) 19 = true → s.k.up (b % 4) 18 = true → y.lost = false → y.receiver = false →
     (let o := newOp s.k th 1 2 (some b) ts ds
      let n := df x 8 0 13
      let q := df x 10 0 14
      let l0 := df x 16 0 8
      let ln := df x 17 0 9
      let es := (List.range n).map (fun i => s.d.rd (df x 0 0 48 + 8 * i) 8)
      Prompt s.k s.d th o → descOk x [(0, 0, 48), (8, 0, 13), (10, 0, 14), (12, 0, 24), (16, 0, 8), (17, 0, 9)] = true → 0 < n → n ≤ 4096 → 0 < ln → ln ≤ 256 →
      s.k.qpPart q = some th.part → s.k.dpaCheck th.part (df x 0 0 48) (8 * n) false = none → y.state = .admitted → l0 + ln ≤ s.k.mdlLayers m →
      (∀ l i, l < ln → i < n → mapOpen s.k s.d b (l0 + l) (df x 12 0 24 + i) = true) → (s.d.qp q).state = .ready → s.d.bad (df x 0 0 48) (8 * n) = false →
      Goes (.pullPages t p ts ds) s (fun d' => Started d' t th o ∧ d'.mem = s.d.mem ∧ SentSpool d' q (pullReqMsg b m l0 ln (df x 12 0 24) es) ∧
        BasketNow s.d d' b { y with state := .inPrefix, anchor := true, stateTime := s.k.ns, deadline := none } ∧
        d'.spl.pulls = s.d.spl.pulls ++ [⟨t, o.id, b, q, df x 12 0 24, l0, ln, n, [], none⟩])) ∧
     (let o := newOp s.k th 1 4 (some b) ts ds
      let n := df x 8 0 13
      let q := df x 10 0 14
      let pg := df x 12 0 24
      let pages := (List.range (s.k.mdlLayers m)).flatMap (fun l => (List.range n).map (fun i => (l, pg + i)))
      let shared := (pages.filter (fun y => pteShared (pageEntry s.k s.d b y.1 y.2))).map (fun y => pageFrame s.k s.d b y.1 y.2)
      let hs := (List.range n).map (fun i => s.d.rd (df x 0 0 48 + 8 * i) 8)
      Prompt s.k s.d th o → descOk x [(0, 0, 48), (8, 0, 13), (10, 0, 14), (12, 0, 24)] = true → 0 < n → n ≤ 4096 → s.k.qpPart q = some th.part →
      s.k.dpaCheck th.part (df x 0 0 48) (8 * n) false = none → y.state = .prefill → pg + n ≤ pageMax → (∀ l i, l < s.k.mdlLayers m → i < n → pageFull s.k s.d b l (pg + i) = true) →
      (s.d.qp q).state = .ready → s.d.bad (df x 0 0 48) (8 * n) = false → s.d.flaws = [] →
      (∀ y ∈ pages, s.d.bad (pageFrame s.k s.d b y.1 y.2) (s.k.pageBytes m) = false) → pinFull s.k s.d m shared = false → s.d.offerOf q b = none →
      Goes (.pushPrefix t p ts ds) s (fun d' => Started d' t th o ∧ SentSpool d' q (offerQMsg b m hs) ∧ d'.bsk = s.d.bsk ∧
        d'.spl.offers = s.d.spl.offers ++ [⟨s.d.spl.nextId, t, o.id, b, q, pg, n, hs, none, false⟩] ∧
        ∀ z, z ∈ d'.kvw.pins ↔ z ∈ s.d.kvw.pins ∨ ∃ f ∈ shared, z = (t, o.id, s.k.frecOf m f))) ∧
     (let o := newOp s.k th 1 3 (some b) ts ds
      let n := df x 8 0 13
      let w := df x 10 0 16
      let slot := df x 12 0 8
      let sh := s.k.shape m
      let l := df x 0 0 8
      let fs := (List.range n).map (fun i => pageFrame s.k s.d b l (df x 4 0 24 + i))
      let codes := (feedPart s.d sh (s.k.winFp16 w) false fs ++ feedPart s.d sh (s.k.winFp16 w) true fs).flatMap (fun c => bytesLE 2 c.1)
      Prompt s.k s.d th o → descOk x [(0, 0, 8), (1, 0, 4), (4, 0, 24), (8, 0, 13), (10, 0, 16), (12, 0, 8), (14, 0, 16)] = true → 1 ≤ df x 1 0 4 → df x 1 0 4 ≤ 12 →
      0 < n → n ≤ 4096 → df x 4 0 24 + n ≤ pageMax → s.k.winOn w = true → s.k.winPart w = th.part → s.k.winOut w = true → s.k.winQuery w = false → s.k.winRemote w = false →
      s.k.up (s.k.winHalf w / 2) 16 = true → s.k.up (b % 4) 11 = true → s.d.flaws = [] → y.state = .prefill → l < s.k.mdlLayers m → slot < s.k.winSlots w →
      4 * n * sh.t * sh.kh * sh.dim ≤ s.k.winSlotBytes w → slot ∈ (s.d.win w).grants → df x 14 0 16 = 0xFFFF →
      (∀ i, i < n → let e := pageEntry s.k s.d b l (df x 4 0 24 + i); pteValid e = true ∧ pteTent e = false ∧ pteShared e = false ∧
        s.d.bad (pteFrame e) (s.k.pageBytes m) = false) →
      Goes (.feedLayer t p ts ds) s (fun d' => Completed d' t th o .ok 0 0 ∧ d'.bsk = s.d.bsk ∧
        memBytes d'.mem (s.k.winAddr w + slot * s.k.winSlotBytes w) codes.length = codes ∧
        SameOutside s.d d' (s.k.winAddr w + slot * s.k.winSlotBytes w) codes.length)))

/-- R224 to R233, R254: a run goes out when its credit is there and its Spool's arbiter picks it (R38), which takes no prompt work of a rank while generation work of the
rank is ready (R20, R240); its LANDED gives its units back; a receiver lands a run of its push and goes to PUSHING; credit is
asked for and granted; prompt work that has waited 10 ms is reported. R246, R247, R250: what the messages of pulls and offers do at the cache node and at the prompt
node. -/
def Obligations.SpoolTraffic : Prop :=
  (∀ (s : State) (q : Nat) (m : List Byte),
     let d0 := takeMsg s.k s.d q
     let key := 4 * q + msgRecv m % 4
     let credit := fun (d : Data) (i : Nat) => Tab.getD d.spl.credit i 0
     (∀ i r, runPick s.k s.d i = some r → r ∈ readyRuns s.k s.d i ∧ (r.prompt s.k s.d = true → ∀ x ∈ readyRuns s.k s.d i,
       x.prompt s.k s.d = false → x.cls < 8 → r.cls = 0 ∧ x.cls ≠ 0)) ∧
     (∀ r, (s.d.qp q).state = .ready → (List.range 4).findSome? (fun i => (runPick s.k s.d i).filter (fun r => r.qp == q)) = some r →
       (capGrant s.k s.d (84 + r.from) r.cls (s.d.qp q).part false).2 = true → (∀ i, r.owner ≠ .serve i) →
       Goes (.runSend q) s (fun d' => d'.spl.sendq = s.d.spl.sendq.erase r ∧ d'.spl.flight = s.d.spl.flight ++ [{ r with units := r.need s.k s.d }] ∧
         (∀ i, credit d' i = if i = 4 * q + r.spool then credit s.d i - r.need s.k s.d else credit s.d i) ∧ SentSpool d' q (r.msg s.k s.d) ∧ d'.mem = s.d.mem)) ∧
     (s.d.peekSpool q 0x03 = some m → mfld m 18 1 % 2 = 1 → Goes (.creditGrant q) s (fun d' =>
       (∀ i, credit d' i = if i = key then credit s.d i + mfld m 16 2 else credit s.d i) ∧ d'.ttx.inbox = dropFirst q s.d.ttx.inbox ∧ d'.mem = s.d.mem)) ∧
     (s.d.peekSpool q 0x03 = some m → mfld m 18 1 % 2 = 0 → s.d.spl.waiting = [] → mfld m 16 2 ≤ mayGive s.k s.d key (mfld m 16 2) →
       Goes (.creditRequest q) s (fun d' => d'.spl.waiting = [] ∧ Tab.getD d'.spl.granted key 0 = Tab.getD s.d.spl.granted key 0 + mfld m 16 2 ∧
         SentSpool d' q (splHdr 0x03 0 0 0xFFFFF (key % 4) 0 ++ bytesLE 2 (mfld m 16 2) ++ bytesLE 1 1))) ∧
     (let b := msgRecv m
      let x := s.d.basket b
      let l := rhLayer m
      ∀ ps d1, s.d.peekSpool q 0x01 = some m → s.k.genRole = true → x.receiver = true → x.state = .admitted ∨ x.state = .pushing → peerMatch s.d q (msgSend m) x = true →
      x.epoch = BitVec.ofNat 32 (msgEpoch m) → ctxFree s.d b = true ∨ s.d.ctx b ≠ none → layerCheck s.k s.d b m ((s.d.ctx b).getD (ctx0 false)) = none →
      (∀ y ∈ s.d.spl.refused, y.of q m = false) → s.d.flaws = [] → runRaw s.k m x.part (s.k.pageBytes x.model) = some ps →
      landRun s.k (countRun s.k d0 (b % 4) x.part m) b l false ps (rhPage m) = (d1, true) → s.d.spl.waiting = [] →
      Goes (.layer q) s (fun d' => d'.mem = d1.mem ∧ (d'.basket b).state = .pushing ∧ (d'.basket b).deadline = some (s.k.ticks + s.k.pushTmo) ∧
        (d'.basket b).layersIn = (d1.basket b).layersIn + (if rhFlag m 0 && rhFlag m 1 then 1 else 0) ∧
        ∃ c, d'.ctx b = some c ∧ c.pages = ((s.d.ctx b).getD (ctx0 false)).pages + rhPages m ∧ (c.layer l).refused = none ∧
          (rhFlag m 0 = true → (c.layer l).next = mfld m 20 4 + mfld m 24 4 ∧ (c.layer l).fin = rhFlag m 1))) ∧
     (∀ r b l c o, s.d.peekSpool q 0x02 = some m → s.d.spl.flight.find? (fun r => r.qp == q && r.sendB == msgSend m && r.recvB == msgRecv m && r.epoch == msgEpoch m) = some r →
       r.owner = .push b l → s.d.ctx b = some c → c.ops.find? (fun o => o.layer == l) = some o → msgStatus m = 0 → 1 < o.open_ → o.fail = none →
       Goes (.landed q) s (fun d' => d'.spl.flight = s.d.spl.flight.erase r ∧ d'.mem = s.d.mem ∧
         (∀ i, credit d' i = if i = 4 * q + r.spool then credit s.d i + mfld m 20 2 else credit s.d i) ∧
         ∃ c' o', d'.ctx b = some c' ∧ c'.pages = c.pages + mfld m 16 4 ∧ c'.ops.find? (fun o => o.layer == l) = some o' ∧ o'.open_ = o.open_ - 1 ∧
           o'.landed = o.landed + mfld m 16 4)) ∧
     (∀ since, s.d.spl.promptSince = some since → s.k.role = 4 → since + 5000000 ≤ s.k.ticks → Goes .promptStarved s (fun d' => d'.stsBit 0x1300080 3 = true ∧
       d'.spl = s.d.spl ∧ d'.mem = s.d.mem))) ∧
  (∀ (s : State) (q : Nat) (m : List Byte),
     let d0 := takeMsg s.k s.d q
     let part := (s.d.qp q).part
     let sb := msgSend m
     let ready := (s.d.qp q).state = .ready
     (let md := mfld m 16 2
      let l0 := mfld m 18 2
      let ln := mfld m 20 2
      let es := (List.range (mfld m 22 2)).map (fun i => mfld m (32 + 8 * i) 8)
      let r := serveList s.k s.d part md l0 ln es
      let frame := fun (a l : Nat) => pteFrame (recEntry s.d a l)
      let all := (List.range ln).flatMap (fun l => r.1.map (fun a => (l0 + l, frame a (l0 + l))))
      s.d.peekSpool q 0x10 = some m → ready → s.k.cacheRole = true → r.1 ≠ [] → 0 < ln → pinFull s.k s.d md (all.map (fun x => x.2)) = false →
      (∀ x ∈ s.d.spl.serves, x.id ≠ s.d.spl.nextId) →
      Goes (.pullReq q) s (fun d' => ∃ rs, d'.spl.sendq = s.d.spl.sendq ++ rs ∧ (∀ x ∈ rs, x.owner = .serve s.d.spl.nextId ∧ x.type = 0x11 ∧ x.sendB = sb) ∧
        rs.flatMap (fun x => x.frames.map (fun f => (x.layer, f))) = all ∧
        ∃ e, d'.spl.serves = s.d.spl.serves ++ [e] ∧ e.id = s.d.spl.nextId ∧ e.served = r.1.length ∧ e.status = r.2 ∧ e.ended = false)) ∧
     (∀ o ps d1, let x := s.d.basket sb
      let l := rhLayer m
      s.d.peekSpool q 0x11 = some m → s.d.spl.pulls.find? (fun o => o.qp == q && o.bsk == sb && decide (o.layer0 ≤ l) && decide (l < o.layer0 + o.layers) &&
        decide (o.page ≤ rhPage m) && decide (rhPage m < o.page + o.count)) = some o → runSizeOk m (s.k.pageBytes x.model) = true → rhFlag m 3 = false →
      rhPage m + rhPages m ≤ o.page + o.count → (∀ i, i < rhPages m → mapOpen s.k s.d sb l (rhPage m + i) = true) →
      s.d.flaws = [] → runRaw s.k m x.part (s.k.pageBytes x.model) = some ps →
      landRun s.k (countRun s.k d0 (sb % 4) x.part m) sb l true ps (rhPage m) = (d1, true) → s.d.spl.waiting = [] →
      Goes (.pullData q) s (fun d' => d'.mem = d1.mem ∧ ∃ o' ∈ d'.spl.pulls, o'.thread = o.thread ∧ o'.opId = o.opId ∧
        o'.landed = o.landed ++ (List.range (rhPages m)).map (fun i => 2 ^ 13 * l + (rhPage m - o.page + i)))) ∧
     (∀ o th op, s.d.peekSpool q 0x12 = some m → s.d.spl.pulls.find? (fun o => o.qp == q && o.bsk == sb && o.page == mfld m 20 4 && o.layer0 == mfld m 24 4) = some o →
      o.whole = o.count → mfld m 16 4 = o.count → (∀ x ∈ o.landed, x % 2 ^ 13 < o.count) → s.d.thr o.thread = some th → op ∈ th.ops → op.id = o.opId → op.done = none →
      Goes (.pullEnd q) s (fun d' => OpDone d' o.thread o.opId .ok o.count 0 ∧ d'.mem = s.d.mem ∧
        d'.spl.pulls = s.d.spl.pulls.filter (fun y => !(y.thread == o.thread && y.opId == o.opId)))) ∧
     (let md := mfld m 16 2
      let hs := (List.range (mfld m 18 2)).map (fun i => mfld m (24 + 8 * i) 8)
      let d1 := lookAll s.k md part hs d0
      let absent := (List.range hs.length).filter (fun i => (findPrefix s.k d1 (hs.getD i 0) md part).isNone)
      s.d.peekSpool q 0x18 = some m → ready → offerCheck s.k part md = none → absent ≠ [] → (∀ y ∈ s.d.spl.offerServes, ¬ (y.qp = q ∧ y.sendB = sb)) →
      Goes (.offerQ q) s (fun d' => SentSpool d' q (splHdr 0x19 0 0 sb 0xFFFFF 0 ++ bytesLE ((hs.length + 7) / 8) (absent.foldl (fun a i => a + 2 ^ i) 0)) ∧
        ⟨q, sb, part, md, hs, absent, [], 0, hs.length - absent.length, .ok⟩ ∈ d'.spl.offerServes)) ∧
     (∀ o, let md := (s.d.basket o.bsk).model
      let absent := (List.range o.count).filter (fun i => bitsOf (mfld m (16 + i / 8) 1) (i % 8) 1 == 1)
      s.d.peekSpool q 0x19 = some m → s.d.offerOf q sb = some o → msgStatus m = 0 →
      Goes (.offerA q) s (fun d' => d'.mem = s.d.mem ∧ ∃ rs, d'.spl.sendq = s.d.spl.sendq ++ rs ∧ (∀ x ∈ rs, x.owner = .offer o.id ∧ x.type = 0x1A) ∧
        rs.map (fun x => (x.pageFirst, x.layer, x.frames)) = absent.flatMap (fun i => (List.range (s.k.mdlLayers md)).map (fun l =>
          (i, l, [pageFrame s.k s.d o.bsk l (o.page + i)]))))) ∧
     (∀ o ps d1 f, let l := rhLayer m
      s.d.peekSpool q 0x1A = some m → s.d.spl.offerServes.find? (fun o => o.qp == q && o.sendB == sb) = some o → runSizeOk m (s.k.pageBytes o.model) = true →
      rhPages m = 1 → o.left.head? = some (rhPage m) → l = o.frames.length → runRaw s.k m o.part (s.k.pageBytes o.model) = some ps →
      poolFrame s.k (countRun s.k d0 3 o.part m) o.model = (d1, some f) → l + 1 < s.k.mdlLayers o.model → s.d.spl.waiting = [] →
      Goes (.prefixData q) s (fun d' => memBytes d'.mem f ps.flatten.length = ps.flatten ∧ { o with frames := Tab.set o.frames l f } ∈ d'.spl.offerServes)) ∧
     (∀ o th op st, (∀ y ∈ s.d.spl.offers, y.waits = false) → s.d.peekSpool q 0x1B = some m → s.d.offerOf q sb = some o → s.d.thr o.thread = some th → op ∈ th.ops → op.id = o.opId → op.done = none →
      Status.ofCode? (msgStatus m) = some st →
      Goes (.prefixDone q) s (fun d' => OpDone d' o.thread o.opId st (mfld m 16 4) (mfld m 20 4) ∧ d'.spl.offers = s.d.spl.offers.filter (fun y => y.id != o.id) ∧
        d'.mem = s.d.mem)))

/-! ### The Match Array -/

/-- R186 to R196: a search of a rule bank answers the match of lowest PRIO, with MULTI where there are others, or a zero word; an insert puts its entry behind those of
equal or lower PRIO; a delete removes the lowest entry that equals its image, or counts 0; a spread keeps the order; `mat.hash` writes the chain. R206, R207, R210, R615: the lease of a deleted record ends; a
row of a rule bank fails parity; a scrub checks the next row; a cache node answers a forwarded lookup. -/
def Obligations.MatchRules : Prop :=
  (∀ (s : State) (t : Nat) (p : BitVec 2) (th : Thread) (ts : BitVec 5) (ds : BitVec 4), Issues s.d t p th →
     let x := th.dReg ds.toNat
     let o := fun (opc : Nat) => newOp s.k th 5 opc none ts ds
     (∀ b, let key : BitVec 320 := x.setWidth 320
      let pfv := BitVec.ofNat 8 (df x 44 0 8)
      let pfm := BitVec.ofNat 8 (df x 45 0 8)
      let res := df x 48 0 48
      let w := s.k.bankWidth b
      let hits := (s.d.bankTab b).filter (fun y => (y.2.tag ^^^ pfv) &&& pfm == 0#8 && (y.2.key ^^^ key) &&& y.2.care &&& unitMask w == 0#320)
      Prompt s.k s.d th (o 0) → descOk x [(0, 0, 368), (48, 0, 48)] = true → res % 16 = 0 → (List.range 32).filter (fun b => bitAt x (320 + b)) = [b] →
      s.k.bankRule b th.part = true → s.k.dpaCheck th.part res 16 false = none → s.k.up (b / 8) 17 = true → s.k.bank b 13 4 ≤ ones8 pfm →
      key &&& ~~~ unitMask w = 0#320 → s.d.stsBit 0x17000C0 b = false → (∀ r ∈ s.d.mat.bad, r / 8192 ≠ b) →
      (hits = [] → Goes (.matSearch t p ts ds) s (fun d' => Completed d' t th (o 0) .ok 0 0 ∧ SameOutside s.d d' res 16 ∧ d'.rd res 16 = 0 ∧ d'.mat = s.d.mat)) ∧
      (∀ y ∈ hits, (∀ z ∈ hits, z = y ∨ y.2.prio < z.2.prio) → Goes (.matSearch t p ts ds) s (fun d' => Completed d' t th (o 0) .ok 1 0 ∧
        SameOutside s.d d' res 16 ∧ d'.mat = s.d.mat ∧
        d'.rd res 16 = 1 + (if 1 < hits.length then 2 else 0) + 4 * b + 2 ^ 16 * (y.2.prio % 65536) + 2 ^ 64 * (y.2.assoc % 2 ^ 64)))) ∧
     (let b := df x 8 0 5
      let a := df x 0 0 48
      let e := imageAt s.d a (s.k.bankWidth b)
      let bank := s.d.bankTab b
      df x 8 5 1 = 0 → descOk x [(0, 0, 48), (8, 0, 6)] = true → s.k.bankRule b th.part = true → s.k.up (b / 8) 17 = true →
      (∀ r, Prompt s.k s.d th (o 1) → a % 8 = 0 → s.k.dpaCheck th.part a 96 false = none → s.d.bad a 96 = false → imageOk s.d a (s.k.bankWidth b) = true →
        (bank.map (fun y => y.1)).Pairwise (fun i j => i < j) → (bank.map (fun y => y.2.prio)).Pairwise (fun i j => i ≤ j) →
        ruleInsert (s.k.bankSlots b) bank e = some r → Goes (.matInsert t p ts ds) s (fun d' => Completed d' t th (o 1) .ok 0 0 ∧ d'.mem = s.d.mem ∧
          (d'.bankTab b).map (fun y => y.2) = (bank.filter (fun y => decide (y.2.prio ≤ e.prio))).map (fun y => y.2) ++
            e :: (bank.filter (fun y => decide (e.prio < y.2.prio))).map (fun y => y.2) ∧ ∀ c, c ≠ b → d'.bankTab c = s.d.bankTab c)) ∧
      (∀ y, Prompt s.k s.d th (o 2) → a % 8 = 0 → s.k.dpaCheck th.part a 96 false = none → s.d.bad a 96 = false → imageOk s.d a (s.k.bankWidth b) = true →
        bank.find? (fun y => y.2.key == e.key && y.2.care == e.care && y.2.prio == e.prio) = some y → Goes (.matDelete t p ts ds) s (fun d' =>
          Completed d' t th (o 2) .ok 1 0 ∧ d'.mem = s.d.mem ∧ ∀ c, ∀ i, Tab.get? (d'.bankTab c) i = if c = b ∧ i = y.1 then none else Tab.get? (s.d.bankTab c) i)) ∧
      (Prompt s.k s.d th (o 2) → a % 8 = 0 → s.k.dpaCheck th.part a 96 false = none → s.d.bad a 96 = false → imageOk s.d a (s.k.bankWidth b) = true →
        (∀ y ∈ bank, ¬ (y.2.key = e.key ∧ y.2.care = e.care ∧ y.2.prio = e.prio)) → Goes (.matDelete t p ts ds) s (fun d' =>
          Completed d' t th (o 2) .ok 0 0 ∧ d'.mem = s.d.mem ∧ d'.mat = s.d.mat)) ∧
      (Prompt s.k s.d th (o 3) → Goes (.matSpread t p ts ds) s (fun d' => (∃ n, Completed d' t th (o 3) .ok n 0) ∧ d'.mem = s.d.mem ∧
        (d'.bankTab b).map (fun y => y.2) = bank.map (fun y => y.2) ∧ ∀ c, c ≠ b → d'.bankTab c = s.d.bankTab c))) ∧
     (let tok := df x 0 0 48
      let out := df x 8 0 48
      let tt := 16 * 2 ^ df x 20 0 2
      let pages := df x 16 0 19 / tt
      ∀ key, Prompt s.k s.d th (o 4) → descOk x [(0, 0, 48), (8, 0, 48), (16, 0, 19), (20, 0, 3), (24, 0, 64), (32, 0, 32), (36, 0, 12)] = true → df x 20 0 2 < 3 →
      df x 16 0 19 ≤ 4096 * tt → s.k.dpaCheck th.part tok (4 * tt * pages) false = none → s.k.dpaCheck th.part out (8 * pages) false = none →
      s.k.up (t / 4096 / 4) 17 = true → Tab.get? s.k.sec.prefixKeys th.part = some key → 0 < pages → s.d.bad tok (4 * tt * pages) = false →
      let h0 := if df x 20 2 1 = 1 then df x 24 0 64
        else sipHash key (bytesLE 2 (df x 36 0 12) ++ bytesLE 2 tt ++ bytesLE 4 (df x 32 0 32) ++ bytesLE 8 (df x 24 0 64))
      Goes (.matHash t p ts ds) s (fun d' => Completed d' t th (o 4) .ok pages 0 ∧ SameOutside s.d d' out (8 * pages) ∧
        memBytes d'.mem out (8 * pages) = (chain s.d key tok (4 * tt) pages h0).flatMap (fun h => bytesLE 8 h)))) ∧
  (∀ (s : State) (b row a q : Nat),
     (∀ t id th op, s.d.mat.dels = [⟨a, some (t, id)⟩] → s.d.mat.evicts = [] → leaseOver s.k s.d a = true → s.d.thr t = some th → op ∈ th.ops → op.id = id →
       op.done = none → Goes (.prefixLeaseEnd a) s (fun d' => d'.mat.dels = [] ∧ d'.mat.banks = s.d.mat.banks ∧ OpDone d' t id .ok (recFrames s.d a).length 0)) ∧
     (b < 32 → row < 8192 → s.k.bank b 0 2 = 2 → Goes (.matParityError b row) s (fun d' => d'.stsBit 0x1700080 0 = true ∧ d'.stsBit 0x17000C0 b = true ∧
       Tab.get? (d'.bankTab b) (row / s.k.bankWidth b) = none ∧ (∀ i, i ≠ row / s.k.bankWidth b → Tab.get? (d'.bankTab b) i = Tab.get? (s.d.bankTab b) i) ∧ d'.mem = s.d.mem)) ∧
     (b < 32 → s.k.bank b 0 2 ≠ 0 → 8192 * b + Tab.getD s.d.mat.scrub b 0 ∉ s.d.mat.bad → Goes (.matScrubRow b) s (fun d' =>
       Tab.getD d'.mat.scrub b 0 = (Tab.getD s.d.mat.scrub b 0 + 1) % 8192 ∧ d'.mat.banks = s.d.mat.banks ∧ d'.mem = s.d.mem)) ∧
     (∀ i, s.d.peekMsg q 4 (fun m => mfld m.bytes 0 2 == 1) = some i → (s.d.qp q).state = .ready →
       let d0 := takeMsg s.k s.d q
       let r := runHits s.k (mfld i.bytes 2 2) (s.d.qp q).part (msgWords i.bytes (mfld i.bytes 4 4)) d0
       (s.k.cacheRole = false → Goes (.forwardedLookup q) s (fun d' => SentEngine d' q 4 (lookupAns .perm []) ∧ d'.mem = s.d.mem)) ∧
       (s.k.cacheRole = true → (msgWords i.bytes (mfld i.bytes 4 4)).all s.k.homeUp = true → Goes (.forwardedLookup q) s (fun d' => SentEngine d' q 4 (lookupAns .ok (r.2.map (fun a => resultEntry r.1 a))) ∧ d'.mem = r.1.mem))))

/-- R200 to R207, R355 to R358: an insert makes its record findable and begins a new generation of it; a lookup that hits renews the record's lease and gives its result
entry; an eviction makes its survey, and then deletes the oldest entries that fit: that it does so with the next cycle is the model's choice (log entry 193). -/
def Obligations.PrefixIndex : Prop :=
  ∀ (s : State) (t : Nat) (p : BitVec 2) (th : Thread) (ts : BitVec 5) (ds : BitVec 4), Issues s.d t p th →
    let x := th.dReg ds.toNat
    let o := fun (opc : Nat) => newOp s.k th 5 opc none ts ds
    s.k.up (t / 4096 / 4) 17 = true →
    (let a := df x 0 0 48
     let e := imageAt s.d a 1
     let rc := e.assoc
     let h := fld e.key 0 64
     let m := fld e.key 64 12
     ∀ b slot, Prompt s.k s.d th (o 1) → df x 8 5 1 = 1 → descOk x [(0, 0, 48), (8, 0, 6)] = true → a % 8 = 0 → s.k.indexRole = true →
     s.k.dpaCheck th.part a 96 false = none → s.d.bad a 96 = false → imageOk s.d a 1 = true → rc < 2 ^ 48 → rc % 64 = 0 → s.k.dpaCheck th.part rc 64 false = none →
     s.d.bad rc 64 = false → s.k.dpaCheck th.part rc (64 + 8 * recLayers s.d rc) false = none → s.d.rd rc 8 = h → recModel s.d rc = m →
     recPart s.d rc = th.part → findPrefix s.k s.d h m th.part = none → s.k.homeBank h = some b → s.k.up (b / 8) 17 = true →
     (prefixEntries s.k s.d th.part).length < s.k.fld (0x1740040 + 0x1000 * th.part) 0 19 → freeUp (usedSlots (s.d.bankTab b)) 0 8192 = some slot →
     (∀ f ∈ recFrames s.d rc, refcnt s.d (s.k.frecOf m f) < 65535 ∧ (rc + 64 ≤ s.k.frecOf m f ∨ s.k.frecOf m f + 2 ≤ rc)) →
     Goes (.matInsert t p ts ds) s (fun d' => Completed d' t th (o 1) .ok 0 0 ∧ recGen d' rc = (recGen s.d rc + 1) % 65536 ∧
       ∃ y, findPrefix s.k d' h m th.part = some (b, slot, y) ∧ y.assoc = rc)) ∧
    (let h := s.d.rd (df x 0 0 48 + 8 * df x 16 0 12) 8
     let res := df x 8 0 48
     let m := df x 20 0 12
     ∀ b slot e, Prompt s.k s.d th (o 5) → descOk x [(0, 0, 48), (8, 0, 48), (16, 0, 12), (18, 0, 13), (20, 0, 13)] = true → df x 18 0 13 = 1 → df x 16 0 12 + 1 ≤ 4096 →
     df x 20 12 1 = 0 → s.k.indexRole = true → s.k.dpaCheck th.part (df x 0 0 48 + 8 * df x 16 0 12) 8 false = none → s.k.dpaCheck th.part res 8 false = none →
     s.d.bad (df x 0 0 48 + 8 * df x 16 0 12) 8 = false → s.k.homeBank h = some b → s.k.up (b / 8) 17 = true → findPrefix s.k s.d h m th.part = some (b, slot, e) → (∀ r ∈ s.d.mat.bad, r / 8192 ≠ b) →
     (res + 8 ≤ e.assoc ∨ e.assoc + 64 ≤ res) →
     Goes (.matRun t p ts ds) s (fun d' => Completed d' t th (o 5) .ok 1 0 ∧ d'.rd res 8 = resultEntry s.d e.assoc % 2 ^ 64 ∧
       d'.rd (e.assoc + 16) 8 = s.k.ns % 2 ^ 64 ∧ d'.rd (e.assoc + 32) 8 = (s.d.rd (e.assoc + 32) 8 + 1) % 2 ^ 64 ∧
       d'.rd (e.assoc + 24) 8 = Nat.max (s.d.rd (e.assoc + 24) 8) (s.k.ns + s.k.leaseNs) % 2 ^ 64)) ∧
    (∀ y, let tier := df x 0 0 2
     let fits := fun (y : Nat × Nat × MatEntry) => (df x 0 14 1 = 1 ∨ fld y.2.2.key 64 12 = df x 0 2 12) ∧ (tier = 2 ∨ recEntry s.d y.2.2.assoc 0 / 8 % 2 = tier)
     Prompt s.k s.d th (o 6) → descOk x [(0, 0, 15), (4, 0, 24), (8, 0, 32), (12, 0, 19)] = true → tier < 3 → 0 < df x 12 0 19 → df x 12 0 19 ≤ 262144 →
     (df x 0 14 1 = 1 ∨ (s.k.mdlOn (df x 0 2 12) = true ∧ s.k.mdlPart (df x 0 2 12) = th.part)) → s.k.role ≠ 0 → s.k.role ≠ 2 → s.d.mat.evicts = [] → s.d.mat.dels = [] →
     prefixEntries s.k s.d th.part = [y] → fits y → df x 4 0 24 = 0 → df x 8 0 32 * 10 ^ 9 ≤ s.k.ns - s.d.rd (y.2.2.assoc + 16) 8 → leaseOver s.k s.d y.2.2.assoc = true →
     Tab.get? (s.d.bankTab y.1) y.2.1 = some y.2.2 → s.d.adp.commits = [] → (∀ e ∈ s.d.bsk.tab, e.2.state ≠ .releasing) →
     (∀ e ∈ s.d.fyl.threads, ∀ x ∈ e.2.ops, x.started = true) →
     Goes (.tieEvict t p ts ds) s (fun d' => Started d' t th (o 6) ∧ d'.mem = s.d.mem ∧ d'.mat = { s.d.mat with evicts := [⟨t, (o 6).id, th.part, true, [], 0, 0, 0, [y]⟩] } ∧
       ∀ s' : State, s'.k = s.k → s'.d = d' → s'.pending = [] → ∃ s'', step s' = .next s'' ∧ (∃ n, OpDone s''.d t (o 6).id .ok 1 n) ∧
         Tab.get? (s''.d.bankTab y.1) y.2.1 = none ∧ s''.d.mat.dels = [] ∧ s''.d.mat.evicts = []))

/-! ### The Sail stacks -/

/-- R259 to R263, R287: a `sail.cmd` or `sail.fence` that its rules allow puts one command into the queue of each selected bank's unit, in selection order; the others
and memory stay as they are. R299 to R302: a `sail.attn` of one query over one mapped page gives that page's unit one ATTN_PARTIAL command with the positions to
attend, a row for each query head, and enters DECODING; its issue owes every stack's END marker until the command is done. -/
def Obligations.SailCommands : Prop :=
  (∀ (s : State) (t : Nat) (p : BitVec 2) (th : Thread) (ts : BitVec 5) (ds : BitVec 4), Issues s.d t p th →
     let x := th.dReg ds.toNat
     let op := df x 0 0 4
     let banks := selBanks x
     let stream := 64 * df x 48 0 4 + df x 48 4 12
     let rows := df x 21 0 7
     let size := df x 22 0 13 * df x 24 0 11 * fmtBytes (df x 20 0 3)
     ∀ y ∈ ([(.sailCmd t p ts ds, newOp s.k th 2 0 none ts ds, false), (.sailFence t p ts ds, newOp s.k th 2 1 none ts ds, true)] : List (Instr × Op × Bool)),
       Prompt s.k s.d th y.2.1 → cmdBad y.2.2 x = false → (op = 6 → th.part = 0) → (op ≠ 6 → ∀ r ∈ cmdRanges x, s.k.inWindow th.part r = true) →
       (df x 8 48 14 ≠ 0 → s.k.dpaCheck th.part (df x 8 0 48) (df x 8 48 14) false = none) → s.d.bad (df x 8 0 48) (df x 8 48 14) = false →
       (cmdVconv x = true → s.k.dpaCheck th.part (df x 40 0 48) (2 * rows * df x 22 0 13) false = none ∧ s.d.bad (df x 40 0 48) (2 * rows * df x 22 0 13) = false) →
       (cmdSends x = true → df x 60 0 1 = 0 → ∀ i, i < banks.length → s.k.dpaCheck th.part (df x 48 0 48 + i * df x 56 0 32) (cmdSent x) false = none) →
       (cmdSends x = true → df x 60 0 1 = 1 → ∃ m, s.d.mstream stream = some m ∧ m.part = th.part ∧ cmdSent x = m.rows * m.rowBytes ∧
         s.k.up (stream / 64 / 4) (4 + stream / 64 % 4) = true) →
       (op = 2 → groupsBad x (cmdOpnd s.d x) = false ∧ ∀ m ∈ matGroups 2 x (cmdOpnd s.d x), s.k.inWindow th.part (m.1, size) = true) →
       (op = 2 ∨ op = 3 → rows ≠ 0) → (op = 4 → df x 24 0 28 ≠ 0) → (op = 5 ∨ op = 6 → df x 20 0 28 ≠ 0) → (op = 7 → df x 18 0 13 ≠ 0) → banks ≠ [] →
       (∀ g ∈ banks, s.k.up (g % 4) 10 = true ∧ stackFull s.d banks (g % 4) = false ∧ (s.d.sunit g).lost = false) → s.d.sissue s.d.sal.nextId = none →
       Goes y.1 s (fun d' => Started d' t th y.2.1 ∧ d'.mem = s.d.mem ∧ d'.mrg = s.d.mrg ∧ d'.sal.nextId = s.d.sal.nextId + 1 ∧
         (∀ g, g ∉ banks → d'.sunit g = s.d.sunit g) ∧
         (∀ i g, banks[i]? = some g → d'.sunit g = { s.d.sunit g with
           queue := (s.d.sunit g).queue ++ [⟨s.d.sal.nextId, i, op, th.part, x, cmdOpnd s.d x, [], none, none, none⟩]
           part := some th.part }) ∧
         ∃ z, d'.sissue s.d.sal.nextId = some z ∧ z.thread = t ∧ z.opId = th.freshOp ∧ z.left = banks.length ∧ z.n = banks.length ∧ z.res = [])) ∧
  (∀ (s : State) (t : Nat) (p : BitVec 2) (th : Thread) (ts : BitVec 5) (ds : BitVec 4) (m : MStream), Issues s.d t p th →
     let x := th.dReg ds.toNat
     let b := df x 0 0 20
     let l := df x 0 20 8
     let gr := df x 9 0 5
     let w := df x 24 0 16
     let st := 64 * df x 10 0 4 + df x 10 4 6
     let y := s.d.basket b
     let sh := s.k.shape y.model
     let a := attendOf s.k y.model l x
     let pg := a.lo 0 / sh.t
     let e := pageEntry s.k s.d b l pg
     let f := pageFrame s.k s.d b l pg
     let g := dpaBank f
     let base := if m.ordered then m.base else 0
     let o := newOp s.k th 2 2 (some b) ts ds
     Prompt s.k s.d th o →
     descOk x [(0, 0, 29), (4, 0, 32), (8, 0, 7), (9, 0, 5), (10, 0, 10), (12, 0, 32), (16, 0, 48), (24, 0, 16), (28, 0, 32), (32, 0, 32)] = true →
     s.k.genRole = true → df x 8 0 7 = 1 → 1 ≤ gr → gr ≤ 16 → s.k.bskPart b = some th.part → y.lost = false → y.state = .anchor → y.decodeCheck s.k = none →
     s.k.winOn w = true → s.k.winPart w = th.part → s.k.winOut w = false → s.k.winQuery w = true → winOff s.k s.d w = none → s.d.mstream st = some m → m.part = th.part →
     m.rows = sh.kh * gr → s.k.up (b % 4) 18 = true → s.k.up (st / 64 / 4) (4 + st / 64 % 4) = true → (∀ i, i < 4 → s.k.up i 10 = true) →
     s.k.mdlTier y.model = 0 → l < s.k.mdlLayers y.model → s.k.inSlot w (df x 16 0 48) (2 * sh.kh * gr * sh.dim) = true → 0 < sh.kh → sh.kh * gr * (sh.dim + 1) ≤ 7168 →
     0 < sh.t → sh.t ≤ 64 → a.lo 0 ≤ a.hi 0 → a.hi 0 / sh.t = pg → a.hi 0 < pageMax * sh.t → mapped s.k s.d b l pg = true → pteShared e = false →
     s.d.bad (s.k.winAddr w + df x 16 0 48) (2 * sh.kh * gr * sh.dim) = false → (m.ordered = true → base < m.shards) → g < 2048 →
     stackFull s.d [g] (g % 4) = false → (s.d.sunit g).lost = false → s.d.sissue s.d.sal.nextId = none →
     Goes (.sailAttn t p ts ds) s (fun d' => Started d' t th o ∧ d'.mem = s.d.mem ∧ (d'.basket b).state = .decoding ∧ (∀ c, c ≠ b → d'.basket c = s.d.basket c) ∧
       (∀ h, h ≠ g → d'.sunit h = s.d.sunit h) ∧
       (∃ c, d'.sunit g = { s.d.sunit g with queue := (s.d.sunit g).queue ++ [c], part := some th.part } ∧ c.iss = s.d.sal.nextId ∧ c.op = 1 ∧ c.part = th.part ∧
         attnFrames c.desc c.opnd = [(sailOff f / 1024 * 1024, a.lo 0 % sh.t, a.hi 0 % sh.t + 1)] ∧ c.rows = (List.range (sh.kh * gr)).map (fun r => (r, base))) ∧
       d'.mstream st = some { m with base := m.base + 1, qh := some (m.qh.getD (sh.kh * gr)) } ∧
       ∃ z, d'.sissue s.d.sal.nextId = some z ∧ z.left = 1 ∧ z.n = 1 ∧ z.detail = 1 ∧ z.stream = some st ∧ g % 4 ∈ z.owed))

/-- R263, R271, R275 to R278, R285: what a unit does: it starts its next command, which the power cap and the throttle let its controller admit (R683, R685), clearing its result area for
another partition; a stroke ends with its command, done then,
or at STROKE_MAX; a refresh is issued or awaits the gap; a unit out of service holds nothing. -/
def Obligations.SailUnits : Prop :=
  ∀ (s : State) (g : Nat), g < 2048 →
    let u := s.d.sunit g
    let now := s.k.ticks
    let others := fun (d' : Data) => ∀ h, h ≠ g → d'.sunit h = s.d.sunit h
    (∀ c rest, u.cur = none → u.queue = c :: rest → c.need = none → c.vec = none → s.k.up (g % 4) 10 = true →
      (capGrant s.k s.d (80 + g % 4) (c.cls s.d) c.part false).2 = true →
      Goes (.unitCommand g) s (fun d' => others d' ∧ (d'.sunit g).cur = some c ∧ (d'.sunit g).queue = rest ∧ (d'.sunit g).part = u.part ∧ (d'.sunit g).ran = some c.part ∧
        (u.ran = none ∨ u.ran = some c.part → d'.mem = s.d.mem) ∧
        (∀ q, u.ran = some q → q ≠ c.part → SameOutside s.d d' (resultBase g) 4096 ∧ ∀ i, i < 4096 → memByte d'.mem (resultBase g + i) = 0#8))) ∧
    (∀ c z th op, u.cur = some c → u.since ≤ now → u.left ≤ now - u.since → s.d.sissue c.iss = some z → z.left = 1 → z.res = [] → z.stream = none → z.out = none →
      z.op ≠ 8 → rowsOut s.d c.iss = false → s.d.thr z.thread = some th → op ∈ th.ops → op.id = z.opId → op.done = none →
      let x := c.desc
      let dst := bankBase g + df x 16 0 28
      let out := df x 48 0 48 + c.idx * df x 56 0 32
      let from_ := resultBase g + df x 16 0 12
      let done := fun (d' : Data) => OpDone d' z.thread z.opId .ok z.n (0xFFF + z.detail * 4096) ∧ (d'.sunit g).cur = none ∧ others d' ∧ d'.sissue c.iss = none
      (c.op = 5 → df x 20 0 28 % 8 = 0 → Goes (.strokeEnd g) s (fun d' => done d' ∧ SameOutside s.d d' dst (df x 20 0 28) ∧
        ∀ i, i < df x 20 0 28 → memByte d'.mem (dst + i) = x.extractLsb' (192 + 8 * (i % 8)) 8)) ∧
      (c.op = 7 → df x 60 0 1 = 0 → s.d.bad from_ (df x 18 0 13) = false → Goes (.strokeEnd g) s (fun d' => done d' ∧ SameOutside s.d d' out (df x 18 0 13) ∧
        CopiedTo s.d d' out from_ (df x 18 0 13)))) ∧
    (∀ c, u.cur = some c → u.since ≤ now → now - u.since < u.left → strokeMax s.k s.d (g % 4) ≤ now - u.since → Goes (.strokeEnd g) s (fun d' => others d' ∧
      d'.mem = s.d.mem ∧ (d'.sunit g).cur = some c ∧ (d'.sunit g).queue = u.queue ∧ (d'.sunit g).left = u.left - (now - u.since) ∧ now < (d'.sunit g).since)) ∧
    (u.due ≤ now → s.k.up (g % 4) 10 = true →
      (∀ c, u.cur = some c → Goes (.refreshDue g) s (fun d' => others d' ∧ d'.mem = s.d.mem ∧ d'.sunit g = { u with refresh := true })) ∧
      (u.cur = none → Goes (.refreshDue g) s (fun d' => others d' ∧ d'.mem = s.d.mem ∧ (d'.sunit g).refresh = false ∧ now < (d'.sunit g).due ∧
        now + 80 ≤ (d'.sunit g).since ∧ (d'.sunit g).queue = u.queue))) ∧
    (u.lost = false → u.cur = none → u.queue = [] → Goes (.sailUnitLost g) s (fun d' => others d' ∧ d'.mem = s.d.mem ∧ (d'.sunit g).lost = true ∧
      d'.stsBit (salSts (g % 4)) 2 = true ∧ d'.stsBit 0x0900080 22 = true))

/-! ### The Merge engines and the codec -/

/-- R306, R307: `mrg.open` opens the stream its descriptor names, with no input and every accumulator empty, and stays outstanding. R302, R308 to R310, R314, R317: rows,
markers and peer contributions enter a stream; a stream without all its inputs at MRG_TMO completes with TIMEOUT; a refused contribution is sent again. R308, R309,
R313: a stream with all its inputs sends its rows to its peer, or writes each row, normalised, to its destination; one with a poisoned row writes nothing. A `mrg.open` that a meter judges opens its stream at once too, and
its output waits for the colour (R307, R487). -/
def Obligations.MergeStreams : Prop :=
  (∀ (s : State) (t : Nat) (p : BitVec 2) (th : Thread) (ts : BitVec 5) (ds : BitVec 4), Issues s.d t p th →
     let x := th.dReg ds.toNat
     let o := newOp s.k th 3 0 none ts ds
     let e := df x 0 0 4
     let n := 64 * e + df x 0 4 6
     let dim := 64 * 2 ^ df x 0 12 2
     let rows := df x 2 0 13
     let ordered := df x 0 10 1 = 1
     let toPeer := df x 20 3 1 = 1
     let nd := df x 20 0 3
     let dest := fun (i : Nat) => (df x (24 + 8 * i) 0 16, df x (24 + 8 * i) 16 8, df x (24 + 8 * i) 24 24, df x (24 + 8 * i) 48 16)
     let outB := rows * dim * (if df x 0 14 1 = 1 then 4 else 2)
     Prompt s.k s.d th o →
     descOk x [(0, 0, 15), (2, 0, 13), (4, 0, 5), (5, 0, 4), (6, 0, 13), (8, 0, 48), (16, 0, 24), (20, 0, 4), (21, 0, 4), (22, 0, 14), (24, 0, 64), (32, 0, 64), (40, 0, 64),
       (48, 0, 64), (56, 0, 16)] = true →
     df x 0 12 2 < 3 → 0 < rows → rows ≤ 4096 → df x 4 0 5 ≤ 16 → 0 < df x 4 0 5 + df x 5 0 4 → (toPeer → df x 5 0 4 = 0 ∧ s.k.qpPart (df x 22 0 14) = some th.part) →
     (toPeer ∨ 0 < df x 5 0 4 → s.k.genRole = true) →
     (¬ toPeer → 1 ≤ nd ∧ nd ≤ 4 ∧ ∀ i, i < nd → let y := dest i; s.k.winOn y.1 = true ∧ s.k.winPart y.1 = th.part ∧ s.k.winOut y.1 = true ∧ s.k.winQuery y.1 = false ∧
       winOff s.k s.d y.1 = none ∧ y.2.1 < s.k.winSlots y.1 ∧ y.2.2.1 < s.k.winSlotBytes y.1 ∧ (df x 16 0 24 = 0 → y.2.2.1 + outB ≤ s.k.winSlotBytes y.1)) →
     (ordered → 0 < df x 6 0 13 ∧ df x 6 0 13 ≤ 4096 ∧ df x 8 0 48 % 64 = 0 ∧
       s.k.dpaCheck th.part (df x 8 0 48) (df x 6 0 13 * rows * (8 + (if df x 0 11 1 = 1 then 2 else 4) * dim)) false = none) →
     s.k.up (e / 4) (4 + e % 4) = true → s.d.mstream n = none → (∀ y ∈ s.d.mrg.streams, ¬ (y.2.thread = t ∧ y.2.opId = th.freshOp)) →
     slotsUsed s.d e + rows * (if 128 < dim then 2 else 1) ≤ 4096 →
     Goes (.mrgOpen t p ts ds) s (fun d' => Started d' t th { o with metered := true } ∧ d'.mem = s.d.mem ∧ (∀ i, i ≠ n → d'.mstream i = s.d.mstream i) ∧ ∃ m, d'.mstream n = some m ∧ m.thread = t ∧
       m.opId = th.freshOp ∧ m.part = th.part ∧ (m.ordered = true ↔ ordered) ∧ (m.pfmt = true ↔ df x 0 11 1 = 1) ∧ m.dim = dim ∧ (m.ofp32 = true ↔ df x 0 14 1 = 1) ∧
       m.rows = rows ∧ m.sources = df x 4 0 5 ∧ m.peers = df x 5 0 4 ∧ m.shards = df x 6 0 13 ∧ m.area = df x 8 0 48 ∧ m.stride = df x 16 0 24 ∧
       (m.toPeer = true ↔ toPeer) ∧ m.qp = df x 22 0 14 ∧ m.mtag = df x 56 0 16 ∧ m.deadline = s.k.ticks + s.k.mrgTmo ∧ m.marks = 0 ∧ m.aborted = false ∧ m.acc = [] ∧
       m.staged = [] ∧ m.bad = [] ∧ m.came = [] ∧ m.ending = false ∧ (¬ toPeer → m.dests = (List.range nd).map dest))) ∧
  (∀ (s : State) (e i : Nat) (m : MStream),
     let n := 64 * e + i
     s.d.mstream n = some m →
     (∀ iss r rank bytes rest, s.d.wireOf n = .row iss r rank bytes false :: rest → m.ending = false → r < m.rows → m.rowBytes ≤ bytes.length →
       (∀ z, s.d.sissue iss = some z → z.left ≠ 0) →
       (m.ordered = true → rank < m.shards → let a := m.area + (rank * m.rows + r) * m.rowBytes
         Goes (.partialRowArrival e i) s (fun d' => d'.wireOf n = rest ∧ d'.mstream n = some { m with staged := m.staged ++ [4096 * r + rank] } ∧
           SameOutside s.d d' a m.rowBytes ∧ memBytes d'.mem a m.rowBytes = bytes.take m.rowBytes)) ∧
       (m.ordered = false →
         let row := fun (l : List Byte) => rowOf m.pfmt m.dim (l.take m.rowBytes)
         let folded := fun (ps : List ARow) =>
           let l := ps.filter (fun p => !p.isEmpty)
           let f := (foldRows (m.accOf r) l).1
           if l = [] then m else { m with acc := Tab.set m.acc r (fp32.result f.m, fp32.result f.l, f.o.map fp32.result) }
         (mateOf rest r = none → Goes (.partialRowArrival e i) s (fun d' => d'.wireOf n = rest ∧ d'.mem = s.d.mem ∧ d'.mstream n = some (folded [row bytes]))) ∧
         (∀ j iss2 b2, mateOf rest r = some (j, iss2, b2) → m.rowBytes ≤ b2.length → (∀ z, s.d.sissue iss2 = some z → z.left ≠ 0) →
           Goes (.partialRowArrival e i) s (fun d' => d'.mem = s.d.mem ∧ ((d'.wireOf n = rest ∧ d'.mstream n = some (folded [row bytes])) ∨
             (d'.wireOf n = rest.eraseIdx j ∧ d'.mstream n = some (folded [row bytes, row b2]))))))) ∧
     (∀ ab rest, s.d.wireOf n = .mark ab :: rest → (ab = false → m.aborted = false) → (ab = false ∨ m.marks + 1 < 4 * m.sources) →
       Goes (.endMarker e i) s (fun d' => d'.wireOf n = rest ∧ d'.mem = s.d.mem ∧ d'.mstream n = some { m with marks := m.marks + 1, aborted := m.aborted || ab })) ∧
     (∀ rest, s.d.wireOf n = .mark true :: rest → m.ending = false → 4 * m.sources ≤ m.marks + 1 →
       Goes (.endMarker e i) s (fun d' => d'.mem = s.d.mem ∧ OpDone d' m.thread m.opId .aborted 0 0)) ∧
     (m.deadline ≤ s.k.ticks → m.ending = false → m.aborted = false → m.complete = false → Goes (.mrgTmo e i) s (fun d' => d'.mem = s.d.mem ∧
       OpDone d' m.thread m.opId .timeout 0 0 ∧ d'.mstream n = none ∧ d'.stsBit mrgSts 0 = true)) ∧
     (∀ at_, m.retryAt = some at_ → at_ ≤ s.k.ticks → s.k.ticks < m.deadline → (s.d.qp m.qp).state = .ready → Goes (.peerRetry e i) s (fun d' => d'.mem = s.d.mem ∧
       SentEngine d' m.qp 3 (peerMsg m) ∧ d'.mstream n = some { m with ending := true, retryAt := none })) ∧
     (∀ q c, s.k.genRole = true → s.d.peekMsg q 3 (fun _ => true) = some c → mfld c.bytes 0 2 % 16 = e → mfld c.bytes 0 2 / 16 % 64 = i → s.k.up (e / 4) (4 + e % 4) = true →
       (s.d.qp q).part = m.part → mfld c.bytes 2 2 = m.mtag → mfld c.bytes 6 2 = m.dim → mfld c.bytes 8 8 = m.rows → m.toPeer = false → m.ending = false → m.ordered = true →
       Goes (.peerContribution q) s (fun d' => d'.mem = s.d.mem ∧ d'.ttx.inbox = dropFirst q s.d.ttx.inbox ∧
         d'.mstream n = some { m with came := m.came ++ [(bitsOf (mfld c.bytes 4 1) 0 4, c.bytes)] }))) ∧
  (∀ (s : State) (e i : Nat) (m : MStream),
     let n := 64 * e + i
     let m' := (if m.ordered then foldOrdered s.d e m else (s.d, m)).2
     s.d.mstream n = some m → m.complete = true → m.ending = false → m.aborted = false → (∃ o, s.d.op m.thread m.opId = some o ∧ o.metered = true) →
     (∀ r, m.bad = [r] → m.ordered = false → Goes (.streamFinish e i) s (fun d' => d'.mem = s.d.mem ∧ OpDone d' m.thread m.opId .poison 0 r ∧ d'.stsBit mrgSts 1 = true)) ∧
     (m.bad = [] → (m.ordered = true → ∀ x ∈ m.staged, s.d.bad (m.area + (x % 4096 * m.rows + x / 4096) * m.rowBytes) m.rowBytes = false) →
       (m.toPeer = true → (s.d.qp m.qp).state = .ready → Goes (.streamFinish e i) s (fun d' => d'.mem = s.d.mem ∧ SentEngine d' m.qp 3 (peerMsg m'))) ∧
       (∀ w slot off, m.toPeer = false → m.dests = [(w, slot, off, 0xFFFF)] → m.stride = 0 → s.k.winRemote w = false → slot ∈ (s.d.win w).grants →
         let bytes := (List.range m.rows).flatMap (fun r => (m'.normal r).1.flatMap (fun c => bytesLE (if m.ofp32 then 4 else 2) c))
         let a := s.k.winAddr w + slot * s.k.winSlotBytes w + off
         0 < m.rows → off + m.rows * m.dim * (if m.ofp32 then 4 else 2) ≤ s.k.winSlotBytes w → off < s.k.winSlotBytes w →
         off + bytes.length ≤ s.k.winSlotBytes w →
         Goes (.streamFinish e i) s (fun d' => OpDone d' m.thread m.opId .ok m.rows 0 ∧ memBytes d'.mem a bytes.length = bytes ∧ SameOutside s.d d' a bytes.length))))

/-- R164 to R172, R175 to R177: `env.pack` writes the Envelope object of its source bytes; `env.unpack` writes the raw bytes of its segments to a DPA or a granted slot. -/
def Obligations.EnvelopeOperations : Prop :=
  ∀ (s : State) (t : Nat) (p : BitVec 2) (th : Thread) (ts : BitVec 5) (ds : BitVec 4), Issues s.d t p th →
    let x := th.dReg ds.toNat
    s.k.up (t / 4096 / 4) 11 = true →
    (let o := newOp s.k th 4 0 none ts ds
     let src := df x 0 0 48
     let dst := df x 8 0 48
     let n := df x 16 0 35
     let e := df x 24 0 3
     let segs := (n + 4095) / 4096
     let ob := envPack (s.k.codeTable th.part (df x 24 3 4)) (df x 24 3 4) e (df x 24 7 1 == 1) (memBytes s.d.mem src n)
     Prompt s.k s.d th o → descOk x [(0, 0, 48), (8, 0, 48), (16, 0, 35), (24, 0, 12), (28, 0, 40)] = true → e ≤ 4 → 1 ≤ df x 24 8 4 → df x 24 8 4 ≤ 12 →
     dst % 8 = 0 → 0 < n → n ≤ 2 ^ 34 → n % elemSize e = 0 → 8 + 4 * (segs + 1) + 4104 * segs ≤ df x 28 0 40 → readCheck s.k s.d th.part src n true = none →
     s.k.dpaCheck th.part dst (df x 28 0 40) false = none → s.d.bad src n = false →
     Goes (.envPack t p ts ds) s (fun d' => Completed d' t th o .ok segs (ob.2.filter (fun m => m == .coded)).length ∧ memBytes d'.mem dst ob.1.length = ob.1 ∧
       SameOutside s.d d' dst ob.1.length)) ∧
    (let o := newOp s.k th 4 1 none ts ds
     let src := df x 0 0 48
     let dst := df x 8 0 48
     let first := df x 16 0 23
     let cnt := df x 20 0 23
     let w := df x 28 0 16
     let sb := s.k.winSlotBytes w
     let dest := if df x 24 4 2 = 1 then s.k.winAddr w + dst else dst
     ∀ n last e l, Prompt s.k s.d th o → descOk x [(0, 0, 48), (8, 0, 48), (16, 0, 23), (20, 0, 23), (24, 0, 6), (24, 16, 16), (28, 0, 16)] = true →
     1 ≤ df x 24 0 4 → df x 24 0 4 ≤ 12 → df x 24 4 2 ≤ 1 → src % 8 = 0 → 0 < cnt → cnt ≤ 4194304 → df x 24 16 16 = 0xFFFF → s.k.dpaCheck th.part src 8 false = none →
     s.d.bad src 8 = false → objHeader (s.d.rd src 8) = some (n, last, e) → first + cnt ≤ n →
     (let size := if first + cnt = n then 4096 * (cnt - 1) + last else 4096 * cnt
      (df x 24 4 2 = 0 → s.k.dpaCheck th.part dst size true = none) ∧
      (df x 24 4 2 = 1 → s.k.winCheck th.part w true false = none ∧ winOff s.k s.d w = none ∧ s.k.winRemote w = false ∧ dst + size ≤ s.k.winSlots w * sb ∧ 0 < sb ∧
        (∀ i, i < s.k.winSlots w → i ∈ (s.d.win w).grants)) ∧ (l.flatMap (fun z => z.1)).length ≤ size) →
     expand s.k s.d th.part src n last e cnt first = (l, none) →
     Goes (.envUnpack t p ts ds) s (fun d' => Completed d' t th o .ok cnt 0 ∧ memBytes d'.mem dest (l.flatMap (fun z => z.1)).length = l.flatMap (fun z => z.1) ∧
       SameOutside s.d d' dest (l.flatMap (fun z => z.1)).length))

/-! ### The transport -/

/-- R417 to R420, R430 to R432, R440, R444, R445: what each transport operation leaves where its rules hold: a QP created, connecting or freed; an operation queued on
its QP; a receive buffer posted; a region registered or revoked. R418, R421, R443: the connect handshake: CONN_REQ and CONN_ACC make a CONNECTING QP READY, CONN_REJ
and CONN_TMO return it to INIT, CONN_WAIT changes nothing; CLOSE fails a READY QP with DEAD_TARGET. -/
def Obligations.TransportOperations : Prop :=
  (∀ (s : State) (t : Nat) (p : BitVec 2) (th : Thread) (ts : BitVec 5) (ds : BitVec 4), Issues s.d t p th →
     let x := th.dReg ds.toNat
     let o := fun (opc : Nat) => newOp s.k th 6 opc none ts ds
     let q := df x 0 0 14
     let y := s.d.qp q
     let loc := df x 8 0 48
     let n := df x 16 0 25
     let tgt := df x 20 0 32
     let off := df x 24 0 48
     let queued := fun (opc : Nat) (P : TxOp → Prop) (d' : Data) => Started d' t th (o opc) ∧ d'.mem = s.d.mem ∧ (∀ j, j ≠ q → d'.qp j = s.d.qp j) ∧
       ∃ z, (d'.qp q).txq = y.txq ++ [z] ∧ z.cls = th.cls ∧ z.sent = 0 ∧ P z
     (∀ i, Prompt s.k s.d th (o 0) → descOk x [(0, 0, 7)] = true → 1 ≤ df x 0 0 7 → df x 0 0 7 ≤ 64 → s.k.nodeOn = true →
       lowestQp s.d (s.k.qpBase th.part) (s.k.qpCount th.part) = some i → let inc := ((s.d.qp i).incarn + 1) % 256
       Goes (.qpCreate t p ts ds) s (fun d' => Completed d' t th (o 0) .ok 0 (i + inc * 2 ^ 14) ∧ d'.mem = s.d.mem ∧
         QpNow s.d d' i { qpReset with state := .init, incarn := inc, part := th.part, rqDepth := df x 0 0 7 })) ∧
     (let ln := df x 7 0 3
      let links := (List.range ln).map (fun i => (df x (8 + 2 * i) 0 4, df x (8 + 2 * i) 4 2))
      let key := 256 * th.part + df x 32 0 16
      Prompt s.k s.d th (o 1) → descOk x [(0, 0, 14), (2, 0, 16), (4, 0, 14), (6, 0, 4), (7, 0, 3), (8, 0, 6), (10, 0, 6), (12, 0, 6), (14, 0, 6), (16, 0, 128),
        (32, 0, 16)] = true → 1 ≤ ln → ln ≤ 4 → links.Nodup → (∀ l ∈ links, l.2 < modeLinks (s.k.portMode l.1) ∧ 1024 * 2 ^ df x 6 0 2 + 138 ≤ s.k.fld (ttpCfg l.1) 8 14) →
      s.k.qpPart q = some th.part → y.state = .init → s.k.fld 0x1B00040 (if df x 6 2 1 = 1 then 18 else 17) 1 = 1 →
      (df x 6 3 1 = 1 → df x 32 0 16 < 256 ∧ Tab.has s.k.sec.qpKeys key = true) → s.k.nodeOn = true →
      Goes (.qpConnect t p ts ds) s (fun d' => Started d' t th (o 1) ∧ d'.mem = s.d.mem ∧ QpNow s.d d' q { y with
        state := .connecting
        peerNode := df x 2 0 16
        peerQp := df x 4 0 14
        peerIncarn := 0
        payload := df x 6 0 2
        v4 := decide (df x 6 2 1 = 1)
        sec := decide (df x 6 3 1 = 1)
        links := links
        peerAddr := if df x 6 2 1 = 1 then df x 16 0 32 else df x 16 0 128
        key := if df x 6 3 1 = 1 then Tab.getD s.k.sec.qpKeys key 0 else 0
        connOp := some (t, th.freshOp)
        connDue := s.k.ticks + s.k.fld 0x1B00088 44 12 * 500000
        connAt := s.k.ticks + 50000 })) ∧
     (Prompt s.k s.d th (o 2) → descOk x [(0, 0, 14)] = true → s.k.qpPart q = some th.part → y.state ≠ .free → y.txq = [] → y.slots = [] → y.connOp = none →
       s.d.noRiders q → Goes (.qpDestroy t p ts ds) s (fun d' => Completed d' t th (o 2) .ok 0 0 ∧ d'.mem = s.d.mem ∧ QpNow s.d d' q { qpReset with incarn := y.incarn })) ∧
     (s.k.qpPart q = some th.part → y.state = .ready →
       (descOk x tqFields = true →
         (readCheck s.k s.d th.part loc n false = none → n ≤ 16777216 →
           (Prompt s.k s.d th (o 3) → Goes (.tqSend t p ts ds) s (queued 3 (fun z => z.opc = 1 ∧ z.src = some loc ∧ z.len = n ∧ z.owner = .thr t th.freshOp 0))) ∧
           (Prompt s.k s.d th (o 5) → (bitsOf tgt 31 1 = 1 → bitsOf tgt 22 9 = 0) →
             (0 < n ∨ (bitsOf tgt 31 1 = 1 ∧ df x 32 0 1 = 1)) → Goes (.tqWrite t p ts ds) s (queued 5 (fun z => z.opc = 2 ∧ z.src = some loc ∧
             z.len = n ∧ z.target = tgt ∧ z.off = off ∧ (z.fin = true ↔ bitsOf tgt 31 1 = 1 ∧ df x 32 0 1 = 1) ∧ z.owner = .thr t th.freshOp 0)))) ∧
         (s.k.dpaCheck th.part loc 8 false = none → df x 24 0 3 = 0 → df x 20 31 1 = 0 →
           (Prompt s.k s.d th (o 6) → Goes (.tqFadd t p ts ds) s (queued 6 (fun z => z.opc = 3 ∧ z.target = tgt ∧ z.off = off ∧ z.o1 = df x 40 0 64 ∧
             z.owner = .thr t th.freshOp loc))) ∧
           (Prompt s.k s.d th (o 7) → Goes (.tqCas t p ts ds) s (queued 7 (fun z => z.opc = 4 ∧ z.target = tgt ∧ z.off = off ∧ z.o1 = df x 40 0 64 ∧
             z.o2 = df x 48 0 64 ∧ z.owner = .thr t th.freshOp loc))))) ∧
       (let sl := df x 20 0 6
        Prompt s.k s.d th (o 4) → descOk x [(0, 0, 14), (8, 0, 48), (16, 0, 25), (20, 0, 6), (22, 0, 16)] = true → n ≤ 16777216 → s.k.dpaCheck th.part loc n false = none →
        sl < y.rqDepth → (∀ z, Tab.get? y.slots sl = some z → z.posted = false ∧ z.gen ≠ df x 22 0 16) →
        Goes (.tqRecv t p ts ds) s (fun d' => Started d' t th (o 4) ∧ d'.mem = s.d.mem ∧ QpNow s.d d' q { y with
          slots := Tab.set y.slots sl ⟨true, df x 22 0 16, loc, n, y.order, t, th.freshOp, 0⟩
          order := y.order + 1 }))) ∧
     (let a := df x 0 0 48
      let m := df x 8 0 48
      ∀ i, Prompt s.k s.d th (o 8) → descOk x [(0, 0, 48), (8, 0, 48), (16, 0, 4)] = true → a % 4096 = 0 → m % 4096 = 0 → 0 < m → s.k.tierOf a m ≠ .unmapped →
      s.k.tierOf a m ≠ .aperture → s.k.tetherLent th.part a m = true → (List.range 16384).find? (fun i => (s.d.region i).state == .free) = some i →
      Goes (.tqReg t p ts ds) s (fun d' => Completed d' t th (o 8) .ok 0 (i + (s.d.region i).gen * 2 ^ 14) ∧ d'.mem = s.d.mem ∧ (∀ j, j ≠ i → d'.region j = s.d.region j) ∧
        d'.region i = { s.d.region i with state := .valid, base := a, size := m, access := df x 16 0 4, part := th.part })) ∧
     (let i := df x 0 0 14
      let r := s.d.region i
      Prompt s.k s.d th (o 9) → descOk x [(0, 0, 32)] = true → df x 0 31 1 = 0 → r.state = .valid → r.gen = df x 0 14 17 → r.part = th.part → r.revokes = [] →
      (r.openOps = [] → Goes (.tqRevoke t p ts ds) s (fun d' => Completed d' t th (o 9) .ok r.abandoned 0 ∧ d'.mem = s.d.mem ∧ (∀ j, j ≠ i → d'.region j = s.d.region j) ∧
        d'.region i = { r with state := .free, gen := (r.gen + 1) % 2 ^ 17, abandoned := 0 })) ∧
      (r.openOps ≠ [] → Goes (.tqRevoke t p ts ds) s (fun d' => Started d' t th (o 9) ∧ d'.mem = s.d.mem ∧
        d'.region i = { r with state := .draining, revokes := [(t, th.freshOp)] })))) ∧
  (∀ (s : State) (port link : Nat) (pkt : Packet) (t i rq inc pay st : Nat) (sec : Bool) (q : Nat),
     let x := s.d.qp q
     let others := fun (d' : Data) => d'.mem = s.d.mem ∧ ∀ j, j ≠ q → d'.qp j = s.d.qp j
     let up := fun (d' : Data) => others d' ∧ (d'.qp q).state = .ready ∧ (d'.qp q).peerIncarn = inc ∧ (d'.qp q).nextPsn = 0 ∧ (d'.qp q).epsn = 0 ∧ (d'.qp q).connOp = none ∧
       OpDone d' t i .ok 0 0
     let back := fun (e : Status) (d' : Data) => others d' ∧ d'.qp q = { x with state := .init, connOp := none } ∧ OpDone d' t i e 0 0
     (x.state = .connecting → x.connOp = some (t, i) → Pending s.d t i →
       (pkt.dstQp = q → pkt.ext = .conn rq inc pay sec st → x.peerNode = pkt.srcNode → x.peerQp = rq →
         (Arrives s.k s.d port link 0x20 pkt → s.k.qpPart q = some pkt.part → pay = x.payload → sec = x.sec → Goes (.connReq port link true pkt) s up) ∧
         (Arrives s.k s.d port link 0x20 pkt → s.k.qpPart q = some pkt.part → (pay ≠ x.payload ∨ sec ≠ x.sec) → Goes (.connReq port link true pkt) s (back .cfgInvalid)) ∧
         (Arrives s.k s.d port link 0x21 pkt → Goes (.connAcc port link true pkt) s up) ∧
         (∀ e, Arrives s.k s.d port link 0x22 pkt → Status.ofCode? st = some e → Goes (.connRej port link true pkt) s (back e))) ∧
       (x.connDue ≤ s.k.ticks → Goes (.connTmo q) s (back .timeout)) ∧
       (∀ l, s.k.nodeOn = true → x.connAt ≤ s.k.ticks → Data.pathOf s.k s.d q = some l → Goes (.connReqResend q) s (fun d' => others d' ∧ (d'.qp q).state = .connecting ∧
         (d'.qp q).connAt = s.k.ticks + 50000 ∧ ∃ z, d'.out = s.d.out ++ [.packet l.1 l.2 z] ∧ z.opcode = 0x20 ∧ z.dstNode = x.peerNode ∧ z.dstQp = x.peerQp))) ∧
     (Arrives s.k s.d port link 0x23 pkt → Goes (.connWait port link true pkt) s (fun d' => d' = s.d)) ∧
     (∀ o a, Arrives s.k s.d port link 0x24 pkt → pkt.dstQp = q → fromPeer s.d pkt = true → x.txq = [o] → o.owner = .thr t i a → Pending s.d t i → x.slots = [] →
       x.connOp = none → s.d.noRiders q →
       Goes (.close port link true pkt) s (fun d' => others d' ∧ (d'.qp q).state = .error ∧ (d'.qp q).status = Status.deadTarget.code ∧ (d'.qp q).txq = [] ∧
         (d'.qp q).unacked = [] ∧ OpDone d' t i .deadTarget 0 0 ∧ d'.stsBit 0x1B00140 1 = true)))

/-- R431 to R436, R440: what the target does with the next packet a QP expects: a WRITE and a SEND are placed, an atomic is applied, a message waits for its engine; one
for no such QP is answered and changes nothing else; a duplicate is not applied; an ACK goes out 2 µs after the first packet that waits for one. R430, R435 to R438,
R440, R442, R447: the sender: the next packet carries the next bytes of its operation and stays unacknowledged; an ACK, an atomic's result and a NAK complete the
operation they answer; a packet not acknowledged in time is sent again at half the rate, or the QP fails with TIMEOUT. R6, R423, R425,
R427: a packet's bytes on the wire: the lengths of header and extension, the trailer, and the network byte order of its fields. -/
def Obligations.Packets : Prop :=
  (∀ (s : State) (port link : Nat) (auth : Bool) (pkt : Packet),
     let q := pkt.dstQp
     let x := s.d.qp q
     let n := pkt.data.length
     let next := fun (d' : Data) => (d'.qp q).epsn = (pkt.psn + 1) % 2 ^ 24 ∧ (d'.qp q).rx = none ∧ (∀ j, j ≠ q → d'.qp j = s.d.qp j)
     (ArrivesNext s.k s.d port link auth pkt → pkt.first = true → pkt.last = true → s.d.flaws = [] →
       (∀ target off total fin, pkt.opcode = 2 → pkt.ext = .write target off total fin → bitsOf target 31 1 = 0 → keyCheck s.d x.part target 0 off total = none →
         let a := (s.d.region (bitsOf target 0 14)).base + off
         Goes (.dataPacket port link true auth false pkt) s (fun d' => next d' ∧ SameOutside s.d d' a n ∧ memBytes d'.mem a n = pkt.data)) ∧
       (∀ c sl z, pkt.opcode = 1 → pkt.ext = .msg c n 0 → oldestSlot x = some (sl, z) → Tab.get? x.slots sl = some z → n ≤ z.len → z.high = 0 → Pending s.d z.thread z.opId →
         Goes (.dataPacket port link true auth false pkt) s (fun d' => next d' ∧ SameOutside s.d d' z.dpa n ∧ memBytes d'.mem z.dpa n = pkt.data ∧
           OpDone d' z.thread z.opId .ok n 0)) ∧
       (∀ key off a b, (pkt.opcode = 3 ∨ pkt.opcode = 4) → pkt.ext = .atomic key off a b → keyCheck s.d x.part key 1 off 8 = none →
         let w := (s.d.region (bitsOf key 0 14)).base + off
         let old := s.d.rd w 8
         s.d.bad w 8 = false → a < 2 ^ 64 → b < 2 ^ 64 → Goes (.dataPacket port link true auth false pkt) s (fun d' => next d' ∧ SameOutside s.d d' w 8 ∧
           d'.rd w 8 = (if pkt.opcode = 3 then (old + a) % 2 ^ 64 else if old = a then b else old) ∧ (pkt.psn, 0, old) ∈ (d'.qp q).cache)) ∧
       (∀ c, pkt.opcode = 5 → pkt.ext = .msg c n 0 → (c = 3 ∨ (c = 1 ∧ spoolTypes.contains (msgType pkt.data) = true)) →
         Goes (.dataPacket port link true auth false pkt) s (fun d' => next d' ∧ d'.mem = s.d.mem ∧
           d'.ttx.inbox = s.d.ttx.inbox ++ [⟨q, c, pkt.psn, pkt.psn, pkt.cls, pkt.data⟩]))) ∧
     (s.k.nodeOn = true → Data.carries s.k s.d (port, link) = true → pkt.opcode ∈ [1, 2, 3, 4, 5, 0x32, 0x33, 0x34] →
       (x.state ≠ .ready ∨ pkt.incarn ≠ x.incarn ∨ pkt.srcNode ≠ x.peerNode → Goes (.dataPacket port link true auth false pkt) s (fun d' => d'.mem = s.d.mem ∧
         d'.ttx = s.d.ttx ∧ d'.fyl = s.d.fyl)) ∧
       (x.state = .ready → pkt.incarn = x.incarn → pkt.srcNode = x.peerNode → x.sec = pkt.sec → (pkt.sec = true → auth = true) → 2 ^ 23 ≤ psnSub pkt.psn x.epsn →
         Goes (.dataPacket port link true auth false pkt) s (fun d' => d'.mem = s.d.mem ∧ d'.fyl = s.d.fyl ∧ d'.ttx.inbox = s.d.ttx.inbox ∧ (d'.qp q).epsn = x.epsn ∧
           (d'.qp q).cache = x.cache))) ∧
     (∀ j at_ l, s.k.nodeOn = true → (s.d.qp j).ackDue = some at_ → (s.d.qp j).state = .ready → at_ ≤ s.k.ticks → Data.pathOf s.k s.d j = some l → Goes (.ackTimer j) s (fun d' =>
       d'.mem = s.d.mem ∧ (d'.qp j).ackDue = none ∧ (d'.qp j).applied = 0 ∧ ∃ z, d'.out = s.d.out ++ [.packet l.1 l.2 z] ∧ z.opcode = 0x10))) ∧
  (∀ (s : State) (port link : Nat) (pkt : Packet) (q : Nat) (o : TxOp) (t i a : Nat), o.owner = .thr t i a →
     let x := s.d.qp q
     let others := fun (d' : Data) => ∀ j, j ≠ q → d'.qp j = s.d.qp j
     (∀ l src, let n := Nat.min x.payBytes (o.len - o.sent)
       s.k.nodeOn = true → s.d.flaws = [] → (capGrant s.k s.d (16 + (4 * l.1 + l.2)) o.cls x.part false).2 = true →
       Data.pathOf s.k s.d q = some l → nextTx s.k s.d q = some (.op o) → arbiterPicks s.k s.d l q o.cls = true → o.opc = 2 → o.src = some src → s.d.bad (src + o.sent) n = false →
       x.sec = false → Goes (.packetTransmit q) s (fun d' => d'.mem = s.d.mem ∧ others d' ∧ (d'.qp q).nextPsn = (x.nextPsn + 1) % 2 ^ 24 ∧ ∃ z,
         d'.out = s.d.out ++ [.packet l.1 l.2 z] ∧ z.opcode = 2 ∧ z.psn = x.nextPsn ∧ z.dstNode = x.peerNode ∧ z.dstQp = x.peerQp ∧ z.incarn = x.peerIncarn ∧ z.cls = o.cls ∧
         z.data = memBytes s.d.mem (src + o.sent) n ∧ z.ext = .write o.target (o.off + o.sent) o.len o.fin ∧ (z.last = true ↔ o.len ≤ o.sent + n) ∧
         (d'.qp q).unacked = x.unacked ++ [⟨z, o.id, 0, s.k.ticks + s.k.rto 0, 0, false, false⟩])) ∧
     (∀ u, x.state = .ready → x.txq = [o] → x.unacked = [u] → u.opId = o.id → o.fail = none → o.firstPsn ≠ none → o.len ≤ o.sent → u.sacked = false → u.pkt.psn < 2 ^ 24 →
       Pending s.d t i → s.d.fab.groups = [] → pkt.dstQp = q → x.peerNode = pkt.srcNode → x.incarn = pkt.incarn →
       (∀ st echo sack, Arrives s.k s.d port link 0x10 pkt → answered u.pkt.opcode = false → pkt.ext = .ack u.pkt.psn st echo sack → Goes (.ack port link true pkt) s (fun d' =>
         d'.mem = s.d.mem ∧ others d' ∧ (d'.qp q).txq = [] ∧ (d'.qp q).unacked = [] ∧ OpDone d' t i .ok o.sent 0)) ∧
       (∀ val, Arrives s.k s.d port link 0x12 pkt → isAtomic u.pkt.opcode = true → pkt.ext = .resp u.pkt.psn 0 val → Goes (.atomicResp port link true pkt) s (fun d' =>
         SameOutside s.d d' a 8 ∧ d'.rd a 8 = val % 2 ^ 64 ∧ others d' ∧ (d'.qp q).txq = [] ∧ (d'.qp q).unacked = [] ∧ OpDone d' t i .ok o.sent 0)) ∧
       (∀ code st, Arrives s.k s.d port link 0x11 pkt → pkt.ext = .nak u.pkt.psn code → Status.ofCode? code = some st → st ≠ .deadTarget → Goes (.nak port link true pkt) s (fun d' =>
         d'.mem = s.d.mem ∧ others d' ∧ (d'.qp q).txq = [] ∧ OpDone d' t i st 0 0)) ∧
       (u.due ≤ s.k.ticks → u.k < s.k.ttxRetry → Goes (.qpRetxTimer q u.pkt.psn) s (fun d' => d'.mem = s.d.mem ∧ others d' ∧
         (d'.qp q).rate = Nat.max s.k.minRate (x.rate / 2) ∧ ∃ v, (d'.qp q).unacked = [v] ∧ v.pkt = u.pkt ∧ v.k = u.k + 1 ∧ v.due = s.k.ticks + s.k.rto (u.k + 1))) ∧
       (u.due ≤ s.k.ticks → s.k.ttxRetry ≤ u.k → x.slots = [] → x.connOp = none → s.d.noRiders q → Goes (.qpRetxTimer q u.pkt.psn) s (fun d' => d'.mem = s.d.mem ∧ others d' ∧
         (d'.qp q).state = .error ∧ (d'.qp q).status = Status.timeout.code ∧ OpDone d' t i .timeout 0 0)))) ∧
  (∀ (p : Packet) (tag : List Byte),
     (pktBase p).length = 20 ∧ (extImage p.ext).length ≤ 32 ∧
     (pktImage p tag).length = 24 + (extImage p.ext).length + p.data.length + (if p.sec = true then tag.length else 0) ∧
     (pktImage p tag).drop ((pktImage p tag).length - 4) = bytesBE 4 (crc32c ((pktImage p tag).take ((pktImage p tag).length - 4))) ∧
     (p.psn < 2 ^ 24 → (((pktBase p).drop 10).take 3).foldl (fun n b => 256 * n + b.toNat) 0 = p.psn) ∧
     (p.dstNode < 2 ^ 16 → (((pktBase p).drop 4).take 2).foldl (fun n b => 256 * n + b.toNat) 0 = p.dstNode))

/-- R399 to R407: a Tether link's states, that of a MAC in service, and the frames it receives. A failed calibration or acquisition is tried again after RETRY (R405). -/
def Obligations.LinkStates : Prop :=
  ∀ (s : State) (p l : Nat), p < 16 → l < 4 →
    let x := s.d.link p l
    let now := s.k.ticks
    let mode := s.k.portMode p
    let alone := fun (d' : Data) => d'.mem = s.d.mem ∧ ∀ p' l', l' < 4 → (p' ≠ p ∨ l' ≠ l) → d'.link p' l' = s.d.link p' l'
    let bump := fun (d' : Data) (c n : Nat) => d'.cntVal (cntAddr 0x1A (4 * p + l) c) = Nat.min (2 ^ 64 - 1) (s.d.cntVal (cntAddr 0x1A (4 * p + l) c) + n)
    let go := fun (st : LState) (d' : Data) => alone d' ∧ (d'.link p l).state = st ∧ (d'.link p l).since = now
    let tried := if s.k.portTest p then LState.test else LState.calibrate
    let retry := fun (d' : Data) => alone d' ∧ d'.link p l = { x with since := now + 500000 * s.k.fld (ttpCfg p) 32 8 }
    s.k.macUp p l = true →
    (x.state = .acquire → x.since ≤ now → x.remote = false → s.k.ethRef p = true → Goes (.linkLock p l) s (go .up)) ∧
    (x.state = .acquire → x.since + 50000000 ≤ now → Goes (.acquireTimeout p l) s retry) ∧
    (∀ r, x.state = .up → Goes (.linkFault p l r) s (fun d' => go .hold d' ∧ ((d'.link p l).remote = true ↔ r = true ∨ x.remote = true))) ∧
    (x.state = .hold → x.since + 500 * s.k.fld (ttpCfg p) 24 8 ≤ now → Goes (.holdDown p l) s (fun d' => go .acquire d' ∧ bump d' 12 1)) ∧
    (x.state = .hold → Goes (.faultClear p l) s (fun d' => go .up d' ∧ (d'.link p l).remote = false)) ∧
    (x.state = .calibrate → x.since ≤ now → Goes (.calibrationDone p l true) s (go .acquire) ∧
      Goes (.calibrationDone p l false) s (fun d' => retry d' ∧ d'.stsBit (0x1A100C0 + 0x1000 * p) 4 = true)) ∧
    Goes (.engineHot p true) s (fun d' => d'.mem = s.d.mem ∧ (d'.eng p).hot = true ∧ (d'.link p l).state = (if x.state = .off then .off else .hot)) ∧
    Goes (.engineHot p false) s (fun d' => d'.mem = s.d.mem ∧ (d'.eng p).hot = false ∧ (d'.link p l).state = (if x.state = .hot then
      (if lasersOk s.d p (lasersOf mode l) then tried else .laserWait) else x.state)) ∧
    (∀ (i : Nat) (w : BitVec 8), i < 2 → w.toNat + 100 < s.k.fld (ttpCfg p) 48 8 → Goes (.laserLost p i w) s (fun d' => d'.mem = s.d.mem ∧ bitsOf (d'.eng p).ok i 1 = 0 ∧
      d'.stsBit (0x1A100C0 + 0x1000 * p) 2 = true ∧ (d'.link p l).state = (if bitsOf (lasersOf mode l) i 1 = 1 ∧ x.state ≠ .off ∧ x.state ≠ .hot then .laserWait else x.state))) ∧
    (∀ (i : Nat) (w : BitVec 8), i < 2 → s.k.fld (ttpCfg p) 48 8 + 10 ≤ w.toNat + 100 → Goes (.laserOk p i w) s (fun d' => d'.mem = s.d.mem ∧ bitsOf (d'.eng p).ok i 1 = 1 ∧
      (d'.link p l).state = (if x.state = .laserWait ∧ (List.range 2).all (fun f => bitsOf (lasersOf mode l) f 1 == 0 || f == i || bitsOf (s.d.eng p).ok f 1 == 1) = true then tried else x.state))) ∧
    (∀ len (dst : BitVec 48), x.state = .up ∨ x.state = .hold → 64 ≤ len → len ≤ s.k.fld (ttpCfg p) 8 14 →
      dst.toNat = s.k.fld (0x1A10080 + 0x1000 * p + 8 * l) 0 48 ∨ dst = BitVec.allOnes 48 →
      Goes (.frameReceive p l len true true false dst) s (fun d' => bump d' 1 1 ∧ bump d' 3 len ∧ d'.mem = s.d.mem ∧ d'.links = s.d.links) ∧
      Goes (.frameReceive p l len true true true dst) s (fun d' => bump d' 8 1 ∧ bump d' 1 0 ∧ d'.mem = s.d.mem ∧ d'.links = s.d.links) ∧
      Goes (.frameReceive p l len false true false dst) s (fun d' => bump d' 4 1 ∧ bump d' 1 0 ∧ d'.mem = s.d.mem ∧ d'.links = s.d.links))

/-! ### The fabric -/

/-- R455, R458, R462 to R466, R468, R470, R477: what fabric issues leave where their rules hold: an access queued on the route's QP; a group operation complete at a
member alone, or its GOP_UP sent to the parent; a hold ended; a heartbeat interval judged; a reset asked of rank 0. R457, R460, R463 to R468, R470, R471, R475, R476:
what fabric events do: load requests and data, tree messages, time limits, the teardown of a partition's accesses, heartbeats, elections and re-pointing. -/
def Obligations.Fabric : Prop :=
  (∀ (s : State) (t : Nat) (p : BitVec 2) (th : Thread) (ts : BitVec 5) (ds : BitVec 4), Issues s.d t p th →
     let x := th.dReg ds.toNat
     let o := fun (opc : Nat) => newOp s.k th 7 opc none ts ds
     let loc := df x 8 0 48
     let off := df x 0 0 48
     let n := df x 16 0 25
     (∀ q, df x 0 48 16 < 8192 → df x 0 48 16 ≠ s.k.node → th.part ∉ s.d.fab.teardown → routeQp s.k s.d th.part (df x 0 48 16) = some q → (s.d.qp q).state = .ready →
       (s.d.qp q).peerNode = df x 0 48 16 → (s.d.qp q).part = th.part → descOk x [(0, 0, 64), (8, 0, 48), (16, 0, 25), (20, 0, 64), (28, 0, 64)] = true → n ≤ 16777216 →
       let queued := fun (opc : Nat) (P : TxOp → Prop) (d' : Data) => Started d' t th (o opc) ∧ d'.mem = s.d.mem ∧ (∀ j, j ≠ q → d'.qp j = s.d.qp j) ∧
         ∃ z, (d'.qp q).txq = (s.d.qp q).txq ++ [z] ∧ z.off = off ∧ z.owner = .fab t th.freshOp loc ∧ z.sent = 0 ∧ P z
       (0 < n → s.k.dpaCheck th.part loc n false = none → Prompt s.k s.d th (o 0) → Goes (.fabLoad t p ts ds) s (fun d' => queued 0 (fun z => z.opc = 0x30 ∧ z.len = n) d' ∧
         ∃ th', d'.thr t = some th' ∧ th'.wait = some (.block th.freshOp))) ∧
       (0 < n → readCheck s.k s.d th.part loc n false = none → Prompt s.k s.d th (o 1) → Goes (.fabStore t p ts ds) s (queued 1 (fun z => z.opc = 0x32 ∧ z.len = n ∧
         z.src = some loc))) ∧
       (off % 8 = 0 → s.k.dpaCheck th.part loc 8 false = none →
         (Prompt s.k s.d th (o 2) → Goes (.fabFadd t p ts ds) s (queued 2 (fun z => z.opc = 0x33 ∧ z.len = 8 ∧ z.o1 = df x 20 0 64))) ∧
         (Prompt s.k s.d th (o 3) → Goes (.fabCas t p ts ds) s (queued 3 (fun z => z.opc = 0x34 ∧ z.len = 8 ∧ z.o1 = df x 20 0 64 ∧ z.o2 = df x 28 0 64))))) ∧
     (let g := df x 0 0 4
      let r := s.k.grpRank g
      let len := df x 4 0 13
      let kids := childrenOf (s.k.grpN g) r
      let pq := routeQp s.k s.d th.part (grpNode s.k s.d g (parentOf r))
      descOk x [(0, 0, 7), (2, 0, 13), (4, 0, 13), (8, 0, 48)] = true → len ≤ 4096 → s.k.grpOn g = true → s.k.grpPart g = th.part → th.part ∉ s.d.fab.teardown →
      (s.d.grp g).broken = false → df x 2 0 13 < s.k.grpN g →
      (∀ kind c, (kind, c) ∈ ([(0, Instr.gopBarrier t p ts ds), (1, .gopBroadcast t p ts ds), (2, .gopSnapshot t p ts ds)] : List (Nat × Instr)) → df x 0 4 3 = kind → (s.d.grp g).op = none → (s.d.grp g).msgs = [] → kids = [] → Prompt s.k s.d th (o 4) →
        (kind = 1 → s.k.dpaCheck th.part loc len false = none) → (kind = 2 → s.k.dpaCheck th.part loc 8 false = none ∧ drained s.d th.part = true) →
        (r = 0 → (kind = 1 → df x 2 0 13 = 0) → Goes c s (fun d' => Completed d' t th (o 4) .ok 0 0 ∧ (d'.grp g).op = none ∧ (d'.grp g).seq = (s.d.grp g).seq + 1 ∧
          (kind ≠ 2 → d'.mem = s.d.mem) ∧ (kind = 2 → SameOutside s.d d' loc 8 ∧ d'.rd loc 8 = s.k.ns % 2 ^ 64 ∧ d'.heldPart th.part = true))) ∧
        (∀ q, r ≠ 0 → pq = some q → (s.d.qp q).state = .ready → (s.d.qp q).peerNode = grpNode s.k s.d g (parentOf r) → (s.d.qp q).part = th.part →
          Goes c s (fun d' => Started d' t th (o 4) ∧ d'.mem = s.d.mem ∧ (∃ y, (d'.grp g).op = some y ∧ y.thread = t ∧ y.opId = th.freshOp ∧ y.kind = kind ∧ y.entered = true) ∧
            ∃ z, (d'.qp q).txq = (s.d.qp q).txq ++ [z] ∧ z.opc = 0x39 ∧ z.gop = .gop g (s.d.grp g).seq kind (df x 2 0 13) len 0))) ∧
      (df x 0 4 3 = 3 → th.reserved < 32 → (∀ y ∈ th.ops, y.eng = 7 → y.started = true ∨ y.done.isSome = true) → s.d.fab.holds.any (fun h => h.2.1 == g) = true → Goes (.gopResume t p ts ds) s (fun d' => (∃ th', d'.thr t = some th' ∧
        ∃ y ∈ th'.ops, y.id = th.freshOp ∧ y.done = some ((o 4).cpl th.part .ok 0 0)) ∧ d'.mem = s.d.mem ∧ d'.fab.holds = s.d.fab.holds.filter (fun h => h.2.1 != g)))) ∧
     (th.part = 0 → (∀ kind c, (kind, c) ∈ ([(0, Instr.fabHbTether t p ts ds), (1, .fabHbMgmt t p ts ds)] : List (Nat × Instr)) → df x 0 0 1 = kind → descOk x [(0, 0, 1)] = true →
         Prompt s.k s.d th (o 6) →
         (s.k.watch = [] → Goes c s (fun d' => Completed d' t th (o 6) .ok 0 0 ∧ d'.mem = s.d.mem ∧ (∀ y ∈ d'.fab.seen, y % 2 ≠ kind) ∧ kind ∈ d'.fab.hbDone)) ∧
         (∀ a, s.k.watch = [a] → watchDead s.d a = false → s.d.fab.hbDone.contains kind = true → s.d.fab.seen.contains (2 * watchNode s.d a + kind) = true →
           watchT s.d a < s.k.fld 0x1C00040 4 4 → watchM s.d a < s.k.fld 0x1C00040 8 4 → 0 < s.k.fld 0x1C00040 4 4 → 0 < s.k.fld 0x1C00040 8 4 →
           Goes c s (fun d' => Completed d' t th (o 6) .ok 0 0 ∧ SameOutside s.d d' (a + 4) 2 ∧ (kind = 0 → watchT d' a = 0) ∧ (kind = 1 → watchM d' a = 0)))) ∧
       (let g := df x 0 0 4
        descOk x [(0, 0, 4)] = true → s.k.grpOn g = true → (∀ y ∈ s.d.fab.resetOps, y.group ≠ g) → s.k.grpRank g ≠ 0 → Prompt s.k s.d th (o 5) →
        Goes (.fabReset t p ts ds) s (fun d' => Started d' t th (o 5) ∧ d'.mem = s.d.mem ∧ d'.out = s.d.out ++ [.mgmt s.d.mgmtPorts 0x3E (grpNode s.k s.d g 0) (bytesLE 2 g)] ∧
          ∃ y ∈ d'.fab.resetOps, y.thread = t ∧ y.opId = th.freshOp ∧ y.group = g)))) ∧
  (∀ (s : State) (port link : Nat) (auth : Bool) (pkt : Packet) (g : Nat),
     let q := pkt.dstQp
     let x := s.d.qp q
     let y := s.d.grp g
     (ArrivesNext s.k s.d port link auth pkt → pkt.first = true → pkt.last = true → s.d.flaws = [] →
       (∀ off len i, pkt.opcode = 0x30 → pkt.ext = .fload off len → fabRegion s.d x.part 2 off len = (i, none) → s.d.bad off len = false →
         Goes (.floadReq port link true auth false pkt) s (fun d' => d'.mem = s.d.mem ∧ (d'.qp q).epsn = (pkt.psn + 1) % 2 ^ 24 ∧ ∃ z, (d'.qp q).txq = x.txq ++ [z] ∧ z.opc = 0x31 ∧
           z.src = some off ∧ z.len = len ∧ z.o1 = pkt.psn ∧ z.o2 = i)) ∧
       (∀ o st kind root len code, y.op = some o → s.k.grpOn g = true → s.k.grpPart g = x.part → pkt.ext = .gop g y.seq kind root len code → Status.ofCode? code = some st →
         Pending s.d o.thread o.opId →
         (pkt.opcode = 0x3A → s.k.grpRank g ≠ 0 → childrenOf (s.k.grpN g) (s.k.grpRank g) = [] → grpNode s.k s.d g (parentOf (s.k.grpRank g)) = x.peerNode →
           Goes (.gopDown port link true auth false pkt) s (fun d' => OpDone d' o.thread o.opId st 0 0 ∧ (d'.grp g).op = none ∧ (d'.grp g).seq = y.seq + 1 ∧
             (o.kind = 1 → st = .ok → s.k.grpRank g ≠ o.root → pkt.data.length = o.len → SameOutside s.d d' o.buf o.len ∧ memBytes d'.mem o.buf o.len = pkt.data))) ∧
         (pkt.opcode = 0x39 → s.k.grpRank g = 0 → s.k.grpN g = 2 → grpNode s.k s.d g 1 = x.peerNode → o.entered = false → o.kind = 0 → kind = 0 → root = o.root → len = o.len →
           code = 0 → y.msgs = [] → Goes (.gopUp port link true auth false pkt) s (fun d' => OpDone d' o.thread o.opId .ok 0 0 ∧ (d'.grp g).op = none ∧ d'.mem = s.d.mem)))) ∧
     (∀ o u psn t i a, Arrives s.k s.d port link 0x31 pkt → pkt.ext = .floadResp psn 0 → fromPeer s.d pkt = true → x.txq = [o] → o.opc = 0x30 → o.firstPsn = some psn →
       o.owner = .fab t i a → o.fail = none → o.sent = o.len → pkt.data.length = o.len → 0 < o.len → o.len ≤ x.payBytes → o.got = 0 → x.unacked = [u] → u.pkt.psn = psn →
       Pending s.d t i → s.d.fab.groups = [] → Goes (.floadResp port link true pkt) s (fun d' => SameOutside s.d d' a o.len ∧ memBytes d'.mem a o.len = pkt.data ∧
         (d'.qp q).txq = [] ∧ (d'.qp q).unacked = [] ∧ OpDone d' t i .ok o.len 0)) ∧
     (∀ o, y.op = some o → o.deadline ≤ s.k.ticks → Pending s.d o.thread o.opId → Tab.get? s.d.fab.resets g = none → (∀ z ∈ s.d.fab.resetOps, z.group ≠ g) →
       Goes (.gopTmo g) s (fun d' => OpDone d' o.thread o.opId .timeout 0 0 ∧ (d'.grp g).op = none ∧ (d'.grp g).broken = true ∧ d'.mem = s.d.mem)) ∧
     (∀ part due, s.d.fab.holds = [(part, g, due)] → due ≤ s.k.ticks → Goes (.snapHold part) s (fun d' => d'.fab.holds = [])) ∧
     (∀ parent, s.k.done = true → s.k.pwr.state = .run → s.k.grpOn g = true → s.d.fab.resetOps.any (fun o => o.group == g) = false → GoesBoth (.freset g parent) s (fun k' d' =>
       k'.shell = s.k.shell ∧ k'.progs = s.k.progs ∧ d'.fyl.threads = [] ∧ (∀ b, d'.basket b = Data.reset.basket b) ∧ d'.links = s.d.links ∧ d'.fab.groups = [])) ∧
     (∀ node n o, s.d.fab.resetOps = [o] → o.group = g → Tab.get? s.d.fab.resets g = none → grpNode s.k s.d g 0 = node → Pending s.d o.thread o.opId →
       Goes (.fresetAck g node n) s (fun d' => d'.fab.resetOps = [] ∧ OpDone d' o.thread o.opId (if n = s.k.grpN g then .ok else .part) n 0 ∧ d'.mem = s.d.mem)) ∧
     (∀ part node t th o, s.d.fab.deadPend = [(part, node)] → s.d.fab.groups = [] → s.d.thr t = some th → th.part = part → o ∈ th.ops → o.eng = 7 → o.op < 5 → o.done = none →
       s.d.fyl.threads = [(t, th)] → landedPages s.d t o.id = 0 → Goes (.teardown part) s (fun d' => part ∈ d'.fab.teardown ∧ d'.fab.deadPend = [] ∧ OpDone d' t o.id .aborted 0 0)) ∧
     (∀ node, (∀ a, watchOf s.k s.d node = some a → watchDead s.d a = false →
         Goes (.mgmtHb node) s (fun d' => 2 * node + 1 ∈ d'.fab.seen ∧ 2 * node + 1 ∉ d'.fab.warned ∧ d'.mem = s.d.mem) ∧
         (Arrives s.k s.d port link 0x38 pkt → fromPeer s.d pkt = true → pkt.srcNode = node → Goes (.heartbeat port link true pkt) s (fun d' => 2 * node ∈ d'.fab.seen ∧
           2 * node ∉ d'.fab.warned ∧ d'.mem = s.d.mem))) ∧
       (∀ dead, (groupWatch s.k s.d).any (fun a => watchNode s.d a == node) = true → Goes (.elect node dead) s (fun d' => d'.fab.heard = s.d.fab.heard ++ [(dead, node, s.k.ticks)] ∧
         d'.mem = s.d.mem)) ∧
       Goes (.electDone node) s (fun d' => node ∈ d'.fab.dones ∧ d'.mem = s.d.mem ∧ d'.fab.elects = s.d.fab.elects) ∧
       (∀ e, s.d.fab.elects = [e] → e.node = node → e.deadline ≤ s.k.ticks → node ∈ s.d.fab.dones → Goes (.electWait node) s (fun d' => d'.fab.elects = [] ∧ d'.out = s.d.out ∧
         node ∉ d'.fab.dones ∧ d'.fab.repoints = s.d.fab.repoints ∧ d'.mem = s.d.mem))) ∧
     (∀ r, s.d.fab.repoints = [r] → Goes (.ocsReply r.tag) s (fun d' => d'.fab.repoints = [] ∧ d'.out = s.d.out ∧ d'.mem = s.d.mem) ∧
       (r.due ≤ s.k.ticks → r.tries < 3 → Goes (.ocsRetry r.tag) s (fun d' => d'.fab.repoints = [{ r with tries := r.tries + 1, due := s.k.ticks + 500000 }] ∧
         d'.out.length = s.d.out.length + 1 ∧ d'.mem = s.d.mem)) ∧
       (r.due ≤ s.k.ticks → 3 ≤ r.tries → Goes (.ocsRetry r.tag) s (fun d' => d'.fab.repoints = []))))

/-! ### Ballast -/

/-- R373, R374, R377 to R384, R388, R391: what each Ballast operation does on one unit, and a flush, a format and maintenance on the tier. R383, R386, R387, R389: a
journal that is due is flushed; a row open too long is closed; a rebuild ends; a lost die is marked. -/
def Obligations.Ballast : Prop :=
  (∀ (s : State) (t : Nat) (p : BitVec 2) (th : Thread) (ts : BitVec 5) (ds : BitVec 4), Issues s.d t p th →
     let x := th.dReg ds.toNat
     let o := fun (opc : Nat) => newOp s.k th 8 opc none ts ds
     let a := df x 0 0 48
     let lu := (s.k.blsRange th.part).1 + df x 8 0 36
     let c := lu % 8
     let y := s.d.chan8 c
     let all1 := 0xFFFFFFFF
     (df x 16 0 17 = 1 → Data.mayGrant s.k s.d th.part 3 = true →
       (Prompt s.k s.d th (o 0) → firstOf (blsChecks s.k s.d th x false false) = none →
         (∀ l, (readUnit s.k s.d lu).2 = some l → Goes (.blsRead t p ts ds) s (fun d' => Completed d' t th (o 0) .ok 1 all1 ∧
           SameOutside s.d d' a l.length ∧ memBytes d'.mem a l.length = l)) ∧
         ((readUnit s.k s.d lu).2 = none → Goes (.blsRead t p ts ds) s (fun d' => Completed d' t th (o 0) .uncorrectable 0 0 ∧ d'.mem = s.d.mem))) ∧
       (∀ h st, let slot := y.slotAt st st.pos
         Prompt s.k s.d th (o 1) → firstOf (blsChecks s.k s.d th x false true) = none → tierState s.k s.d ≠ 4 → s.d.header = some h → h.readOnly = false →
         s.d.bad a 16384 = false → chanOk s.k s.d c = true → df x 20 0 1 = 0 → 4 * h.stripe ≤ y.free → y.single = some st → st.native = false → st.pos + 1 < y.rowSlots st →
         slot < 2 ^ 31 → y.dead = [] → y.header = some h → y.failing st = none → (y.wearOf slot).dead = false → Tab.has s.k.sec.blsKeys th.part = true →
         Goes (.blsWrite t p ts ds) s (fun d' => Completed d' t th (o 1) .ok 1 all1 ∧ SameOutside s.d d' (mapAt lu) 4 ∧ mapSlot d' lu = some slot ∧
           (readUnit s.k d' lu).2 = some (memBytes s.d.mem a 16384) ∧ (d'.chan8 c).seq = y.seq + 1 ∧ ∀ i, i ≠ c → d'.chan8 i = s.d.chan8 i)) ∧
       (∀ slot, Prompt s.k s.d th (o 2) → firstOf (blsChecks s.k s.d th x true false) = none → tierState s.k s.d ≠ 4 → mapSlot s.d lu = some slot →
         Goes (.blsTrim t p ts ds) s (fun d' => Completed d' t th (o 2) .ok 1 all1 ∧ SameOutside s.d d' (mapAt lu) 4 ∧ mapSlot d' lu = none ∧
           (d'.chan8 c).journal = y.journal ++ [(lu / 8, none)]))) ∧
     (Prompt s.k s.d th (o 3) → x = 0#512 → tierCheck s.k s.d = none → (∀ i, i < 4 → s.k.up i 20 = true) → Goes (.blsFlush t p ts ds) s (fun d' =>
       Completed d' t th (o 3) .ok 0 all1 ∧ d'.mem = s.d.mem ∧ ∀ i, i < 8 → (d'.chan8 i).journal = [] ∧ (d'.chan8 i).jSince = none)) ∧
     (let lg := df x 0 0 34
      let st := df x 8 0 6
      let op := df x 9 0 6
      Prompt s.k s.d th (o 4) → descOk x [(0, 0, 34), (8, 0, 6), (9, 0, 6)] = true → 0 < lg → lg % 8 = 0 → 8 ≤ st → st ≤ 32 → 4 ≤ op → op ≤ 32 → th.part = 0 →
      tierState s.k s.d ≠ 0 → tierState s.k s.d ≠ 2 → (∀ i, i < 4 → s.k.up i 20 = true) → lg ≤ s.k.mapGib * 2 ^ 28 →
      (∀ e ∈ s.d.bls.chans, e.2.present = true → e.2.lost = false → st ≤ e.2.found.dies - e.2.dead.length ∧ e.2.req lg st op + st ≤ e.2.good) →
      (∃ e ∈ s.d.bls.chans, e.2.present = true ∧ e.2.lost = false) →
      Goes (.blsFormat t p ts ds) s (fun d' => Completed d' t th (o 4) .ok 0 all1 ∧ (∃ ro, d'.header = some ⟨s.d.bls.nextFid, lg, st, op, ro⟩ ∧
          ((∀ e ∈ s.d.bls.chans, e.2.fails = []) → ro = false)) ∧
        SameOutside s.d d' 0x40000000 (4 * lg) ∧ ∀ n, n < lg → mapSlot d' n = none)) ∧
     (∀ kind i h, (kind, i) ∈ ([(0, Instr.blsMaintGc t p ts ds), (1, .blsMaintWl t p ts ds), (2, .blsMaintPatrol t p ts ds), (3, .blsMaintRebuild t p ts ds)] :
         List (Nat × Instr)) → df x 0 0 2 = kind → Prompt s.k s.d th (o 5) → descOk x [(0, 0, 2), (1, 0, 8), (4, 0, 32)] = true → th.part = 0 → tierCheck s.k s.d = none →
       tierState s.k s.d ≠ 4 → s.d.header = some h →
       (df x 1 0 8 = 0 → Goes i s (fun d' => Completed d' t th (o 5) .ok 0 all1 ∧ d'.mem = s.d.mem ∧ d'.bls = s.d.bls)) ∧
       (∀ n z, kind = 2 → n < 8 → df x 1 0 8 = 2 ^ n → df x 4 0 32 = 1 → chanOk s.k s.d n = true → s.k.up (n / 2) 20 = true →
         (s.d.chan8 n).slots.find? (fun e => decide ((s.d.chan8 n).cursor ≤ e.1)) = some z →
         Goes i s (fun d' => Completed d' t th (o 5) .ok 1 all1 ∧ d'.mem = s.d.mem ∧ (d'.chan8 n).cursor = z.1 + 1 ∧ (d'.chan8 n).slots = (s.d.chan8 n).slots ∧
           (d'.chan8 n).units = (s.d.chan8 n).units ∧ (∀ u ∈ (s.d.chan8 n).marked, u ∈ (d'.chan8 n).marked) ∧ ∀ j, j ≠ n → d'.chan8 j = s.d.chan8 j)))) ∧
  (∀ (s : State) (c : Nat),
     let y := s.d.chan8 c
     (∀ at_, y.jSince = some at_ → (524288 ≤ y.journal.length ∨ at_ + 25000000 ≤ s.k.ticks) → Goes (.journalFlush c) s (fun d' => d'.mem = s.d.mem ∧
       (d'.chan8 c).journal = [] ∧ (d'.chan8 c).jSince = none ∧ (d'.chan8 c).diskSeq = (d'.chan8 c).seq ∧
       (d'.chan8 c).seq = y.seq + ceilDiv (8 * y.journal.length) 16384 + 4 * ceilDiv (32 * y.journal.length) 65536 ∧
       (y.fails = [] → ∀ j, j ≠ c → d'.chan8 j = s.d.chan8 j))) ∧
     (∀ native st at_, y.open_ native = some st → st.native = native → st.since = some at_ → at_ + 25000000 ≤ s.k.ticks → st.pos ≠ 0 → st.units.length ≤ 65 →
       0 < y.found.p → 0 < y.found.q → Goes (.openRowPad c native) s (fun d' => d'.mem = s.d.mem ∧ (∀ j, j ≠ c → d'.chan8 j = s.d.chan8 j) ∧
         ∀ st', (d'.chan8 c).open_ native = some st' → st'.pos = 0 ∧ st'.row = st.row + 1)) ∧
     (s.d.bls.rebuilding = true → Goes .ballastRebuild s (fun d' => d'.bls.rebuilding = false ∧
       ∀ i, i < 0x40000000 → memByte d'.mem i = memByte s.d.mem i)) ∧
     (∀ die, y.found.ids.contains die = true → y.dead.contains die = false → Goes (.dieLost c die) s (fun d' => d'.mem = s.d.mem ∧ (d'.chan8 c).dead = y.dead ++ [die] ∧
       d'.stsBit blsSts 5 = true ∧ (∀ h, y.header = some h → { y with dead := y.dead ++ [die] }.good ≤ y.req h.logical h.stripe h.op → ∀ h', (d'.chan8 c).header = some h' → h'.readOnly = true))))

/-! ### Bridle and the host's end -/

/-- R516, R517, R519, R520: an accelerator's writes: data into a slot it owns, PROD within its credit, grants and their recall; `bdl.release` and the credit word give slots
back; an output that waits GRANT_TMO completes with TIMEOUT. -/
def Obligations.WindowsWritten : Prop :=
  ∀ (s : State) (h w : Nat), halfUp s.k s.d h = true → s.k.pwr.state = .run →
    let z := s.d.win w
    let quiet := fun (d' : Data) => d'.mem = s.d.mem ∧ ∀ j, j ≠ w → d'.win j = s.d.win j
    (∀ off l ep, s.k.apWindow h off l.length = some w → off < 2 ^ 36 → l ≠ [] → z.prod = z.rel →
      let a := s.k.winAddr w + (off - s.k.winApoff w)
      Goes (.slotDataWrite h off l ep) s (fun d' => SameOutside s.d d' a l.length ∧ memBytes d'.mem a l.length = l ∧ (ep = true → d'.bad a l.length = true) ∧ d'.bdl = s.d.bdl)) ∧
    (w < 1024 → s.k.winOn w = true → s.k.winHalf w = h →
      (∀ v : BitVec 32, let adv := (v.toNat + 2 ^ 32 - z.prod % 2 ^ 32) % 2 ^ 32
        s.k.winOut w = false → s.k.apWindow h (64 * w) 4 = none →
        (adv ≤ (z.rel + s.k.winSlots w + 2 ^ 32 - z.prod % 2 ^ 32) % 2 ^ 32 → Goes (.prod h w v) s (fun d' => quiet d' ∧ (d'.win w).prod = z.prod + adv ∧
          (d'.win w).rel = z.rel ∧ Tab.getD d'.mbx.flags ((s.k.frange (s.k.winPart w)).1 + s.k.fld (wdef w 0) 44 16) 0#64 = v.setWidth 64)) ∧
        ((z.rel + s.k.winSlots w + 2 ^ 32 - z.prod % 2 ^ 32) % 2 ^ 32 < adv → Goes (.prod h w v) s (fun d' => quiet d' ∧ d'.win w = z ∧ d'.mbx = s.d.mbx ∧
          d'.stsBit (bdlSts (h / 2)) 4 = true))) ∧
      (∀ v : BitVec 32, v.toNat < s.k.winSlots w → s.k.winOut w = true →
        (s.k.apWindow h (64 * w + 8) 4 = none → s.d.bdl.jobs = [] → z.grants.contains v.toNat = false → Goes (.grant h w v) s (fun d' => quiet d' ∧
          d'.win w = { z with grants := z.grants ++ [v.toNat] })) ∧
        (s.k.apWindow h (64 * w + 12) 4 = none → Goes (.reclaim h w v) s (fun d' => quiet d' ∧ d'.win w = { z with grants := z.grants.filter (fun g => g != v.toNat) })))) ∧
    (s.k.winHalf w = h → s.k.winOn w = true → z.creditDue = true → Data.mayGrant s.k s.d (s.k.winPart w) 2 = true → Goes (.creditWordWrite w) s (fun d' => quiet d' ∧
      d'.win w = { z with creditDue := false } ∧ d'.out = s.d.out ++ [.busWrite h (s.k.winCredit w) (bytesLE 8 (z.rel % 2 ^ 32))])) ∧
    (∀ t id j b pcs door rest, s.d.bdl.jobs.find? (fun j => j.thread == t && j.opId == id) = some j → j.since = some b → j.dests = (w, pcs, door) :: rest →
      s.k.grantTmo (s.k.winHalf w / 2) ≤ j.waited + (s.k.ticks - b) → Pending s.d t id → landedPages s.d t id = 0 → Goes (.grantTmo t id) s (fun d' => OpDone d' t id .timeout 0 0 ∧
        ∀ i ∈ d'.bdl.jobs, ¬ (i.thread = t ∧ i.opId = id))) ∧
    (∀ t p th ts ds c, let x := th.dReg (ds : BitVec 4).toNat
      let o := newOp s.k th 1 5 none ts ds
      Issues s.d t p th → Prompt s.k s.d th o → descOk x [(0, 0, 10), (2, 0, 12)] = true → df x 0 0 16 = w → s.k.winOn w = true → s.k.winPart w = th.part →
      s.k.winOut w = false → winOff s.k s.d w = none → z.heldCount (s.k.winSlots w) (df x 2 0 12) = some c →
      Goes (.bdlRelease t p ts ds) s (fun d' => Completed d' t th o .ok 0 0 ∧ quiet d' ∧ (d'.win w).prod = z.prod ∧ z.rel ≤ (d'.win w).rel ∧
        (c ∈ (d'.win w).released ∨ c < (d'.win w).rel) ∧ (z.rel < (d'.win w).rel → (d'.win w).creditDue = true)))

/-- R511, R524 to R526, R532, R543: configuration requests and their completions, PTM, CXL lines, a half's link lost and trained, and pending MSI-X vectors. -/
def Obligations.BridlePorts : Prop :=
  ∀ (s : State) (h r : Nat), h < 8 → r < 4 →
    (∀ v : BitVec 64, Tab.has s.d.bdl.cfgReq r = false → GoesBoth (.cfgRequest r v) s (fun _ d' => d'.mem = s.d.mem ∧ ∃ q, Tab.get? d'.bdl.cfgReq r = some q ∧
      q.half = 2 * r + fld v 28 1 ∧ q.reg = fld v 0 12 ∧ q.bdf = fld v 12 16 ∧ (q.write = true ↔ fld v 29 1 = 1) ∧ q.since = s.k.ticks ∧
      (s.k.halfMode q.half = 1 → halfUp s.k s.d q.half = true →
        d'.out = s.d.out ++ [.config q.half q.bdf q.reg (if q.write then some (Tab.getD s.d.bdl.cfgData r 0) else none)]))) ∧
    (∀ q (cpl : BitVec 3) (data : BitVec 32), Tab.get? s.d.bdl.cfgReq r = some q → cpl.toNat ∈ [0, 1, 2, 4] → Goes (.cfgCompletion r cpl data) s (fun d' =>
      Tab.get? d'.bdl.cfgReq r = none ∧ Tab.getD d'.bdl.cfgCpl r 0 = cpl.toNat ∧ (q.write = false → cpl = 0#3 → Tab.getD d'.bdl.cfgData r 0 = data.toNat) ∧
      (q.write = true ∨ cpl ≠ 0#3 → d'.bdl.cfgData = s.d.bdl.cfgData) ∧ d'.mem = s.d.mem)) ∧
    (halfUp s.k s.d h = true →
      (s.k.halfMode h = 1 → Goes (.ptmRequest h) s (fun d' => d' = { s.d with out := s.d.out ++ [.ptm h s.k.ns] })) ∧
      (∀ addr n a, s.k.halfMode h = 2 → s.k.halfCxl h = true → s.k.pwr.state = .run → cxlFind s.k h (upTo 8) (addr / 64 * 64) = some (n, a) →
        s.d.bdl.cxlDead.contains n = false → (∀ r ∈ [0, 2], Data.mayGrant s.k s.d (s.k.lend n).2.2.1 r = true) →
        Goes (.cxlMemAccess h addr none) s (fun d' => d'.mem = s.d.mem ∧ d'.out = s.d.out ++ [.cxl h (memBytes s.d.mem a 64) (s.d.bad a 64)] ∧ (d'.half h).hdm = true) ∧
        (∀ v, Goes (.cxlMemAccess h addr (some v)) s (fun d' => d'.out = s.d.out ∧ SameOutside s.d d' a 64 ∧
          ∀ i, i < 64 → memByte d'.mem (a + i) = v.extractLsb' (8 * i) 8)))) ∧
    ((s.d.half h).up = true → GoesBoth (.bridleLinkDown h) s (fun k' d' => (d'.half h).up = false ∧ (∀ j, j ≠ h → d'.half j = s.d.half j) ∧
      d'.stsBit (bdlSts (h / 2)) (2 + h % 2) = true ∧ ∀ w, w < 1024 → s.k.winHalf w = h → k'.winOn w = false)) ∧
    (∀ gen width, s.k.up (h / 2) 16 = true → s.k.cells.contains (1024 * (64 * (h / 2) + 16) + h % 2) = false → bitsOf s.k.tim.inputs (3 + h / 2) 1 = 1 → s.k.halfMode h ≠ 0 → (h % 2 = 1 → s.k.bifurcated (h / 2) = true) → 3 ≤ gen →
      gen ≤ s.k.maxGen (h / 2) → width ∈ [1, 2, 4, 8, 16] → width ≤ (if s.k.bifurcated (h / 2) then 8 else 16) → (s.d.half h).up = false →
      Goes (.linkUp h gen width) s (fun d' => d'.mem = s.d.mem ∧ d'.half h = { s.d.half h with up := true, gen := gen, width := width } ∧
        ∀ j, j ≠ h → d'.half j = s.d.half j)) ∧
    (∀ v, v < 64 → s.d.mbx.msixPend.contains (64 * h + v) = true → (s.d.half h).up = true → Goes (.msixSend h v true) s (fun d' => d'.mem = s.d.mem ∧
      64 * h + v ∉ d'.mbx.msixPend ∧ 64 * h + v ∈ d'.mbx.msixOn ∧ d'.out = s.d.out ++ [.msix h v]))

/-- R539 to R544, R551, R555: the host's end of an enabled channel of a partition whose K end is up, and of a launch ring; nothing else changes but a vector raised. -/
def Obligations.HostMailbox : Prop :=
  ∀ (s : State) (path : Path) (part c : Nat), s.k.pathMay path part = true → part < 16 → s.k.kDown = false →
    let ch := s.d.chan c
    let quiet := fun (k' : Ctl) (d' : Data) => k' = s.k ∧ d'.mem = s.d.mem ∧ ∀ j, j ≠ c → d'.chan j = s.d.chan j
    (0 < c → c < 32 → s.k.chPart c = part → s.k.chOn c = true →
      (∀ v, ch.inFull = false → GoesBoth (.inLo path part c v) s (fun k' d' => quiet k' d' ∧ d'.chan c = { ch with inPtr := v }) ∧
        (s.d.fyl.mbxWait = [] → GoesBoth (.inHi path part c v) s (fun k' d' => quiet k' d' ∧ d'.chan c = { ch with inHi := v, inFull := true }))) ∧
      (∀ v, ch.inFull = true → ∀ i ∈ ([.inLo path part c v, .inHi path part c v] : List Instr), GoesBoth i s (fun k' d' => quiet k' d' ∧
        d'.chan c = { ch with ovr := true } ∧ d'.stsBit mbxSts 1 = true)) ∧
      GoesBoth (.outHi path part c) s (fun k' d' => quiet k' d' ∧ d'.chan c = { ch with outFull := false } ∧
        d'.out = s.d.out ++ [.readData path (pageAddr part (chanOff c 0x18)) ch.outHi]) ∧
      (∀ b : BitVec 32, (∀ e ∈ s.d.fyl.threads, ∀ m rd rb, e.2.wait ≠ some (.db c m rd rb)) → GoesBoth (.dbKSet path part c b) s (fun k' d' => quiet k' d' ∧
        d'.chan c = { ch with dbK := ch.dbK ||| b })) ∧
      (∀ b : BitVec 32, GoesBoth (.dbH path part c b) s (fun k' d' => quiet k' d' ∧ d'.chan c = { ch with dbH := ch.dbH &&& ~~~ b } ∧ d'.out = s.d.out)) ∧
      (∀ b : BitVec 32, GoesBoth (.dbHEn path part c b) s (fun k' d' => quiet k' d' ∧ d'.chan c = { ch with dbHEn := b }))) ∧
    (∀ (tile : Nat) (v : BitVec 32), tile < 16 → let r := ringNo false part tile; let g := s.d.ring r
      s.k.ringOn r = true → s.k.ringThreads r = false →
      ((v.toNat + 2 ^ 32 - g.prod) % 2 ^ 32 ≤ (g.ccons + s.k.ringSize r + 2 ^ 32 - g.prod) % 2 ^ 32 → GoesBoth (.launchProd path part tile false v) s (fun k' d' =>
        k' = s.k ∧ d'.mem = s.d.mem ∧ d'.ring r = { g with prod := v.toNat } ∧ ∀ j, j ≠ r → d'.ring j = s.d.ring j)) ∧
      ((v.toNat + 2 ^ 32 - g.ccons) % 2 ^ 32 ≤ (g.cprod + 2 ^ 32 - g.ccons) % 2 ^ 32 → GoesBoth (.ccons path part tile false v) s (fun k' d' =>
        k' = s.k ∧ d'.mem = s.d.mem ∧ d'.ring r = { g with ccons := v.toNat } ∧ ∀ j, j ≠ r → d'.ring j = s.d.ring j))) ∧
    (∀ h wr, h < 8 → 32 ≤ c → c < 64 → GoesBoth (.secViol h c wr) s (fun k' d' => k' = s.k ∧ d'.mem = s.d.mem ∧ d'.mbx = s.d.mbx ∧ d'.stsBit mbxSts 0 = true))

/-! ### Sessions -/

/-- R592 to R595: AUTH_BEGIN, AUTH_FINISH with its lockout, an AUTH_FINISH that comes too late, a session that idles, and END. -/
def Obligations.SessionsOpen : Prop :=
  ∀ (s : State) (chan seq : Nat), s.k.serves chan = true →
    let q := s.k.sec
    (∀ (role slot : Nat) (known : Bool), 1 ≤ role → role ≤ 3 → q.lockUntil ≤ s.k.ticks → (role = 3 → known = true) → (∀ e ∈ q.sessions, e.2.chan ≠ chan) →
      q.sessions.length + s.k.begunOthers chan < 8 → GoesBoth (.authBegin chan seq role slot known) s (fun k' d' => d'.mem = s.d.mem ∧
        k' = { s.k with sec := { q with begun := Tab.set q.begun chan ⟨role, slot, s.k.ticks⟩ } } ∧
        ∃ body, body.length = 241 ∧ AnswerDue d' chan 0 0x01 .ok seq body)) ∧
    (∀ g, Tab.get? q.begun chan = some g →
      (s.k.ticks ≤ g.since + 5000000000 → q.hasKey g.role g.slot = true → q.sessions.length < 8 → GoesBoth (.authFinish chan seq true) s (fun k' d' =>
        d'.mem = s.d.mem ∧ k'.sec.fails = 0 ∧ k'.sec.lockUntil = 0 ∧ Tab.get? k'.sec.begun chan = none ∧ ∃ n, Tab.get? q.sessions n = none ∧
          k'.sec.sessions = Tab.set q.sessions n ⟨chan, g.role, g.slot, 0, s.k.ticks⟩ ∧ AnswerDue d' chan n 0x02 .ok seq [])) ∧
      (g.since + 5000000000 < s.k.ticks → GoesBoth (.authTimeout chan seq) s (fun k' d' => d'.mem = s.d.mem ∧ k'.sec.fails = q.fails + 1 ∧
        k'.sec.sessions = q.sessions ∧ Tab.get? k'.sec.begun chan = none ∧ AnswerDue d' chan 0 0x02 .perm seq []))) ∧
    GoesBoth (.authFinish chan seq false) s (fun k' d' => d'.mem = s.d.mem ∧ k'.sec.fails = q.fails + 1 ∧ k'.sec.sessions = q.sessions ∧
      Tab.get? k'.sec.begun chan = none ∧ AnswerDue d' chan 0 0x02 .perm seq [] ∧
      k'.sec.lockUntil = if 8 ≤ q.fails + 1 then s.k.ticks + min (2 ^ (q.fails + 1 - 8)) 64 * 500000000 else q.lockUntil) ∧
    (∀ n y, Tab.get? q.sessions n = some y →
      (y.last + s.k.fld 0x0800040 0 16 * 500000000 ≤ s.k.ticks → GoesBoth (.sessionIdle n) s (fun k' d' => d' = s.d.setSts 0x0000080 2 ∧ k'.sec.sessions = Tab.erase q.sessions n)) ∧
      (∀ c, c.chan = chan → c.session = n → s.k.mayCommand c 0x03 y → GoesBoth (.endSession c) s (fun k' d' => d'.mem = s.d.mem ∧
        Tab.get? k'.sec.sessions n = none ∧ (∀ m, m ≠ n → Tab.get? k'.sec.sessions m = Tab.get? q.sessions m) ∧
        (∀ x ∈ k'.shell.sels, x.1 / 16 ≠ 16 + n) ∧ AnswerDue d' chan n 0x03 .ok c.seq [])))

/-- R593, R596, R597: a command whose session is not open on its channel, whose TAG fails, whose SEQ has been spent, or which its role may not issue is answered
so and not performed: nothing of the control plane changes but the session's SEQ, or the session ends. -/
def Obligations.SessionCommandsRefused : Prop :=
  ∀ (s : State) (c : SecCmd) (p n kind slot key dpa first count svn version digest : Nat) (wipe b r : Bool) (e : Enrol) (body : List Byte) (boot : List (BitVec 32))
    (nonce : BitVec 384) (mask : BitVec 20) (addrs : List Nat) (writes : List (Nat × BitVec 64 × BitVec 64)) (commits late : List Nat),
    s.k.serves c.chan = true → c.session ≠ 0 →
    ∀ x ∈ ([(0x03, .endSession c), (0x10, .regRead c addrs), (0x11, .regWrite c writes commits late), (0x20, .keyInstall c p kind slot key), (0x21, .keyEnrol c e),
        (0x30, .progLoad c p dpa b), (0x31, .progUnload c p n), (0x32, .partTeardown c p wipe), (0x40, .optWrite c body b),
        (0x41, .fwUpdate c b svn version digest boot r), (0x50, .quote c nonce mask), (0x51, .bbxRead c first count), (0x60, .faUnlock c), (0x61, .ownerReset c)] :
        List (Nat × Instr)),
      let answers := fun (d' : Data) (st : Status) => d'.mem = s.d.mem ∧ d'.fyl = s.d.fyl ∧ AnswerDue d' c.chan c.session x.1 st c.seq []
      ((∀ y, Tab.get? s.k.sec.sessions c.session = some y → y.chan ≠ c.chan) → GoesBoth x.2 s (fun k' d' => k' = s.k ∧ answers d' .perm)) ∧
      (∀ y, Tab.get? s.k.sec.sessions c.session = some y → y.chan = c.chan →
        (c.tagOk = false → GoesBoth x.2 s (fun k' d' => Tab.get? k'.sec.sessions c.session = none ∧ k'.shell.cfg = s.k.shell.cfg ∧ answers d' .checkFail)) ∧
        (c.tagOk = true → c.seq < y.seq → GoesBoth x.2 s (fun k' d' => k' = s.k ∧ answers d' .duplicate)) ∧
        (c.tagOk = true → y.seq ≤ c.seq → s.k.admits c.chan x.1 = false ∨ mayIssue s.k.sec.recovery y.role x.1 = false →
          GoesBoth x.2 s (fun k' d' => k' = s.k.heard c y ∧ answers d' .perm)))

/-- R596, R597, R601 to R605, R607 to R610, R631, R662: what each command of a session does that may be performed, and the enrolment of an UNOWNED device (R591). -/
def Obligations.SessionCommands : Prop :=
  ∀ (s : State) (c : SecCmd) (y : Session),
    let k := s.k.heard c y
    let may := fun (opc : Nat) => s.k.mayCommand c opc y
    (∀ a, may 0x10 → WordAccess s (.session c.session) a → s.k.mayRead c.session a = true → counterAt a = none → a ≠ 0x0400100 →
      Performed (.regRead c [a]) c 0x10 (bytesLE 8 (regWord k (takeIn s.d c.chan) (.session c.session) a).toNat) s k) ∧
    (∀ a (v m : BitVec 64), may 0x11 → WordAccess s (.session c.session) a → s.k.mayStore c.session a v m = true → s.k.pathWrites (.session c.session) a →
      maskAt (fun t => t != .rwc) a = 0#64 → m &&& maskAt (fun t => t == .rwc) a ≠ 0#64 →
      Performed (.regWrite c [(a, v, m)] [] []) c 0x11 [] s (stageBits k a v (m &&& maskAt (fun t => t == .rwc) a))) ∧
    (may 0x20 → ∀ p slot key, p < 16 →
      Performed (.keyInstall c p 0 slot key) c 0x20 [] s { k with sec := { k.sec with prefixKeys := Tab.set k.sec.prefixKeys p (key % 2 ^ 128) } } ∧
      (slot < 256 → Performed (.keyInstall c p 1 slot key) c 0x20 [] s { k with sec := { k.sec with qpKeys := Tab.set k.sec.qpKeys (256 * p + slot) (key % 2 ^ 256) } }) ∧
      Performed (.keyInstall c p 2 slot key) c 0x20 [] s { k with sec := { k.sec with progKeys := Tab.set k.sec.progKeys p key } }) ∧
    (may 0x21 → c.session ≠ 0 → ∀ slot key,
      let done := fun (k' : Ctl) (d' : Data) (role : Nat) => d'.mem = s.d.mem ∧ AnswerDue d' c.chan c.session 0x21 .ok c.seq [] ∧
        ∀ e ∈ k'.sec.sessions, ¬ (e.2.role = role ∧ e.2.slot = slot)
      (slot < 8 → GoesBoth (.keyEnrol c (.operator slot key)) s (fun k' d' => done k' d' 1 ∧ Tab.get? k'.sec.operators slot = key)) ∧
      (slot < 2 → GoesBoth (.keyEnrol c (.installer slot key)) s (fun k' d' => done k' d' 2 ∧ Tab.get? k'.sec.installers slot = key)) ∧
      (slot < 16 → GoesBoth (.keyEnrol c (.ballastNew slot)) s (fun k' _ => Tab.has k'.sec.blsKeys slot = true) ∧
        Performed (.keyEnrol c (.ballastDrop slot)) c 0x21 [] s { k with sec := { k.sec with blsKeys := Tab.erase k.sec.blsKeys slot } })) ∧
    (∀ key, s.k.serves c.chan = true → c.session = 0 → c.chan ≠ 32 → s.k.sec.owner = 0 → s.k.sec.recovery = false → Performed (.keyEnrol c (.installer 0 (some key))) c 0x21 [] s
      { s.k with sec := { s.k.sec with installers := Tab.set s.k.sec.installers 0 key, owner := 1 } }) ∧
    (∀ p dpa ok, let n := ofBytesLE (memBytes s.d.mem dpa 2)
      let words := ofBytesLE (memBytes s.d.mem (dpa + 4) 4)
      let len := 16 + 4 * words + 96
      let old := match Tab.get? s.k.progs (65536 * p + n) with | some g => 4 * g.words.length | none => 0
      let code := (List.range words).map (fun i => BitVec.ofNat 32 (ofBytesLE (memBytes s.d.mem (dpa + 16 + 4 * i) 4)))
      may 0x30 → p < 16 → s.k.regionsServe = true → s.k.inPlain p dpa 16 = true → 1 ≤ words → words ≤ 65536 → s.k.inPlain p dpa len = true → s.d.bad dpa len = false →
      (if Tab.has s.k.sec.progKeys p = true then ok = true else s.k.fld 0x0800040 16 1 ≠ 1) → s.k.storeBytes p - old + 4 * words ≤ s.k.progKb p * 1024 →
      progLive s.d p n = false → Performed (.progLoad c p dpa ok) c 0x30 [] s { k with
        progs := Tab.set k.progs (65536 * p + n) ⟨code, unboundedIn code⟩
        sec := k.sec.extend (16 + p) (Config.sha384 (memBytes s.d.mem dpa len)) }) ∧
    (∀ p n, may 0x31 → p < 16 → n < 65536 → s.k.regionsServe = true → Tab.has s.k.progs (65536 * p + n) = true → progLive s.d p n = false →
      Performed (.progUnload c p n) c 0x31 [] s { k with progs := Tab.erase k.progs (65536 * p + n) }) ∧
    (∀ p wipe, may 0x32 → p < 16 → s.k.regionsServe = true → GoesBoth (.partTeardown c p wipe) s (fun k' d' => k' = (dropPartKeys k p).resetBy 0x07 ∧
      AnswerDue d' c.chan c.session 0x32 .ok c.seq [] ∧ (∀ e ∈ d'.fyl.threads, e.2.part ≠ p))) ∧
    (∀ body, let r := s.k.rst
      let head := bytesLE 4 0x4B524F42 ++ bytesLE 4 (if r.safe then 1 else (r.seq + 1) % 2 ^ 32) ++ body
      let copy := head ++ bytesLE 4 (crc32c head)
      may 0x40 → body.length = 500 → obFields head = true → Performed (.optWrite c body true) c 0x40 [] s
        { k with rst := if r.safe = true ∨ r.useB = true then { r with optA := copy } else { r with optB := copy } }) ∧
    (∀ svn version digest boot, may 0x41 → Performed (.fwUpdate c true svn version digest boot false) c 0x41 [] s
      { k with sec := { k.sec with fw := Tab.set k.sec.fw (1 - k.sec.fwSlot) ⟨true, svn, version, digest, boot⟩ } }) ∧
    (∀ (nonce : BitVec 384) (mask : BitVec 20), let q := k.sec
      let svn := match Tab.get? q.fw q.fwSlot with | some f => f.svn | none => 0
      may 0x50 → GoesBoth (.quote c nonce mask) s (fun k' d' => k' = k ∧ d'.mem = s.d.mem ∧ ∃ sig, sig.length = 96 ∧ AnswerDue d' c.chan c.session 0x50 .ok c.seq
        (((List.range 20).filter (fun i => mask.getLsbD i)).flatMap (fun i => bytesLE 48 (Tab.getD q.measures (if i < 4 then i else 12 + i) 0)) ++
          bytesLE 1 svn ++ bytesLE 1 q.owner ++ bytesLE 48 nonce.toNat ++ sig))) ∧
    (∀ first count, may 0x51 → 1 ≤ count → count ≤ 60 → first + count ≤ 65536 → Performed (.bbxRead c first count) c 0x51
      ((List.range count).flatMap (fun i => (Tab.get? s.d.bbx.recs (first + i)).getD (bytesLE 64 0))) s k) ∧
    (let gone := fun (k' : Ctl) (d' : Data) => k'.sec.sessions = [] ∧ k'.sec.blsKeys = [] ∧ k'.sec.prefixKeys = [] ∧ k'.sec.qpKeys = [] ∧
        ∀ p a, p < 16 → s.k.inPlain p a 1 = true → memByte d'.mem a = 0#8
     (may 0x60 → GoesBoth (.faUnlock c) s (fun k' d' => gone k' d' ∧ k'.sec.owner = 2 ∧ AnswerDue d' c.chan c.session 0x60 .ok c.seq [])) ∧
     (may 0x61 → GoesBoth (.ownerReset c) s (fun k' d' => gone k' d' ∧ k'.sec.owner = 0 ∧ k'.sec.installers = [] ∧ k'.sec.operators = [] ∧
        AnswerDue d' c.chan c.session 0x61 .ok c.seq [])))

/-! ### Registers -/

/-- R9, R12, R47 to R49, R589, R597, R705: an access to a register word: staging, W1C bits, RC counters, reads, and what a path without the right gets. -/
def Obligations.RegisterAccess : Prop :=
  ∀ (s : State) (path : Path) (a : Nat) (v : BitVec 64),
    let stay := fun (k' : Ctl) (d' : Data) => k' = s.k ∧ d'.mem = s.d.mem ∧ d'.fyl = s.d.fyl
    (WordAccess s path a →
      (s.k.pathWrites path a → maskAt (fun t => t != .rwc) a = 0#64 → maskAt (fun t => t == .rwc) a ≠ 0#64 →
        GoesBoth (.registerWrite path a 8 v) s (fun k' d' => k' = stageBits s.k a v (maskAt (fun t => t == .rwc) a) ∧ d' = s.d)) ∧
      (s.k.pathWrites path a → maskAt (fun t => t != .w1c && t != .ro) a = 0#64 → winOf a ≠ 0x1A → a ≠ 0x0000080 →
        GoesBoth (.registerWrite path a 8 v) s (fun k' d' => stay k' d' ∧ ∀ x, Tab.getD d'.sts x 0#64 =
          if x = objKey a (s.k.objOf path a) then Tab.getD s.d.sts x 0#64 &&& ~~~ (v &&& maskAt (fun t => t == .w1c) a) else Tab.getD s.d.sts x 0#64)) ∧
      (s.k.pathReads path a → counterAt a = some true → GoesBoth (.counterRead path a 8) s (fun k' d' => stay k' d' ∧
        d'.out = s.d.out ++ [.readData path a (Tab.getD s.d.cnt a 0#64)] ∧ ∀ x, Tab.getD d'.cnt x 0#64 = if x = a then counterAfter s.d a else Tab.getD s.d.cnt x 0#64)) ∧
      (s.k.pathReads path a → counterAt a = none → a ≠ 0x0400100 → GoesBoth (.counterRead path a 8) s (fun k' d' => k' = s.k ∧
        d' = { s.d with out := s.d.out ++ [.readData path a (regWord s.k s.d path a)] })) ∧
      (∀ n, path = .session n → (∀ x m, s.k.mayWrite n a x m = false) → GoesBoth (.registerWrite path a 8 v) s (fun k' d' => k' = s.k ∧ d' = s.d)) ∧
      (∀ h, path = .half h → s.k.halfReach h a = false → ∀ w, GoesBoth (.hostViol h a 8 w) s (fun k' d' => stay k' d' ∧
        d'.stsBit (objKey 0x07000C0 (ownerOf a)) 6 = true ∧ d'.out = if w = true then s.d.out else s.d.out ++ [.readData path a 0#64]))) ∧
    (∀ size w, targetOf a size = .unmapped → pathLive s.k s.d path = true → s.k.spaceUp = true → (∀ h, path = .half h → guarded (winOf a) = false) →
      GoesBoth (.unmappedAccess path a size w) s (fun k' d' => d'.mem = s.d.mem ∧ d'.stsBit 0x0000080 0 = true ∧ k'.shell.cfg = s.k.shell.cfg ∧
        (s.d.stsBit 0x0000080 0 = false → k'.shell.uTrap = some (a % 2 ^ 26, w, trapPath path)) ∧
        d'.out = if w = true then s.d.out else s.d.out ++ [.readData path a 0#64]))

/-- R51 to R54, R701: GO with its check and its refusals, DISCARD, the application point of a captured set, which is none while an operation that reads the set is in
progress and comes too late from 10 ms on, and its withdrawal. -/
def Obligations.Commits : Prop :=
  ∀ (s : State) (path : Path) (a : Nat) (tag : BitVec 8), isCommit a = true →
    let z := s.k.commit a
    let l := setWords a
    let g : Capture := ⟨path, tag.toNat, s.k.ticks, l.foldl (fun t w => Tab.set t (s.k.stagedWord path w).1 (s.k.stagedWord path w).2) [], takeStaged s.k.shell.staged l⟩
    let same := fun (k' : Ctl) (d' : Data) => k'.shell.cfg = s.k.shell.cfg ∧ d' = s.d
    let reported := fun (k' : Ctl) (t : Nat) (st : Status) => (k'.commit a).result = st ∧ (k'.commit a).doneTag = t ∧ (k'.commit a).cap = none
    (WordAccess s path a → s.k.pathWrites path a →
      (z.cap.isSome = true → GoesBoth (.commitGo path a tag) s (fun k' d' => k' = s.k ∧ d' = s.d)) ∧
      (z.cap = none →
        (s.k.domainDown a = true → GoesBoth (.commitGo path a tag) s (fun k' d' => same k' d' ∧ reported k' tag.toNat .domainOff ∧ k'.shell.staged = s.k.shell.staged)) ∧
        (s.k.domainDown a = false → ∀ st, commitCheck s.k s.d a g = st →
          (st ≠ .ok → GoesBoth (.commitGo path a tag) s (fun k' d' => same k' d' ∧ reported k' tag.toNat st ∧ k'.shell.staged = s.k.shell.staged)) ∧
          (st = .ok → l ≠ [] → GoesBoth (.commitGo path a tag) s (fun k' d' => same k' d' ∧ (k'.commit a).cap = some g ∧
            k'.shell.staged = dropStaged s.k.shell.staged l))) ∧
        GoesBoth (.commitDiscard path a) s (fun k' d' => same k' d' ∧ k'.shell.staged = dropStaged s.k.shell.staged l ∧ (k'.commit a).cap = none))) ∧
    (∀ c, z.cap = some c →
      (∀ st, (if s.k.domainDown a = true then Status.domainOff else if c.since + 5000000 ≤ s.k.ticks then .timeout
          else if winOf a = 0 then commitCheck s.k s.d a c else .ok) = st →
        (st = .ok → commitBusy s.d a c = false → a ≠ 0x0200000 ∨ s.k.pwr.state ≠ .s1 → GoesBoth (.commitApply a) s (fun k' _ => reported k' c.tag .ok ∧
          k'.shell.cfg = (s.k.withWords c.words).shell.cfg)) ∧
        (st = .ok → commitBusy s.d a c = false → a = 0x0200000 → s.k.pwr.state = .s1 → GoesBoth (.commitApply a) s (fun k' d' => same k' d' ∧ reported k' c.tag .ok ∧
          k'.pwr.lim = restoreStaged s.k.pwr.lim c.staged)) ∧
        (st = .ok → commitBusy s.d a c = true → GoesBoth (.commitApply a) s (fun k' d' => k' = s.k ∧ d' = s.d)) ∧
        (st ≠ .ok → GoesBoth (.commitApply a) s (fun k' d' => same k' d' ∧ reported k' c.tag st ∧ k'.shell.staged = restoreStaged c.staged s.k.shell.staged))) ∧
      (c.since + 5000000 ≤ s.k.ticks → GoesBoth (.commitWithdraw a) s (fun k' d' => same k' d' ∧ reported k' c.tag .timeout ∧
        k'.shell.staged = restoreStaged c.staged s.k.shell.staged)))

/-- R471, R508, R656, R665, R667, R708: the histogram dump, a node declared dead, an injection armed, a warm reset, a feed of the watchdog, and a block reset. -/
def Obligations.RegisterActions : Prop :=
  ∀ (s : State) (path : Path),
    let may := fun (a : Nat) => WordAccess s path a ∧ s.k.pathWrites path a
    (∀ v : BitVec 64, let dst := 64 * fld v 6 42
      may 0x1E00080 → s.k.domainDown 0x1E00080 = false → s.k.dpaCheck 0 dst 34816 false = none → GoesBoth (.wskDump path v) s (fun _ d' => SameOutside s.d d' dst 34816 ∧
        memBytes d'.mem dst 34816 = (List.range 8704).flatMap (fun i => bytesLE 4 (Tab.getD s.d.trf.hist i 0)) ∧ d'.trf.hist = [])) ∧
    (∀ n (node : BitVec 16) a, path = .session n → watchOf s.k s.d node.toNat = some a →
      (watchDead s.d a = true → Goes (.fabDeclare path node) s (fun d' => d' = s.d)) ∧
      (watchDead s.d a = false → (∀ e ∈ s.d.ttx.qps, (s.d.qp e.1).peerNode ≠ node.toNat) → s.k.fld 0x1C40080 48 16 = 0 → s.k.fld 0x1C00040 0 1 = 0 →
        Goes (.fabDeclare path node) s (fun d' => watchDead d' a = true ∧ SameOutside s.d d' (a + 4) 1 ∧ ∃ bytes, d'.out = s.d.out ++ [.mgmt s.d.mgmtPorts 0x01 0xFFFF bytes]))) ∧
    (∀ (loc : BitVec 32) (bit : BitVec 16) (addr : BitVec 48), may 0x09000C0 → may 0x09000C8 → s.k.fa = true → GoesBoth (.rasInjectArm path loc bit addr) s (fun _ d' =>
      let armed := { s.d with ras := { s.d.ras with inject := some (loc.toNat, bit.toNat, addr.toNat) } }
      (s.k.tierOf addr.toNat 1 ≠ .sail → d' = armed) ∧
      (s.k.tierOf addr.toNat 1 = .sail → fld loc 4 6 = 10 → fld loc 2 2 = (sailChan addr.toNat).1 → d' = { armed with flaws := s.d.flaws ++ [(addr.toNat / 32, .one)] }))) ∧
    (may 0x0100040 → GoesBoth (.warm path) s (fun k' d' => AfterReset k' d' 2 4) ∧
      (s.k.rst.wdtFed.isSome = true → GoesBoth (.feed path) s (fun k' d' => k' = { s.k with rst := { s.k.rst with wdtFed := some s.k.ticks } } ∧ d' = s.d))) ∧
    (may 0x01000C0 → s.k.rst.blk = none →
      (∀ loc : BitVec 32, loc.toNat % 4 ≠ 1 → GoesBoth (.rstBlk path loc) s (fun k' d' => k'.rst.blk = none ∧ k'.rst.result = Status.code .badDesc ∧ d' = s.d)) ∧
      (∀ b, b ≤ 6 → GoesBoth (.rstBlk path (BitVec.ofNat 32 (1 + 16 * b + 2 ^ 20))) s (fun k' d' => k'.rst.blk = none ∧ k'.rst.result = Status.code .perm ∧ d' = s.d)) ∧
      (∀ r b, r < 4 → b ≤ 21 → s.k.done = true → s.k.powered b = true → s.k.down.contains (64 * r + 63) = false → (∀ x ∈ s.d.ras.steps, x.blk ≠ 64 * r + b) →
        GoesBoth (.rstBlk path (BitVec.ofNat 32 (1 + 4 * r + 16 * b))) s (fun k' d' => k'.rst.blk = some (64 * r + b) ∧ 64 * r + b ∈ k'.down ∧
          ∃ x ∈ d'.ras.steps, x.blk = 64 * r + b ∧ x.asked = true)))

/-! ### Resets, start-up and power -/

/-- R653, R654, R656, R670 to R672: what each source of a reset leaves, the loss of a supply, and the watchdog. -/
def Obligations.Resets : Prop :=
  ∀ (s : State),
    let p := s.k.pwr
    (p.vaux = false → GoesBoth .powerOn s (fun k' d' => AfterReset k' d' 1 1 ∧ k'.ns = 0 ∧ k'.tim.valid = false ∧ k'.tim.state = .freerun ∧ k'.pwr.vaux = true)) ∧
    (p.vaux = true → GoesBoth .resetN s (fun k' d' => AfterReset k' d' 2 2 ∧ (s.k.tim.void = false → k'.ns = s.k.ns ∧ k'.tim.state = .holdover)) ∧
      GoesBoth .vaux18Loss s (fun k' d' => k' = { s.k with pwr := { p with vaux := false } } ∧ d'.bbx.queue = []) ∧
      (p.vin = false → GoesBoth .vin18Good s (fun k' d' => AfterReset k' d' 2 0x0B ∧ k'.pwr.vin = true)) ∧
      (p.vin = true → p.state ≠ .s3 → GoesBoth .vin18Loss s (fun k' d' => k'.pwr.vin = false ∧ k'.rst.stage = 0 ∧ k'.rst.ready = false ∧ k'.progs = [] ∧
          k'.sec.sessions = [] ∧ d'.mem = [] ∧ d'.fyl.threads = []) ∧
        ∀ h, h < 8 → s.k.halfMode h = 2 →
          (bitsOf s.k.rst.perstWarm h 1 = 1 → GoesBoth (.perstN h) s (fun k' d' => AfterReset k' d' 2 3)) ∧
          (bitsOf s.k.rst.perstWarm h 1 = 0 → GoesBoth (.perstN h) s (fun k' d' => k'.rst = { s.k.rst with source := 3 } ∧ d'.half h = halfReset ∧
            ∀ j, j ≠ h → d'.half j = s.d.half j)))) ∧
    (∀ t, let cell := Tab.getD s.d.mbx.flags ((s.k.frange 0).1 + s.k.fld 0x0100100 32 16) 0#64
      s.k.rst.wdtFed = some t → s.k.fld 0x0100100 0 1 = 1 → p.state = .run → t + s.k.fld 0x0100100 16 16 * 500000 ≤ s.k.ticks →
      (cell ≠ s.k.rst.wdtVal → GoesBoth .watchdogExpiry s (fun k' d' => k' = { s.k with rst := { s.k.rst with wdtFed := some s.k.ticks, wdtVal := cell } } ∧ d' = s.d)) ∧
      (cell = s.k.rst.wdtVal → GoesBoth .watchdogExpiry s (fun k' d' => AfterReset k' d' 2 5 ∧ k'.fld 0x0100080 5 1 = 1)))

/-- R607, R657 to R660, R664: the steps of start-up, recovery without a firmware that verifies, and DONE when the boot program has been launched. -/
def Obligations.StartupSteps : Prop :=
  ∀ (s : State) (nand : List (List NandDie)) (n : Nat), s.k.rst.fail = false → s.k.sec.recovery = false → s.k.pwr.state ≠ .s3 → s.k.pwr.vaux = true → s.k.rst.stage = n →
    let step := Instr.startupStep
    (n ∈ [1, 3, 4, 5, 6, 7, 8, 9, 10, 11, 12] → (n = 4 → s.k.pwr.vin = true) → GoesBoth (step 0 nand) s (fun k' d' => k'.rst.stage = n + 1 ∧ d'.mem = s.d.mem ∧
      (n = 3 → (k'.rst.useB, k'.rst.safe) = obSelect s.k.rst.optA s.k.rst.optB) ∧
      (6 ≤ n → n ≤ 9 → 64 * (n - 6) + 63 ∉ k'.down) ∧ (n = 10 → ∀ x ∈ k'.down, x % 64 ∉ [0, 1, 2, 3]) ∧ (n = 12 → ∀ x ∈ k'.down, x % 64 ∉ [12, 13, 14, 15]))) ∧
    (n = 2 →
      (∀ i, s.k.sec.fwPick = some i → GoesBoth (step 0 nand) s (fun k' d' => k'.rst.stage = 3 ∧ k'.sec.fwSlot = i ∧ k'.sec.recovery = false ∧ d'.mem = s.d.mem)) ∧
      (s.k.sec.fwPick = none → GoesBoth (step 0 nand) s (fun k' d' => k'.rst.stage = 2 ∧ k'.sec.recovery = true ∧ d'.mem = s.d.mem))) ∧
    (n = 1 → GoesBoth (step 1 nand) s (fun k' d' => k'.rst.stage = 2 ∧ k'.sec.recovery = true ∧ d'.mem = s.d.mem)) ∧
    (n = 3 → GoesBoth (step 1 nand) s (fun k' d' => k'.rst.stage = 3 ∧ k'.rst.fail = true ∧ d'.mem = s.d.mem)) ∧
    (n = 13 → let words := match Tab.get? s.k.sec.fw s.k.sec.fwSlot with | some f => f.boot | none => []
      let k1 := installProg s.k 0 0 words (Config.sha384 (words.flatMap (fun w => bytesLE 4 w.toNat)))
      let r := launch k1 s.d (k1.rtSlots != 0) 0 0 (BitVec.ofNat 512 (2 ^ 36))
      k1.up 0 0 = true → r.2 = none → GoesBoth (step 0 nand) s (fun k' d' => k'.rst.stage = 15 ∧ k'.rst.ready = true ∧ k'.rst.wdtFed = some s.k.ticks ∧
        Tab.get? k'.progs 0 = some ⟨words, unboundedIn words⟩ ∧ d' = r.1))

/-- R673 to R686: requests of PWR_CTL and their refusals, S1 entry and its timeout, wake from S3, the power cap, and thermal control. -/
def Obligations.PowerStates : Prop :=
  ∀ (s : State) (path : Path),
    let p := s.k.pwr
    let ended := fun (k' : Ctl) (st : Status) => k'.pwr.req = none ∧ k'.pwr.result = st.code
    let inS3 := fun (k' : Ctl) (d' : Data) => k'.pwr.state = .s3 ∧ k'.progs = [] ∧ k'.sec.prefixKeys = [] ∧ k'.sec.qpKeys = [] ∧ k'.sec.sessions = [] ∧
      k'.rst.ready = false ∧ k'.down = heldDown ∧ d'.mem = [] ∧ d'.fyl.threads = []
    (WordAccess s path 0x02000C0 → s.k.pathWrites path 0x02000C0 → p.req = none →
      (p.state = .run → (s1Refused s.k s.d = false → GoesBoth (.s1Request path) s (fun k' d' => k' = { s.k with pwr := { p with req := some s.k.ticks } } ∧ d' = s.d)) ∧
        (s1Refused s.k s.d = true → GoesBoth (.s1Request path) s (fun k' d' => ended k' .cfgInvalid ∧ k'.pwr.state = .run ∧ d' = s.d))) ∧
      (p.state = .s1 → GoesBoth (.exitS1 path) s (fun k' d' => ended k' .ok ∧ k'.pwr.state = .run ∧ d'.mem = s.d.mem)) ∧
      (s3Refused s.k s.d = false → GoesBoth (.s3Request path) s (fun k' d' => ended k' .ok ∧ inS3 k' d')) ∧
      (s3Refused s.k s.d = true → GoesBoth (.s3Request path) s (fun k' d' => ended k' .cfgInvalid ∧ k'.pwr.state = p.state ∧ d' = s.d))) ∧
    (∀ t, p.req = some t → p.next = 0 →
      (s1Hold s.d = false → sailBusy s.d = false → GoesBoth .s1Entry s (fun k' d' => ended k' .ok ∧ k'.pwr.state = .s1 ∧
        (∀ e ∈ d'.fyl.threads, e.2.part ≠ 0) ∧ ∀ i, i < 8 → (d'.chan8 i).journal = [])) ∧
      (s1Hold s.d = true → t + 50000000 ≤ s.k.ticks → GoesBoth .s1HoldTimeout s (fun k' d' => ended k' .timeout ∧ k'.pwr.state = p.state ∧ d' = s.d))) ∧
    (p.state = .s3 → p.vaux = true →
      (p.vin = true → p.tripped = none → GoesBoth .s3Wake s (fun k' d' => AfterReset k' d' 2 0x0C)) ∧
      (∀ t, p.tripped = some t → s.k.ticks < t + 5000000000 → GoesBoth .s3Wake s (fun k' d' => k' = s.k ∧ (d'.chan 0).dbK = (s.d.chan 0).dbK &&& ~~~ 1#32 ∧
        d'.mem = s.d.mem))) ∧
    (p.state ≠ .s3 → p.vin = true → 4 ≤ s.k.rst.stage →
      (∀ watts avg, GoesBoth (.capEvaluation watts avg) s (fun k' d' => d'.mem = s.d.mem ∧ k'.pwr.capLevel =
        if s.k.fld 0x0200040 0 11 < watts then min 7 (p.capLevel + 1) else if watts * 100 < s.k.fld 0x0200040 0 11 * 95 then p.capLevel - 1 else p.capLevel)) ∧
      (∀ die hbm : List (BitVec 8), die.length = 4 → hbm.length = 12 → let thr := s.k.fld 0x0200080 16 8
        GoesBoth (.thermalEvaluation die hbm) s (fun k' d' => d'.mem = s.d.mem ∧ k'.pwr.die = die.map BitVec.toNat ∧
          ((∃ t ∈ die, thr ≤ t.toNat) ∨ (∃ t ∈ hbm, 95 ≤ t.toNat) → k'.pwr.therm = min 8 (p.therm + 1)) ∧
          ((∀ t ∈ die, t.toNat + 3 ≤ thr) ∧ (∀ t ∈ hbm, t.toNat ≤ 92) → k'.pwr.therm = p.therm - 1)))) ∧
    (∀ t, p.cap7 = some t → t + 5000000 ≤ s.k.ticks → s.d.stsBit 0x0200100 3 = false → Goes .capMiss s (fun d' => d'.stsBit 0x0200100 3 = true ∧ d'.mem = s.d.mem)) ∧
    (∀ t (loc : BitVec 32), p.hotSince = some t → t + 500000 ≤ s.k.ticks → p.state ≠ .s3 → GoesBoth (.thermalTrip loc) s (fun k' d' => inS3 k' d' ∧ k'.pwr.tripped = some s.k.ticks))

/-! ### Time -/

/-- R638 to R646: reference inputs, offsets from PPS and PTP, the step and the slew, lock and its loss, PPS outputs and PTP intervals. -/
def Obligations.TimeService : Prop :=
  ∀ (s : State), s.k.pwr.state ≠ .s3 → s.k.pwr.vin = true →
    let t := s.k.tim
    let lock := s.k.fld 0x0400040 16 16
    let src := s.k.fld 0x0400040 0 2
    (∀ i, i ∈ [0, 1, 2, 3, 4, 5, 6, 7, 9] →
      (bitsOf t.inputs i 1 = 1 → GoesBoth (.clockInputLoss i) s (fun k' d' => k'.tim.inputs = t.inputs - 2 ^ i ∧ d'.stsBit 0x0300040 11 = true)) ∧
      (bitsOf t.inputs i 1 = 0 → GoesBoth (.clockInputReturn i) s (fun k' _ => k'.tim.inputs = t.inputs + 2 ^ i))) ∧
    (∀ e, t.edge = some e → 50000 < edgeError e s.k.ticks → GoesBoth .ppsEdge s (fun k' d' => k' = s.k ∧ d'.mem = s.d.mem)) ∧
    (t.edge = none → src = 1 → t.tod = none → GoesBoth .ppsEdge s (fun k' d' => d'.mem = s.d.mem ∧ k'.tim.edge = some s.k.ticks ∧ k'.tim.heard = some s.k.ticks ∧
      k'.tim.offset = (if s.k.ns % 1000000000 ≤ 500000000 then - ((s.k.ns % 1000000000 : Nat) : Int) else 1000000000 - ((s.k.ns % 1000000000 : Nat) : Int)))) ∧
    (∀ (o : Int) (since : Nat), s.k.fld 0x0400040 2 1 = 1 → src = 2 → t.stepAt = 0 →
      GoesBoth (.ptpMessage none (some (o, since))) s (fun k' d' => d'.mem = s.d.mem ∧ k'.tim.offset = o ∧
        (((s.k.fld 0x0400040 32 16 * 1000 : Nat) : Int) < o → k'.ns = (s.k.ns + o.toNat) % 2 ^ 64 ∧ k'.tim.slew = 0 ∧ d'.stsBit 0x0400180 4 = true) ∧
        (o < 0 → lock < o.natAbs → k'.ns = s.k.ns ∧ k'.tim.slew = o.natAbs * 2 ^ 32) ∧
        (t.state = .acquiring → o.natAbs ≤ lock → 15 ≤ t.streak → k'.tim.state = .locked ∧ k'.tim.valid = true) ∧
        (t.state = .locked → 4 * lock < o.natAbs → k'.tim.state = .acquiring) ∧ (t.state = .locked → o.natAbs ≤ lock → k'.tim.state = .locked))) ∧
    ((∀ h, t.heard = some h → h + 1000000000 ≤ s.k.ticks) → (t.state = .locked ∨ t.state = .acquiring) → GoesBoth .timeSourceLoss s (fun k' d' => d'.mem = s.d.mem ∧
      (t.state = .locked → k'.tim.state = .holdover) ∧ (t.state = .acquiring → k'.tim.state = if t.valid = true then .holdover else .freerun))) ∧
    (∀ n, let a := if n = true then 0x04000C0 else 0x0400080
      let off := s.k.fld a 2 30
      let sec := (s.k.ns - off) / 1000000000
      off ≤ s.k.ns → (if n = true then t.pulse1 else t.pulse0) < sec → s.k.fld a 0 1 = 1 → (s.k.fld a 1 1 = 1 → t.state ≠ .freerun ∧ t.state ≠ .acquiring) →
      GoesBoth (.ppsOutPulse n) s (fun k' d' => d' = { s.d with out := s.d.out ++ [.pps (if n = true then 1 else 0) (sec * 1000000000 + off) (s.k.fld a 32 16)] } ∧
        (if n = true then k'.tim.pulse1 else k'.tim.pulse0) = sec)) ∧
    (∀ kind slave, kind < 2 → s.k.fld 0x0400040 2 1 = 1 → src ≠ 2 → Goes (.syncInterval kind slave) s (fun d' => d'.mem = s.d.mem ∧
      d'.out = s.d.out ++ [.ptp kind ((ptpLinks s.k s.d).foldl (fun m i => m + 2 ^ i) 0) 3 s.k.ns (if kind = 1 then s.k.clockClass s.d.free else 0)]))

/-! ### Errors and the black box -/

/-- R614 to R622, R627, R40, R472: uncorrectable words, lost links, containment and its escalation, corrected errors, the patrol, the writing of the black box, the
management ports, and a block that rejoins. -/
def Obligations.ErrorsContained : Prop :=
  ∀ (s : State) (loc : BitVec 32) (word : BitVec 48) (syn : BitVec 64),
    let sram := fun (x : SramWord) => Instr.sramUncorrectable loc word syn x
    let allFenced := fun (k' : Ctl) => ∀ r, r < 4 → 64 * r + 63 ∈ k'.down
    (locListed s.k loc.toNat = false → ∀ x, GoesBoth (sram x) s (fun k' d' => k' = s.k ∧ d' = s.d)) ∧
    (locListed s.k loc.toNat = true →
    GoesBoth (sram .clean) s (fun k' d' => k' = s.k ∧ d'.mem = s.d.mem ∧ d'.fyl = s.d.fyl ∧ d'.stsBit 0x0900080 22 = true) ∧
    (∀ t th, s.d.thr t = some th → th.ops = [] → GoesBoth (sram (.thread t false)) s (fun k' d' => k' = s.k ∧ d'.thr t = none ∧ ∀ u, u ≠ t → d'.thr u = s.d.thr u)) ∧
    (∀ b, (s.d.basket b).state ≠ .free → GoesBoth (sram (.basket b)) s (fun k' d' => k' = s.k ∧ d'.mem = s.d.mem ∧
      (s.d.recDirty b = true → (d'.basket b).lost = true) ∧ (s.d.recDirty b = false → d'.bsk = s.d.bsk))) ∧
    GoesBoth (sram .gondola) s (fun k' d' => k'.sec.sessions = [] ∧ k'.sec.begun = [] ∧ d'.mem = s.d.mem ∧ d'.fyl = s.d.fyl) ∧
    (∀ r, r < 4 → GoesBoth (sram (.state (BitVec.ofNat 32 (2 + 4 * r)) [])) s (fun k' _ => 64 * r + 63 ∈ k'.down))) ∧
    (∀ a chan, s.k.tierOf a 1 = .plain → Goes (.hbmUncorrectable a chan syn) s (fun d' => d'.mem = s.d.mem ∧ d'.bad (a / 64 * 64) 64 = true)) ∧
    (∀ a b, a < 4 → b < 4 → a ≠ b → let n := 4 * min a b + max a b
      s.d.ras.closed.contains n = false → GoesBoth (.interRegionLinkLost a b) s (fun k' d' => d'.ras.closed = s.d.ras.closed ++ [n] ∧
        (s.d.ras.closed = [] → k' = s.k) ∧ (s.d.ras.closed ≠ [] → allFenced k'))) ∧
    (∀ r b x, r < 4 → b < 64 → s.d.ras.steps.find? (fun y => y.blk == 64 * r + b) = some x → x.since + 500000 ≤ s.k.ticks →
      GoesBoth (.containmentTimeout r b) s (fun k' _ => 64 * r + 63 ∈ k'.down ∧ (b = 63 ∨ b = 8 ∨ b = 9 → allFenced k'))) ∧
    (∀ r b, s.d.ras.steps.any (fun y => y.blk == 64 * r + b) = true → b < 63 → GoesBoth (.blockRejoin r b) s (fun k' _ => 64 * r + b ∉ k'.down ∧
      (∀ c ∈ k'.cells, c / 1024 ≠ 64 * r + b) ∧ (s.k.rst.blk = some (64 * r + b) → k'.rst.blk = none ∧ k'.rst.result = Status.code .ok))) ∧
    (∀ hbm n, n ≠ 0 → fld loc 0 2 = 0 → locListed s.k loc.toNat = true → Goes (.ceStorm loc hbm n) s (fun d' => d'.mem = s.d.mem ∧
      (Tab.get? s.d.ras.ces loc.toNat = none → s.k.fld 0x0900040 24 16 < n → d'.stsBit 0x0900080 23 = true))) ∧
    (∀ i, let q := Tab.getD s.d.ras.patrol i (0, 0)
      i < 8 → s.k.pwr.state = .run → s.k.up (i / 2) (8 + i % 2) = true → q.1 + 1 < 96 * 2 ^ 30 / 64 → Goes (.patrolScrub i false false syn) s (fun d' => d'.mem = s.d.mem ∧
        Tab.get? d'.ras.patrol i = some (q.1 + 1, q.2))) ∧
    (∀ x rest, s.k.pwr.vaux = true → s.d.bbx.queue = x :: rest → Goes .blackBoxWrite s (fun d' => d'.bbx.queue = rest ∧
      Tab.get? d'.bbx.recs (4096 + s.d.bbx.head % 61440) = some (x.bytes false) ∧ d'.bbx.head = (s.d.bbx.head + 1) % 61440 ∧
      ∀ a, x.answer = some a → Out.answer a.chan a.session a.opcode a.status a.seq a.body ∈ d'.out)) ∧
    (∀ up, Goes (.mgmtLinkChange 0 up) s (fun d' => d'.fab.mgmtA = up ∧ d'.fab.mgmtB = s.d.fab.mgmtB) ∧
      Goes (.mgmtLinkChange 1 up) s (fun d' => d'.fab.mgmtB = up ∧ d'.fab.mgmtA = s.d.fab.mgmtA))

/-! ### What every state keeps -/

/-- R9: no step leaves a bit in a register word in force that the register map does not define. -/
def Obligations.RegistersStayDefined : Prop := ∀ (s s' : State), s.k.cfgDefined → step s = .next s' → s'.k.cfgDefined

/-- The memory keeps its canonical form at every step. -/
def Obligations.MemoryStaysCanonical : Prop := ∀ (s s' : State), s.d.memCanon → step s = .next s' → s'.d.memCanon

/-- R595: no step opens a ninth session. -/
def Obligations.SessionsStayBounded : Prop := ∀ (s s' : State), s.k.sessionsBounded → step s = .next s' → s'.k.sessionsBounded

/-- R654, R657: what holds right after power-on reset: the invariants, start-up at its first step, every region in reset, no session, thread, Basket or QP. -/
def Obligations.ResetState : Prop :=
  State.reset.k.cfgDefined ∧ State.reset.k.sessionsBounded ∧ State.reset.d.memCanon ∧ AfterReset State.reset.k State.reset.d 1 1 ∧ State.reset.k.ns = 0 ∧ State.reset.pending = [] ∧
  State.reset.k.sec.owner = 0 ∧ ∀ b, (State.reset.d.basket b).state = .free
end

