-- ==== Sys2Proof/Laws/Tab.lean ====
section
/-!
SUPPORT. The laws of sparse tables: what a look-up gives after each operation. They hold of every list, sorted or not.
-/
namespace Sys2Proof

variable {α : Type}

@[simp] theorem Tab.get?_nil (k : Nat) : Tab.get? ([] : Tab α) k = none := rfl

theorem Tab.get?_cons (e : Nat × α) (r : Tab α) (k : Nat) :
    Tab.get? (e :: r : Tab α) k = if e.1 = k then some e.2 else Tab.get? r k := rfl

@[simp] theorem Tab.get?_set_self (t : Tab α) (k : Nat) (v : α) : Tab.get? (Tab.set t k v) k = some v := by
  induction t with
  | nil => simp [Tab.set, Tab.get?_cons]
  | cons e r ih =>
    rcases e with ⟨j, w⟩
    unfold Tab.set
    by_cases h1 : k < j
    · simp [h1, Tab.get?_cons]
    · by_cases h2 : k = j
      · simp [h2, Tab.get?_cons]
      · have : ¬ j = k := fun h => h2 h.symm
        simp [h1, h2, Tab.get?_cons, this, ih]

theorem Tab.get?_set_ne (t : Tab α) {k i : Nat} (v : α) (h : i ≠ k) : Tab.get? (Tab.set t k v) i = Tab.get? t i := by
  induction t with
  | nil => simp [Tab.set, Tab.get?_cons, h.symm]
  | cons e r ih =>
    rcases e with ⟨j, w⟩
    unfold Tab.set
    by_cases h1 : k < j
    · simp [h1, Tab.get?_cons, h.symm]
    · by_cases h2 : k = j
      · subst h2; simp [Tab.get?_cons, h.symm]
      · simp [h1, h2, Tab.get?_cons, ih]

@[simp] theorem Tab.get?_erase_self (t : Tab α) (k : Nat) : Tab.get? (Tab.erase t k) k = none := by
  induction t with
  | nil => rfl
  | cons e r ih =>
    rcases e with ⟨j, w⟩
    unfold Tab.erase
    by_cases h : j = k
    · simp [h, ih]
    · simp [h, Tab.get?_cons, ih]

theorem Tab.get?_erase_ne (t : Tab α) {k i : Nat} (h : i ≠ k) : Tab.get? (Tab.erase t k) i = Tab.get? t i := by
  induction t with
  | nil => rfl
  | cons e r ih =>
    rcases e with ⟨j, w⟩
    unfold Tab.erase
    by_cases h1 : j = k
    · have : ¬ j = i := fun h2 => h (h2.symm.trans h1)
      simp [h1, ih, Tab.get?_cons, h.symm]
    · simp [h1, Tab.get?_cons, ih]

@[simp] theorem Tab.getD_nil (k : Nat) (x : α) : Tab.getD ([] : Tab α) k x = x := rfl

@[simp] theorem Tab.getD_set_self (t : Tab α) (k : Nat) (v x : α) : Tab.getD (Tab.set t k v) k x = v := by
  simp [Tab.getD]

theorem Tab.getD_set_ne (t : Tab α) {k i : Nat} (v x : α) (h : i ≠ k) : Tab.getD (Tab.set t k v) i x = Tab.getD t i x := by
  simp [Tab.getD, Tab.get?_set_ne t v h]

@[simp] theorem Tab.getD_put_self [DecidableEq α] (x : α) (t : Tab α) (k : Nat) (v : α) : Tab.getD (Tab.put x t k v) k x = v := by
  unfold Tab.put
  by_cases h : v = x
  · simp [h, Tab.getD]
  · simp [h]

theorem Tab.getD_put_ne [DecidableEq α] (x : α) (t : Tab α) {k i : Nat} (v : α) (h : i ≠ k) :
    Tab.getD (Tab.put x t k v) i x = Tab.getD t i x := by
  unfold Tab.put
  by_cases h1 : v = x
  · simp [h1, Tab.getD, Tab.get?_erase_ne t h]
  · simp [h1, Tab.getD_set_ne t v x h]

@[simp] theorem Tab.has_set_self (t : Tab α) (k : Nat) (v : α) : Tab.has (Tab.set t k v) k = true := by
  simp [Tab.has]

theorem Tab.get?_mapVals {β : Type} (t : Tab α) (f : Nat → α → β) (k : Nat) :
    Tab.get? (Tab.mapVals t f) k = (Tab.get? t k).map (f k) := by
  induction t with
  | nil => rfl
  | cons e r ih =>
    rcases e with ⟨j, w⟩
    show Tab.get? ((j, f j w) :: Tab.mapVals r f : Tab β) k = _
    by_cases h : j = k
    · subst h; simp [Tab.get?_cons]
    · simp [Tab.get?_cons, h, ih]

end Sys2Proof
end

