-- ==== Sys2Proof/Laws/Mem.lean ====
section
/-!
SUPPORT. The laws of the byte memory: a read after a write, the bytes that a write leaves alone, and the canonical form, which every operation on memory keeps.
-/
namespace Sys2Proof.Machine

@[simp] theorem memByte_memPut_self (m : List Host.Cell) (a : Nat) (b : Byte) : memByte (memPut m a b) a = b := by
  simp [memByte, memPut]

theorem memByte_memPut_ne (m : List Host.Cell) {a i : Nat} (b : Byte) (h : i ≠ a) : memByte (memPut m a b) i = memByte m i :=
  Tab.getD_put_ne unwritten m b h

/-- A write of bytes leaves every byte outside them as it was. -/
theorem memByte_memPutBytes_outside (l : List Byte) : ∀ (m : List Host.Cell) (a i : Nat), i < a ∨ a + l.length ≤ i →
    memByte (memPutBytes m a l) i = memByte m i := by
  induction l with
  | nil => intro m a i _; rfl
  | cons b r ih =>
    intro m a i h
    have h1 : i ≠ a := by simp only [List.length_cons] at h; omega
    show memByte (memPutBytes (memPut m a b) (a + 1) r) i = memByte m i
    rw [ih (memPut m a b) (a + 1) i (by simp only [List.length_cons] at h; omega), memByte_memPut_ne m b h1]

/-- A write of bytes is read back. -/
theorem memByte_memPutBytes_inside (l : List Byte) : ∀ (m : List Host.Cell) (a i : Nat), (h : i < l.length) →
    memByte (memPutBytes m a l) (a + i) = l[i] := by
  induction l with
  | nil => intro m a i h; exact absurd h (Nat.not_lt_zero i)
  | cons b r ih =>
    intro m a i h
    show memByte (memPutBytes (memPut m a b) (a + 1) r) (a + i) = (b :: r)[i]
    cases i with
    | zero => rw [memByte_memPutBytes_outside r (memPut m a b) (a + 1) (a + 0) (by omega)]; simp
    | succ j =>
      have := ih (memPut m a b) (a + 1) j (by simpa using h)
      rw [show a + (j + 1) = a + 1 + j by omega, this]; simp

/-! ### The canonical form -/

theorem memWfFrom_mono {lo hi : Nat} (m : List Host.Cell) (h : lo ≤ hi) (w : memWfFrom hi m = true) : memWfFrom lo m = true := by
  cases m with
  | nil => rfl
  | cons c r =>
    rcases c with ⟨a, b⟩
    simp only [memWfFrom, Bool.and_eq_true, decide_eq_true_eq] at w ⊢
    exact ⟨⟨Nat.le_trans h w.1.1, w.1.2⟩, w.2⟩

theorem memWfFrom_set (b : Byte) (hb : b ≠ unwritten) (k : Nat) : ∀ (m : List Host.Cell) (lo : Nat), lo ≤ k → memWfFrom lo m = true →
    memWfFrom lo (Tab.set m k b) = true := by
  intro m
  induction m with
  | nil => intro lo h _; simp [Tab.set, memWfFrom, h, hb]
  | cons c r ih =>
    intro lo h w
    rcases c with ⟨a, x⟩
    simp only [memWfFrom, Bool.and_eq_true, decide_eq_true_eq] at w
    unfold Tab.set
    by_cases h1 : k < a
    · simp only [h1, if_true, memWfFrom, Bool.and_eq_true, decide_eq_true_eq]
      exact ⟨⟨h, hb⟩, ⟨⟨h1, w.1.2⟩, w.2⟩⟩
    · by_cases h2 : k = a
      · subst h2
        simp only [Nat.lt_irrefl, if_false, if_true, memWfFrom, Bool.and_eq_true, decide_eq_true_eq]
        exact ⟨⟨h, hb⟩, w.2⟩
      · simp only [h1, h2, if_false, memWfFrom, Bool.and_eq_true, decide_eq_true_eq]
        exact ⟨⟨w.1.1, w.1.2⟩, ih (a + 1) (by omega) w.2⟩

theorem memWfFrom_erase (k : Nat) : ∀ (m : List Host.Cell) (lo : Nat), memWfFrom lo m = true → memWfFrom lo (Tab.erase m k) = true := by
  intro m
  induction m with
  | nil => intro lo _; rfl
  | cons c r ih =>
    intro lo w
    rcases c with ⟨a, x⟩
    simp only [memWfFrom, Bool.and_eq_true, decide_eq_true_eq] at w
    unfold Tab.erase
    by_cases h : a = k
    · simp only [h, if_true]
      exact memWfFrom_mono _ (by omega) (ih (a + 1) w.2)
    · simp only [h, if_false, memWfFrom, Bool.and_eq_true, decide_eq_true_eq]
      exact ⟨w.1, ih (a + 1) w.2⟩

theorem memWf_memPut (m : List Host.Cell) (a : Nat) (b : Byte) (w : memWf m = true) : memWf (memPut m a b) = true := by
  unfold memPut Tab.put
  by_cases h : b = unwritten
  · simp only [h, if_true]; exact memWfFrom_erase a m 0 w
  · simp only [h, if_false]; exact memWfFrom_set b h a m 0 (Nat.zero_le a) w

theorem memWf_memPutBytes (l : List Byte) : ∀ (m : List Host.Cell) (a : Nat), memWf m = true → memWf (memPutBytes m a l) = true := by
  induction l with
  | nil => intro m a w; exact w
  | cons b r ih => intro m a w; exact ih (memPut m a b) (a + 1) (memWf_memPut m a b w)

theorem memWf_memPutVal (m : List Host.Cell) (a n v : Nat) (w : memWf m = true) : memWf (memPutVal m a n v) = true :=
  memWf_memPutBytes (bytesLE n v) m a w

theorem memWfFrom_filter (f : Host.Cell → Bool) : ∀ (m : List Host.Cell) (lo : Nat), memWfFrom lo m = true →
    memWfFrom lo (m.filter f) = true := by
  intro m
  induction m with
  | nil => intro lo _; rfl
  | cons c r ih =>
    intro lo w
    rcases c with ⟨a, x⟩
    simp only [memWfFrom, Bool.and_eq_true, decide_eq_true_eq] at w
    by_cases h : f (a, x) = true
    · simp only [List.filter_cons, h, if_true, memWfFrom, Bool.and_eq_true, decide_eq_true_eq]
      exact ⟨w.1, ih (a + 1) w.2⟩
    · simp only [List.filter_cons, h]
      exact memWfFrom_mono _ (by omega) (ih (a + 1) w.2)

theorem memWf_filter (f : Host.Cell → Bool) (m : List Host.Cell) (w : memWf m = true) : memWf (m.filter f) = true :=
  memWfFrom_filter f m 0 w

theorem memWf_memClear (m : List Host.Cell) (a n : Nat) (w : memWf m = true) : memWf (memClear m a n) = true := memWf_filter _ m w

theorem memWf_memCopy (m : List Host.Cell) (src dst n : Nat) (w : memWf m = true) : memWf (memCopy m src dst n) = true :=
  memWf_memPutBytes _ m dst w

@[simp] theorem memWf_nil : memWf [] = true := rfl

end Sys2Proof.Machine
end

