-- ==== Sys2Proof/Laws/State.lean ====
section
/-!
SUPPORT. What each update of the state leaves unchanged, field by field, and what reading back gives.
-/
namespace Sys2Proof.Machine

/-! ### The fields that an update of the data plane leaves unchanged -/


@[simp] theorem Data.setSts_mem (d : Data) (a i : Nat) : (d.setSts a i).mem = d.mem := rfl
@[simp] theorem Data.setSts_poison (d : Data) (a i : Nat) : (d.setSts a i).poison = d.poison := rfl
@[simp] theorem Data.setSts_rawUe (d : Data) (a i : Nat) : (d.setSts a i).rawUe = d.rawUe := rfl
@[simp] theorem Data.setSts_flaws (d : Data) (a i : Nat) : (d.setSts a i).flaws = d.flaws := rfl
@[simp] theorem Data.setSts_fyl (d : Data) (a i : Nat) : (d.setSts a i).fyl = d.fyl := rfl
@[simp] theorem Data.setSts_mbx (d : Data) (a i : Nat) : (d.setSts a i).mbx = d.mbx := rfl
@[simp] theorem Data.setSts_bdl (d : Data) (a i : Nat) : (d.setSts a i).bdl = d.bdl := rfl
@[simp] theorem Data.setSts_trf (d : Data) (a i : Nat) : (d.setSts a i).trf = d.trf := rfl
@[simp] theorem Data.setSts_bsk (d : Data) (a i : Nat) : (d.setSts a i).bsk = d.bsk := rfl
@[simp] theorem Data.setSts_kvw (d : Data) (a i : Nat) : (d.setSts a i).kvw = d.kvw := rfl
@[simp] theorem Data.setSts_adp (d : Data) (a i : Nat) : (d.setSts a i).adp = d.adp := rfl
@[simp] theorem Data.setSts_mat (d : Data) (a i : Nat) : (d.setSts a i).mat = d.mat := rfl
@[simp] theorem Data.setSts_spl (d : Data) (a i : Nat) : (d.setSts a i).spl = d.spl := rfl
@[simp] theorem Data.setSts_ttx (d : Data) (a i : Nat) : (d.setSts a i).ttx = d.ttx := rfl
@[simp] theorem Data.setSts_fab (d : Data) (a i : Nat) : (d.setSts a i).fab = d.fab := rfl
@[simp] theorem Data.setSts_sal (d : Data) (a i : Nat) : (d.setSts a i).sal = d.sal := rfl
@[simp] theorem Data.setSts_mrg (d : Data) (a i : Nat) : (d.setSts a i).mrg = d.mrg := rfl
@[simp] theorem Data.setSts_bls (d : Data) (a i : Nat) : (d.setSts a i).bls = d.bls := rfl
@[simp] theorem Data.setSts_bbx (d : Data) (a i : Nat) : (d.setSts a i).bbx = d.bbx := rfl
@[simp] theorem Data.setSts_ras (d : Data) (a i : Nat) : (d.setSts a i).ras = d.ras := rfl
@[simp] theorem Data.setSts_links (d : Data) (a i : Nat) : (d.setSts a i).links = d.links := rfl
@[simp] theorem Data.setSts_engs (d : Data) (a i : Nat) : (d.setSts a i).engs = d.engs := rfl
@[simp] theorem Data.setSts_low (d : Data) (a i : Nat) : (d.setSts a i).low = d.low := rfl
@[simp] theorem Data.setSts_evts (d : Data) (a i : Nat) : (d.setSts a i).evts = d.evts := rfl
@[simp] theorem Data.setSts_cnt (d : Data) (a i : Nat) : (d.setSts a i).cnt = d.cnt := rfl
@[simp] theorem Data.setSts_halfCap (d : Data) (a i : Nat) : (d.setSts a i).halfCap = d.halfCap := rfl
@[simp] theorem Data.setSts_out (d : Data) (a i : Nat) : (d.setSts a i).out = d.out := rfl
@[simp] theorem Data.setSts_free (d : Data) (a i : Nat) : (d.setSts a i).free = d.free := rfl
@[simp] theorem Data.setSts_tick (d : Data) (a i : Nat) : (d.setSts a i).tick = d.tick := rfl
@[simp] theorem Data.setSts_slices (d : Data) (a i : Nat) : (d.setSts a i).slices = d.slices := rfl

@[simp] theorem Data.bump_mem (d : Data) (a n : Nat) : (d.bump a n).mem = d.mem := rfl
@[simp] theorem Data.bump_poison (d : Data) (a n : Nat) : (d.bump a n).poison = d.poison := rfl
@[simp] theorem Data.bump_rawUe (d : Data) (a n : Nat) : (d.bump a n).rawUe = d.rawUe := rfl
@[simp] theorem Data.bump_flaws (d : Data) (a n : Nat) : (d.bump a n).flaws = d.flaws := rfl
@[simp] theorem Data.bump_fyl (d : Data) (a n : Nat) : (d.bump a n).fyl = d.fyl := rfl
@[simp] theorem Data.bump_mbx (d : Data) (a n : Nat) : (d.bump a n).mbx = d.mbx := rfl
@[simp] theorem Data.bump_bdl (d : Data) (a n : Nat) : (d.bump a n).bdl = d.bdl := rfl
@[simp] theorem Data.bump_trf (d : Data) (a n : Nat) : (d.bump a n).trf = d.trf := rfl
@[simp] theorem Data.bump_bsk (d : Data) (a n : Nat) : (d.bump a n).bsk = d.bsk := rfl
@[simp] theorem Data.bump_kvw (d : Data) (a n : Nat) : (d.bump a n).kvw = d.kvw := rfl
@[simp] theorem Data.bump_adp (d : Data) (a n : Nat) : (d.bump a n).adp = d.adp := rfl
@[simp] theorem Data.bump_mat (d : Data) (a n : Nat) : (d.bump a n).mat = d.mat := rfl
@[simp] theorem Data.bump_spl (d : Data) (a n : Nat) : (d.bump a n).spl = d.spl := rfl
@[simp] theorem Data.bump_ttx (d : Data) (a n : Nat) : (d.bump a n).ttx = d.ttx := rfl
@[simp] theorem Data.bump_fab (d : Data) (a n : Nat) : (d.bump a n).fab = d.fab := rfl
@[simp] theorem Data.bump_sal (d : Data) (a n : Nat) : (d.bump a n).sal = d.sal := rfl
@[simp] theorem Data.bump_mrg (d : Data) (a n : Nat) : (d.bump a n).mrg = d.mrg := rfl
@[simp] theorem Data.bump_bls (d : Data) (a n : Nat) : (d.bump a n).bls = d.bls := rfl
@[simp] theorem Data.bump_bbx (d : Data) (a n : Nat) : (d.bump a n).bbx = d.bbx := rfl
@[simp] theorem Data.bump_ras (d : Data) (a n : Nat) : (d.bump a n).ras = d.ras := rfl
@[simp] theorem Data.bump_links (d : Data) (a n : Nat) : (d.bump a n).links = d.links := rfl
@[simp] theorem Data.bump_engs (d : Data) (a n : Nat) : (d.bump a n).engs = d.engs := rfl
@[simp] theorem Data.bump_low (d : Data) (a n : Nat) : (d.bump a n).low = d.low := rfl
@[simp] theorem Data.bump_evts (d : Data) (a n : Nat) : (d.bump a n).evts = d.evts := rfl
@[simp] theorem Data.bump_sts (d : Data) (a n : Nat) : (d.bump a n).sts = d.sts := rfl
@[simp] theorem Data.bump_halfCap (d : Data) (a n : Nat) : (d.bump a n).halfCap = d.halfCap := rfl
@[simp] theorem Data.bump_out (d : Data) (a n : Nat) : (d.bump a n).out = d.out := rfl
@[simp] theorem Data.bump_free (d : Data) (a n : Nat) : (d.bump a n).free = d.free := rfl
@[simp] theorem Data.bump_tick (d : Data) (a n : Nat) : (d.bump a n).tick = d.tick := rfl
@[simp] theorem Data.bump_slices (d : Data) (a n : Nat) : (d.bump a n).slices = d.slices := rfl

@[simp] theorem Data.highWater_mem (d : Data) (a n : Nat) : (d.highWater a n).mem = d.mem := rfl
@[simp] theorem Data.highWater_poison (d : Data) (a n : Nat) : (d.highWater a n).poison = d.poison := rfl
@[simp] theorem Data.highWater_rawUe (d : Data) (a n : Nat) : (d.highWater a n).rawUe = d.rawUe := rfl
@[simp] theorem Data.highWater_flaws (d : Data) (a n : Nat) : (d.highWater a n).flaws = d.flaws := rfl
@[simp] theorem Data.highWater_fyl (d : Data) (a n : Nat) : (d.highWater a n).fyl = d.fyl := rfl
@[simp] theorem Data.highWater_mbx (d : Data) (a n : Nat) : (d.highWater a n).mbx = d.mbx := rfl
@[simp] theorem Data.highWater_bdl (d : Data) (a n : Nat) : (d.highWater a n).bdl = d.bdl := rfl
@[simp] theorem Data.highWater_trf (d : Data) (a n : Nat) : (d.highWater a n).trf = d.trf := rfl
@[simp] theorem Data.highWater_bsk (d : Data) (a n : Nat) : (d.highWater a n).bsk = d.bsk := rfl
@[simp] theorem Data.highWater_kvw (d : Data) (a n : Nat) : (d.highWater a n).kvw = d.kvw := rfl
@[simp] theorem Data.highWater_adp (d : Data) (a n : Nat) : (d.highWater a n).adp = d.adp := rfl
@[simp] theorem Data.highWater_mat (d : Data) (a n : Nat) : (d.highWater a n).mat = d.mat := rfl
@[simp] theorem Data.highWater_spl (d : Data) (a n : Nat) : (d.highWater a n).spl = d.spl := rfl
@[simp] theorem Data.highWater_ttx (d : Data) (a n : Nat) : (d.highWater a n).ttx = d.ttx := rfl
@[simp] theorem Data.highWater_fab (d : Data) (a n : Nat) : (d.highWater a n).fab = d.fab := rfl
@[simp] theorem Data.highWater_sal (d : Data) (a n : Nat) : (d.highWater a n).sal = d.sal := rfl
@[simp] theorem Data.highWater_mrg (d : Data) (a n : Nat) : (d.highWater a n).mrg = d.mrg := rfl
@[simp] theorem Data.highWater_bls (d : Data) (a n : Nat) : (d.highWater a n).bls = d.bls := rfl
@[simp] theorem Data.highWater_bbx (d : Data) (a n : Nat) : (d.highWater a n).bbx = d.bbx := rfl
@[simp] theorem Data.highWater_ras (d : Data) (a n : Nat) : (d.highWater a n).ras = d.ras := rfl
@[simp] theorem Data.highWater_links (d : Data) (a n : Nat) : (d.highWater a n).links = d.links := rfl
@[simp] theorem Data.highWater_engs (d : Data) (a n : Nat) : (d.highWater a n).engs = d.engs := rfl
@[simp] theorem Data.highWater_low (d : Data) (a n : Nat) : (d.highWater a n).low = d.low := rfl
@[simp] theorem Data.highWater_evts (d : Data) (a n : Nat) : (d.highWater a n).evts = d.evts := rfl
@[simp] theorem Data.highWater_sts (d : Data) (a n : Nat) : (d.highWater a n).sts = d.sts := rfl
@[simp] theorem Data.highWater_halfCap (d : Data) (a n : Nat) : (d.highWater a n).halfCap = d.halfCap := rfl
@[simp] theorem Data.highWater_out (d : Data) (a n : Nat) : (d.highWater a n).out = d.out := rfl
@[simp] theorem Data.highWater_free (d : Data) (a n : Nat) : (d.highWater a n).free = d.free := rfl
@[simp] theorem Data.highWater_tick (d : Data) (a n : Nat) : (d.highWater a n).tick = d.tick := rfl
@[simp] theorem Data.highWater_slices (d : Data) (a n : Nat) : (d.highWater a n).slices = d.slices := rfl

@[simp] theorem Data.emit_mem (d : Data) (o : Out) : (d.emit o).mem = d.mem := rfl
@[simp] theorem Data.emit_poison (d : Data) (o : Out) : (d.emit o).poison = d.poison := rfl
@[simp] theorem Data.emit_rawUe (d : Data) (o : Out) : (d.emit o).rawUe = d.rawUe := rfl
@[simp] theorem Data.emit_flaws (d : Data) (o : Out) : (d.emit o).flaws = d.flaws := rfl
@[simp] theorem Data.emit_fyl (d : Data) (o : Out) : (d.emit o).fyl = d.fyl := rfl
@[simp] theorem Data.emit_mbx (d : Data) (o : Out) : (d.emit o).mbx = d.mbx := rfl
@[simp] theorem Data.emit_bdl (d : Data) (o : Out) : (d.emit o).bdl = d.bdl := rfl
@[simp] theorem Data.emit_trf (d : Data) (o : Out) : (d.emit o).trf = d.trf := rfl
@[simp] theorem Data.emit_bsk (d : Data) (o : Out) : (d.emit o).bsk = d.bsk := rfl
@[simp] theorem Data.emit_kvw (d : Data) (o : Out) : (d.emit o).kvw = d.kvw := rfl
@[simp] theorem Data.emit_adp (d : Data) (o : Out) : (d.emit o).adp = d.adp := rfl
@[simp] theorem Data.emit_mat (d : Data) (o : Out) : (d.emit o).mat = d.mat := rfl
@[simp] theorem Data.emit_spl (d : Data) (o : Out) : (d.emit o).spl = d.spl := rfl
@[simp] theorem Data.emit_ttx (d : Data) (o : Out) : (d.emit o).ttx = d.ttx := rfl
@[simp] theorem Data.emit_fab (d : Data) (o : Out) : (d.emit o).fab = d.fab := rfl
@[simp] theorem Data.emit_sal (d : Data) (o : Out) : (d.emit o).sal = d.sal := rfl
@[simp] theorem Data.emit_mrg (d : Data) (o : Out) : (d.emit o).mrg = d.mrg := rfl
@[simp] theorem Data.emit_bls (d : Data) (o : Out) : (d.emit o).bls = d.bls := rfl
@[simp] theorem Data.emit_bbx (d : Data) (o : Out) : (d.emit o).bbx = d.bbx := rfl
@[simp] theorem Data.emit_ras (d : Data) (o : Out) : (d.emit o).ras = d.ras := rfl
@[simp] theorem Data.emit_links (d : Data) (o : Out) : (d.emit o).links = d.links := rfl
@[simp] theorem Data.emit_engs (d : Data) (o : Out) : (d.emit o).engs = d.engs := rfl
@[simp] theorem Data.emit_low (d : Data) (o : Out) : (d.emit o).low = d.low := rfl
@[simp] theorem Data.emit_evts (d : Data) (o : Out) : (d.emit o).evts = d.evts := rfl
@[simp] theorem Data.emit_sts (d : Data) (o : Out) : (d.emit o).sts = d.sts := rfl
@[simp] theorem Data.emit_cnt (d : Data) (o : Out) : (d.emit o).cnt = d.cnt := rfl
@[simp] theorem Data.emit_halfCap (d : Data) (o : Out) : (d.emit o).halfCap = d.halfCap := rfl
@[simp] theorem Data.emit_free (d : Data) (o : Out) : (d.emit o).free = d.free := rfl
@[simp] theorem Data.emit_tick (d : Data) (o : Out) : (d.emit o).tick = d.tick := rfl
@[simp] theorem Data.emit_slices (d : Data) (o : Out) : (d.emit o).slices = d.slices := rfl

@[simp] theorem Data.bumpFree_mem (d : Data) (a : Nat) : (d.bumpFree a).mem = d.mem := rfl
@[simp] theorem Data.bumpFree_poison (d : Data) (a : Nat) : (d.bumpFree a).poison = d.poison := rfl
@[simp] theorem Data.bumpFree_rawUe (d : Data) (a : Nat) : (d.bumpFree a).rawUe = d.rawUe := rfl
@[simp] theorem Data.bumpFree_flaws (d : Data) (a : Nat) : (d.bumpFree a).flaws = d.flaws := rfl
@[simp] theorem Data.bumpFree_fyl (d : Data) (a : Nat) : (d.bumpFree a).fyl = d.fyl := rfl
@[simp] theorem Data.bumpFree_mbx (d : Data) (a : Nat) : (d.bumpFree a).mbx = d.mbx := rfl
@[simp] theorem Data.bumpFree_bdl (d : Data) (a : Nat) : (d.bumpFree a).bdl = d.bdl := rfl
@[simp] theorem Data.bumpFree_trf (d : Data) (a : Nat) : (d.bumpFree a).trf = d.trf := rfl
@[simp] theorem Data.bumpFree_bsk (d : Data) (a : Nat) : (d.bumpFree a).bsk = d.bsk := rfl
@[simp] theorem Data.bumpFree_kvw (d : Data) (a : Nat) : (d.bumpFree a).kvw = d.kvw := rfl
@[simp] theorem Data.bumpFree_adp (d : Data) (a : Nat) : (d.bumpFree a).adp = d.adp := rfl
@[simp] theorem Data.bumpFree_mat (d : Data) (a : Nat) : (d.bumpFree a).mat = d.mat := rfl
@[simp] theorem Data.bumpFree_spl (d : Data) (a : Nat) : (d.bumpFree a).spl = d.spl := rfl
@[simp] theorem Data.bumpFree_ttx (d : Data) (a : Nat) : (d.bumpFree a).ttx = d.ttx := rfl
@[simp] theorem Data.bumpFree_fab (d : Data) (a : Nat) : (d.bumpFree a).fab = d.fab := rfl
@[simp] theorem Data.bumpFree_sal (d : Data) (a : Nat) : (d.bumpFree a).sal = d.sal := rfl
@[simp] theorem Data.bumpFree_mrg (d : Data) (a : Nat) : (d.bumpFree a).mrg = d.mrg := rfl
@[simp] theorem Data.bumpFree_bls (d : Data) (a : Nat) : (d.bumpFree a).bls = d.bls := rfl
@[simp] theorem Data.bumpFree_bbx (d : Data) (a : Nat) : (d.bumpFree a).bbx = d.bbx := rfl
@[simp] theorem Data.bumpFree_ras (d : Data) (a : Nat) : (d.bumpFree a).ras = d.ras := rfl
@[simp] theorem Data.bumpFree_links (d : Data) (a : Nat) : (d.bumpFree a).links = d.links := rfl
@[simp] theorem Data.bumpFree_engs (d : Data) (a : Nat) : (d.bumpFree a).engs = d.engs := rfl
@[simp] theorem Data.bumpFree_low (d : Data) (a : Nat) : (d.bumpFree a).low = d.low := rfl
@[simp] theorem Data.bumpFree_evts (d : Data) (a : Nat) : (d.bumpFree a).evts = d.evts := rfl
@[simp] theorem Data.bumpFree_sts (d : Data) (a : Nat) : (d.bumpFree a).sts = d.sts := rfl
@[simp] theorem Data.bumpFree_halfCap (d : Data) (a : Nat) : (d.bumpFree a).halfCap = d.halfCap := rfl
@[simp] theorem Data.bumpFree_out (d : Data) (a : Nat) : (d.bumpFree a).out = d.out := rfl
@[simp] theorem Data.bumpFree_tick (d : Data) (a : Nat) : (d.bumpFree a).tick = d.tick := rfl
@[simp] theorem Data.bumpFree_slices (d : Data) (a : Nat) : (d.bumpFree a).slices = d.slices := rfl

@[simp] theorem Data.touchRec_mem (d : Data) (b : Nat) (dirty : Bool) : (d.touchRec b dirty).mem = d.mem := rfl
@[simp] theorem Data.touchRec_poison (d : Data) (b : Nat) (dirty : Bool) : (d.touchRec b dirty).poison = d.poison := rfl
@[simp] theorem Data.touchRec_rawUe (d : Data) (b : Nat) (dirty : Bool) : (d.touchRec b dirty).rawUe = d.rawUe := rfl
@[simp] theorem Data.touchRec_flaws (d : Data) (b : Nat) (dirty : Bool) : (d.touchRec b dirty).flaws = d.flaws := rfl
@[simp] theorem Data.touchRec_fyl (d : Data) (b : Nat) (dirty : Bool) : (d.touchRec b dirty).fyl = d.fyl := rfl
@[simp] theorem Data.touchRec_mbx (d : Data) (b : Nat) (dirty : Bool) : (d.touchRec b dirty).mbx = d.mbx := rfl
@[simp] theorem Data.touchRec_bdl (d : Data) (b : Nat) (dirty : Bool) : (d.touchRec b dirty).bdl = d.bdl := rfl
@[simp] theorem Data.touchRec_trf (d : Data) (b : Nat) (dirty : Bool) : (d.touchRec b dirty).trf = d.trf := rfl
@[simp] theorem Data.touchRec_bsk (d : Data) (b : Nat) (dirty : Bool) : (d.touchRec b dirty).bsk = d.bsk := rfl
@[simp] theorem Data.touchRec_kvw (d : Data) (b : Nat) (dirty : Bool) : (d.touchRec b dirty).kvw = d.kvw := rfl
@[simp] theorem Data.touchRec_adp (d : Data) (b : Nat) (dirty : Bool) : (d.touchRec b dirty).adp = d.adp := rfl
@[simp] theorem Data.touchRec_mat (d : Data) (b : Nat) (dirty : Bool) : (d.touchRec b dirty).mat = d.mat := rfl
@[simp] theorem Data.touchRec_spl (d : Data) (b : Nat) (dirty : Bool) : (d.touchRec b dirty).spl = d.spl := rfl
@[simp] theorem Data.touchRec_ttx (d : Data) (b : Nat) (dirty : Bool) : (d.touchRec b dirty).ttx = d.ttx := rfl
@[simp] theorem Data.touchRec_fab (d : Data) (b : Nat) (dirty : Bool) : (d.touchRec b dirty).fab = d.fab := rfl
@[simp] theorem Data.touchRec_sal (d : Data) (b : Nat) (dirty : Bool) : (d.touchRec b dirty).sal = d.sal := rfl
@[simp] theorem Data.touchRec_mrg (d : Data) (b : Nat) (dirty : Bool) : (d.touchRec b dirty).mrg = d.mrg := rfl
@[simp] theorem Data.touchRec_bls (d : Data) (b : Nat) (dirty : Bool) : (d.touchRec b dirty).bls = d.bls := rfl
@[simp] theorem Data.touchRec_bbx (d : Data) (b : Nat) (dirty : Bool) : (d.touchRec b dirty).bbx = d.bbx := rfl
@[simp] theorem Data.touchRec_ras (d : Data) (b : Nat) (dirty : Bool) : (d.touchRec b dirty).ras = d.ras := rfl
@[simp] theorem Data.touchRec_links (d : Data) (b : Nat) (dirty : Bool) : (d.touchRec b dirty).links = d.links := rfl
@[simp] theorem Data.touchRec_engs (d : Data) (b : Nat) (dirty : Bool) : (d.touchRec b dirty).engs = d.engs := rfl
@[simp] theorem Data.touchRec_low (d : Data) (b : Nat) (dirty : Bool) : (d.touchRec b dirty).low = d.low := rfl
@[simp] theorem Data.touchRec_evts (d : Data) (b : Nat) (dirty : Bool) : (d.touchRec b dirty).evts = d.evts := rfl
@[simp] theorem Data.touchRec_sts (d : Data) (b : Nat) (dirty : Bool) : (d.touchRec b dirty).sts = d.sts := rfl
@[simp] theorem Data.touchRec_cnt (d : Data) (b : Nat) (dirty : Bool) : (d.touchRec b dirty).cnt = d.cnt := rfl
@[simp] theorem Data.touchRec_halfCap (d : Data) (b : Nat) (dirty : Bool) : (d.touchRec b dirty).halfCap = d.halfCap := rfl
@[simp] theorem Data.touchRec_out (d : Data) (b : Nat) (dirty : Bool) : (d.touchRec b dirty).out = d.out := rfl
@[simp] theorem Data.touchRec_free (d : Data) (b : Nat) (dirty : Bool) : (d.touchRec b dirty).free = d.free := rfl
@[simp] theorem Data.touchRec_tick (d : Data) (b : Nat) (dirty : Bool) : (d.touchRec b dirty).tick = d.tick := rfl

@[simp] theorem Data.setPoison_mem (d : Data) (p : List Nat) : (d.setPoison p).mem = d.mem := rfl
@[simp] theorem Data.setPoison_rawUe (d : Data) (p : List Nat) : (d.setPoison p).rawUe = d.rawUe := rfl
@[simp] theorem Data.setPoison_flaws (d : Data) (p : List Nat) : (d.setPoison p).flaws = d.flaws := rfl
@[simp] theorem Data.setPoison_fyl (d : Data) (p : List Nat) : (d.setPoison p).fyl = d.fyl := rfl
@[simp] theorem Data.setPoison_mbx (d : Data) (p : List Nat) : (d.setPoison p).mbx = d.mbx := rfl
@[simp] theorem Data.setPoison_bdl (d : Data) (p : List Nat) : (d.setPoison p).bdl = d.bdl := rfl
@[simp] theorem Data.setPoison_trf (d : Data) (p : List Nat) : (d.setPoison p).trf = d.trf := rfl
@[simp] theorem Data.setPoison_bsk (d : Data) (p : List Nat) : (d.setPoison p).bsk = d.bsk := rfl
@[simp] theorem Data.setPoison_kvw (d : Data) (p : List Nat) : (d.setPoison p).kvw = d.kvw := rfl
@[simp] theorem Data.setPoison_adp (d : Data) (p : List Nat) : (d.setPoison p).adp = d.adp := rfl
@[simp] theorem Data.setPoison_mat (d : Data) (p : List Nat) : (d.setPoison p).mat = d.mat := rfl
@[simp] theorem Data.setPoison_spl (d : Data) (p : List Nat) : (d.setPoison p).spl = d.spl := rfl
@[simp] theorem Data.setPoison_ttx (d : Data) (p : List Nat) : (d.setPoison p).ttx = d.ttx := rfl
@[simp] theorem Data.setPoison_fab (d : Data) (p : List Nat) : (d.setPoison p).fab = d.fab := rfl
@[simp] theorem Data.setPoison_sal (d : Data) (p : List Nat) : (d.setPoison p).sal = d.sal := rfl
@[simp] theorem Data.setPoison_mrg (d : Data) (p : List Nat) : (d.setPoison p).mrg = d.mrg := rfl
@[simp] theorem Data.setPoison_bls (d : Data) (p : List Nat) : (d.setPoison p).bls = d.bls := rfl
@[simp] theorem Data.setPoison_bbx (d : Data) (p : List Nat) : (d.setPoison p).bbx = d.bbx := rfl
@[simp] theorem Data.setPoison_ras (d : Data) (p : List Nat) : (d.setPoison p).ras = d.ras := rfl
@[simp] theorem Data.setPoison_links (d : Data) (p : List Nat) : (d.setPoison p).links = d.links := rfl
@[simp] theorem Data.setPoison_engs (d : Data) (p : List Nat) : (d.setPoison p).engs = d.engs := rfl
@[simp] theorem Data.setPoison_low (d : Data) (p : List Nat) : (d.setPoison p).low = d.low := rfl
@[simp] theorem Data.setPoison_evts (d : Data) (p : List Nat) : (d.setPoison p).evts = d.evts := rfl
@[simp] theorem Data.setPoison_sts (d : Data) (p : List Nat) : (d.setPoison p).sts = d.sts := rfl
@[simp] theorem Data.setPoison_halfCap (d : Data) (p : List Nat) : (d.setPoison p).halfCap = d.halfCap := rfl
@[simp] theorem Data.setPoison_out (d : Data) (p : List Nat) : (d.setPoison p).out = d.out := rfl
@[simp] theorem Data.setPoison_free (d : Data) (p : List Nat) : (d.setPoison p).free = d.free := rfl
@[simp] theorem Data.setPoison_tick (d : Data) (p : List Nat) : (d.setPoison p).tick = d.tick := rfl
@[simp] theorem Data.setPoison_slices (d : Data) (p : List Nat) : (d.setPoison p).slices = d.slices := rfl

@[simp] theorem Data.wrBytes_fyl (d : Data) (a : Nat) (l : List Byte) : (d.wrBytes a l).fyl = d.fyl := rfl
@[simp] theorem Data.wrBytes_mbx (d : Data) (a : Nat) (l : List Byte) : (d.wrBytes a l).mbx = d.mbx := rfl
@[simp] theorem Data.wrBytes_bdl (d : Data) (a : Nat) (l : List Byte) : (d.wrBytes a l).bdl = d.bdl := rfl
@[simp] theorem Data.wrBytes_trf (d : Data) (a : Nat) (l : List Byte) : (d.wrBytes a l).trf = d.trf := rfl
@[simp] theorem Data.wrBytes_bsk (d : Data) (a : Nat) (l : List Byte) : (d.wrBytes a l).bsk = d.bsk := rfl
@[simp] theorem Data.wrBytes_kvw (d : Data) (a : Nat) (l : List Byte) : (d.wrBytes a l).kvw = d.kvw := rfl
@[simp] theorem Data.wrBytes_adp (d : Data) (a : Nat) (l : List Byte) : (d.wrBytes a l).adp = d.adp := rfl
@[simp] theorem Data.wrBytes_mat (d : Data) (a : Nat) (l : List Byte) : (d.wrBytes a l).mat = d.mat := rfl
@[simp] theorem Data.wrBytes_spl (d : Data) (a : Nat) (l : List Byte) : (d.wrBytes a l).spl = d.spl := rfl
@[simp] theorem Data.wrBytes_ttx (d : Data) (a : Nat) (l : List Byte) : (d.wrBytes a l).ttx = d.ttx := rfl
@[simp] theorem Data.wrBytes_fab (d : Data) (a : Nat) (l : List Byte) : (d.wrBytes a l).fab = d.fab := rfl
@[simp] theorem Data.wrBytes_sal (d : Data) (a : Nat) (l : List Byte) : (d.wrBytes a l).sal = d.sal := rfl
@[simp] theorem Data.wrBytes_mrg (d : Data) (a : Nat) (l : List Byte) : (d.wrBytes a l).mrg = d.mrg := rfl
@[simp] theorem Data.wrBytes_bls (d : Data) (a : Nat) (l : List Byte) : (d.wrBytes a l).bls = d.bls := rfl
@[simp] theorem Data.wrBytes_bbx (d : Data) (a : Nat) (l : List Byte) : (d.wrBytes a l).bbx = d.bbx := rfl
@[simp] theorem Data.wrBytes_ras (d : Data) (a : Nat) (l : List Byte) : (d.wrBytes a l).ras = d.ras := rfl
@[simp] theorem Data.wrBytes_links (d : Data) (a : Nat) (l : List Byte) : (d.wrBytes a l).links = d.links := rfl
@[simp] theorem Data.wrBytes_engs (d : Data) (a : Nat) (l : List Byte) : (d.wrBytes a l).engs = d.engs := rfl
@[simp] theorem Data.wrBytes_low (d : Data) (a : Nat) (l : List Byte) : (d.wrBytes a l).low = d.low := rfl
@[simp] theorem Data.wrBytes_evts (d : Data) (a : Nat) (l : List Byte) : (d.wrBytes a l).evts = d.evts := rfl
@[simp] theorem Data.wrBytes_sts (d : Data) (a : Nat) (l : List Byte) : (d.wrBytes a l).sts = d.sts := rfl
@[simp] theorem Data.wrBytes_cnt (d : Data) (a : Nat) (l : List Byte) : (d.wrBytes a l).cnt = d.cnt := rfl
@[simp] theorem Data.wrBytes_halfCap (d : Data) (a : Nat) (l : List Byte) : (d.wrBytes a l).halfCap = d.halfCap := rfl
@[simp] theorem Data.wrBytes_out (d : Data) (a : Nat) (l : List Byte) : (d.wrBytes a l).out = d.out := rfl
@[simp] theorem Data.wrBytes_free (d : Data) (a : Nat) (l : List Byte) : (d.wrBytes a l).free = d.free := rfl
@[simp] theorem Data.wrBytes_tick (d : Data) (a : Nat) (l : List Byte) : (d.wrBytes a l).tick = d.tick := rfl
@[simp] theorem Data.wrBytes_slices (d : Data) (a : Nat) (l : List Byte) : (d.wrBytes a l).slices = d.slices := rfl

@[simp] theorem Data.wr_fyl (d : Data) (a n v : Nat) : (d.wr a n v).fyl = d.fyl := rfl
@[simp] theorem Data.wr_mbx (d : Data) (a n v : Nat) : (d.wr a n v).mbx = d.mbx := rfl
@[simp] theorem Data.wr_bdl (d : Data) (a n v : Nat) : (d.wr a n v).bdl = d.bdl := rfl
@[simp] theorem Data.wr_trf (d : Data) (a n v : Nat) : (d.wr a n v).trf = d.trf := rfl
@[simp] theorem Data.wr_bsk (d : Data) (a n v : Nat) : (d.wr a n v).bsk = d.bsk := rfl
@[simp] theorem Data.wr_kvw (d : Data) (a n v : Nat) : (d.wr a n v).kvw = d.kvw := rfl
@[simp] theorem Data.wr_adp (d : Data) (a n v : Nat) : (d.wr a n v).adp = d.adp := rfl
@[simp] theorem Data.wr_mat (d : Data) (a n v : Nat) : (d.wr a n v).mat = d.mat := rfl
@[simp] theorem Data.wr_spl (d : Data) (a n v : Nat) : (d.wr a n v).spl = d.spl := rfl
@[simp] theorem Data.wr_ttx (d : Data) (a n v : Nat) : (d.wr a n v).ttx = d.ttx := rfl
@[simp] theorem Data.wr_fab (d : Data) (a n v : Nat) : (d.wr a n v).fab = d.fab := rfl
@[simp] theorem Data.wr_sal (d : Data) (a n v : Nat) : (d.wr a n v).sal = d.sal := rfl
@[simp] theorem Data.wr_mrg (d : Data) (a n v : Nat) : (d.wr a n v).mrg = d.mrg := rfl
@[simp] theorem Data.wr_bls (d : Data) (a n v : Nat) : (d.wr a n v).bls = d.bls := rfl
@[simp] theorem Data.wr_bbx (d : Data) (a n v : Nat) : (d.wr a n v).bbx = d.bbx := rfl
@[simp] theorem Data.wr_ras (d : Data) (a n v : Nat) : (d.wr a n v).ras = d.ras := rfl
@[simp] theorem Data.wr_links (d : Data) (a n v : Nat) : (d.wr a n v).links = d.links := rfl
@[simp] theorem Data.wr_engs (d : Data) (a n v : Nat) : (d.wr a n v).engs = d.engs := rfl
@[simp] theorem Data.wr_low (d : Data) (a n v : Nat) : (d.wr a n v).low = d.low := rfl
@[simp] theorem Data.wr_evts (d : Data) (a n v : Nat) : (d.wr a n v).evts = d.evts := rfl
@[simp] theorem Data.wr_sts (d : Data) (a n v : Nat) : (d.wr a n v).sts = d.sts := rfl
@[simp] theorem Data.wr_cnt (d : Data) (a n v : Nat) : (d.wr a n v).cnt = d.cnt := rfl
@[simp] theorem Data.wr_halfCap (d : Data) (a n v : Nat) : (d.wr a n v).halfCap = d.halfCap := rfl
@[simp] theorem Data.wr_out (d : Data) (a n v : Nat) : (d.wr a n v).out = d.out := rfl
@[simp] theorem Data.wr_free (d : Data) (a n v : Nat) : (d.wr a n v).free = d.free := rfl
@[simp] theorem Data.wr_tick (d : Data) (a n v : Nat) : (d.wr a n v).tick = d.tick := rfl
@[simp] theorem Data.wr_slices (d : Data) (a n v : Nat) : (d.wr a n v).slices = d.slices := rfl

@[simp] theorem Data.clear_fyl (d : Data) (a n : Nat) : (d.clear a n).fyl = d.fyl := rfl
@[simp] theorem Data.clear_mbx (d : Data) (a n : Nat) : (d.clear a n).mbx = d.mbx := rfl
@[simp] theorem Data.clear_bdl (d : Data) (a n : Nat) : (d.clear a n).bdl = d.bdl := rfl
@[simp] theorem Data.clear_trf (d : Data) (a n : Nat) : (d.clear a n).trf = d.trf := rfl
@[simp] theorem Data.clear_bsk (d : Data) (a n : Nat) : (d.clear a n).bsk = d.bsk := rfl
@[simp] theorem Data.clear_kvw (d : Data) (a n : Nat) : (d.clear a n).kvw = d.kvw := rfl
@[simp] theorem Data.clear_adp (d : Data) (a n : Nat) : (d.clear a n).adp = d.adp := rfl
@[simp] theorem Data.clear_mat (d : Data) (a n : Nat) : (d.clear a n).mat = d.mat := rfl
@[simp] theorem Data.clear_spl (d : Data) (a n : Nat) : (d.clear a n).spl = d.spl := rfl
@[simp] theorem Data.clear_ttx (d : Data) (a n : Nat) : (d.clear a n).ttx = d.ttx := rfl
@[simp] theorem Data.clear_fab (d : Data) (a n : Nat) : (d.clear a n).fab = d.fab := rfl
@[simp] theorem Data.clear_sal (d : Data) (a n : Nat) : (d.clear a n).sal = d.sal := rfl
@[simp] theorem Data.clear_mrg (d : Data) (a n : Nat) : (d.clear a n).mrg = d.mrg := rfl
@[simp] theorem Data.clear_bls (d : Data) (a n : Nat) : (d.clear a n).bls = d.bls := rfl
@[simp] theorem Data.clear_bbx (d : Data) (a n : Nat) : (d.clear a n).bbx = d.bbx := rfl
@[simp] theorem Data.clear_ras (d : Data) (a n : Nat) : (d.clear a n).ras = d.ras := rfl
@[simp] theorem Data.clear_links (d : Data) (a n : Nat) : (d.clear a n).links = d.links := rfl
@[simp] theorem Data.clear_engs (d : Data) (a n : Nat) : (d.clear a n).engs = d.engs := rfl
@[simp] theorem Data.clear_low (d : Data) (a n : Nat) : (d.clear a n).low = d.low := rfl
@[simp] theorem Data.clear_evts (d : Data) (a n : Nat) : (d.clear a n).evts = d.evts := rfl
@[simp] theorem Data.clear_sts (d : Data) (a n : Nat) : (d.clear a n).sts = d.sts := rfl
@[simp] theorem Data.clear_cnt (d : Data) (a n : Nat) : (d.clear a n).cnt = d.cnt := rfl
@[simp] theorem Data.clear_halfCap (d : Data) (a n : Nat) : (d.clear a n).halfCap = d.halfCap := rfl
@[simp] theorem Data.clear_out (d : Data) (a n : Nat) : (d.clear a n).out = d.out := rfl
@[simp] theorem Data.clear_free (d : Data) (a n : Nat) : (d.clear a n).free = d.free := rfl
@[simp] theorem Data.clear_tick (d : Data) (a n : Nat) : (d.clear a n).tick = d.tick := rfl
@[simp] theorem Data.clear_slices (d : Data) (a n : Nat) : (d.clear a n).slices = d.slices := rfl

@[simp] theorem Data.setThr_mem (d : Data) (t : Nat) (th : Thread) : (d.setThr t th).mem = d.mem := rfl
@[simp] theorem Data.setThr_poison (d : Data) (t : Nat) (th : Thread) : (d.setThr t th).poison = d.poison := rfl
@[simp] theorem Data.setThr_rawUe (d : Data) (t : Nat) (th : Thread) : (d.setThr t th).rawUe = d.rawUe := rfl
@[simp] theorem Data.setThr_flaws (d : Data) (t : Nat) (th : Thread) : (d.setThr t th).flaws = d.flaws := rfl
@[simp] theorem Data.setThr_mbx (d : Data) (t : Nat) (th : Thread) : (d.setThr t th).mbx = d.mbx := rfl
@[simp] theorem Data.setThr_bdl (d : Data) (t : Nat) (th : Thread) : (d.setThr t th).bdl = d.bdl := rfl
@[simp] theorem Data.setThr_trf (d : Data) (t : Nat) (th : Thread) : (d.setThr t th).trf = d.trf := rfl
@[simp] theorem Data.setThr_bsk (d : Data) (t : Nat) (th : Thread) : (d.setThr t th).bsk = d.bsk := rfl
@[simp] theorem Data.setThr_kvw (d : Data) (t : Nat) (th : Thread) : (d.setThr t th).kvw = d.kvw := rfl
@[simp] theorem Data.setThr_adp (d : Data) (t : Nat) (th : Thread) : (d.setThr t th).adp = d.adp := rfl
@[simp] theorem Data.setThr_mat (d : Data) (t : Nat) (th : Thread) : (d.setThr t th).mat = d.mat := rfl
@[simp] theorem Data.setThr_spl (d : Data) (t : Nat) (th : Thread) : (d.setThr t th).spl = d.spl := rfl
@[simp] theorem Data.setThr_ttx (d : Data) (t : Nat) (th : Thread) : (d.setThr t th).ttx = d.ttx := rfl
@[simp] theorem Data.setThr_fab (d : Data) (t : Nat) (th : Thread) : (d.setThr t th).fab = d.fab := rfl
@[simp] theorem Data.setThr_sal (d : Data) (t : Nat) (th : Thread) : (d.setThr t th).sal = d.sal := rfl
@[simp] theorem Data.setThr_mrg (d : Data) (t : Nat) (th : Thread) : (d.setThr t th).mrg = d.mrg := rfl
@[simp] theorem Data.setThr_bls (d : Data) (t : Nat) (th : Thread) : (d.setThr t th).bls = d.bls := rfl
@[simp] theorem Data.setThr_bbx (d : Data) (t : Nat) (th : Thread) : (d.setThr t th).bbx = d.bbx := rfl
@[simp] theorem Data.setThr_ras (d : Data) (t : Nat) (th : Thread) : (d.setThr t th).ras = d.ras := rfl
@[simp] theorem Data.setThr_links (d : Data) (t : Nat) (th : Thread) : (d.setThr t th).links = d.links := rfl
@[simp] theorem Data.setThr_engs (d : Data) (t : Nat) (th : Thread) : (d.setThr t th).engs = d.engs := rfl
@[simp] theorem Data.setThr_low (d : Data) (t : Nat) (th : Thread) : (d.setThr t th).low = d.low := rfl
@[simp] theorem Data.setThr_evts (d : Data) (t : Nat) (th : Thread) : (d.setThr t th).evts = d.evts := rfl
@[simp] theorem Data.setThr_sts (d : Data) (t : Nat) (th : Thread) : (d.setThr t th).sts = d.sts := rfl
@[simp] theorem Data.setThr_cnt (d : Data) (t : Nat) (th : Thread) : (d.setThr t th).cnt = d.cnt := rfl
@[simp] theorem Data.setThr_halfCap (d : Data) (t : Nat) (th : Thread) : (d.setThr t th).halfCap = d.halfCap := rfl
@[simp] theorem Data.setThr_out (d : Data) (t : Nat) (th : Thread) : (d.setThr t th).out = d.out := rfl
@[simp] theorem Data.setThr_free (d : Data) (t : Nat) (th : Thread) : (d.setThr t th).free = d.free := rfl
@[simp] theorem Data.setThr_tick (d : Data) (t : Nat) (th : Thread) : (d.setThr t th).tick = d.tick := rfl
@[simp] theorem Data.setThr_slices (d : Data) (t : Nat) (th : Thread) : (d.setThr t th).slices = d.slices := rfl

@[simp] theorem Data.setRing_mem (d : Data) (r : Nat) (v : Ring) : (d.setRing r v).mem = d.mem := rfl
@[simp] theorem Data.setRing_poison (d : Data) (r : Nat) (v : Ring) : (d.setRing r v).poison = d.poison := rfl
@[simp] theorem Data.setRing_rawUe (d : Data) (r : Nat) (v : Ring) : (d.setRing r v).rawUe = d.rawUe := rfl
@[simp] theorem Data.setRing_flaws (d : Data) (r : Nat) (v : Ring) : (d.setRing r v).flaws = d.flaws := rfl
@[simp] theorem Data.setRing_mbx (d : Data) (r : Nat) (v : Ring) : (d.setRing r v).mbx = d.mbx := rfl
@[simp] theorem Data.setRing_bdl (d : Data) (r : Nat) (v : Ring) : (d.setRing r v).bdl = d.bdl := rfl
@[simp] theorem Data.setRing_trf (d : Data) (r : Nat) (v : Ring) : (d.setRing r v).trf = d.trf := rfl
@[simp] theorem Data.setRing_bsk (d : Data) (r : Nat) (v : Ring) : (d.setRing r v).bsk = d.bsk := rfl
@[simp] theorem Data.setRing_kvw (d : Data) (r : Nat) (v : Ring) : (d.setRing r v).kvw = d.kvw := rfl
@[simp] theorem Data.setRing_adp (d : Data) (r : Nat) (v : Ring) : (d.setRing r v).adp = d.adp := rfl
@[simp] theorem Data.setRing_mat (d : Data) (r : Nat) (v : Ring) : (d.setRing r v).mat = d.mat := rfl
@[simp] theorem Data.setRing_spl (d : Data) (r : Nat) (v : Ring) : (d.setRing r v).spl = d.spl := rfl
@[simp] theorem Data.setRing_ttx (d : Data) (r : Nat) (v : Ring) : (d.setRing r v).ttx = d.ttx := rfl
@[simp] theorem Data.setRing_fab (d : Data) (r : Nat) (v : Ring) : (d.setRing r v).fab = d.fab := rfl
@[simp] theorem Data.setRing_sal (d : Data) (r : Nat) (v : Ring) : (d.setRing r v).sal = d.sal := rfl
@[simp] theorem Data.setRing_mrg (d : Data) (r : Nat) (v : Ring) : (d.setRing r v).mrg = d.mrg := rfl
@[simp] theorem Data.setRing_bls (d : Data) (r : Nat) (v : Ring) : (d.setRing r v).bls = d.bls := rfl
@[simp] theorem Data.setRing_bbx (d : Data) (r : Nat) (v : Ring) : (d.setRing r v).bbx = d.bbx := rfl
@[simp] theorem Data.setRing_ras (d : Data) (r : Nat) (v : Ring) : (d.setRing r v).ras = d.ras := rfl
@[simp] theorem Data.setRing_links (d : Data) (r : Nat) (v : Ring) : (d.setRing r v).links = d.links := rfl
@[simp] theorem Data.setRing_engs (d : Data) (r : Nat) (v : Ring) : (d.setRing r v).engs = d.engs := rfl
@[simp] theorem Data.setRing_low (d : Data) (r : Nat) (v : Ring) : (d.setRing r v).low = d.low := rfl
@[simp] theorem Data.setRing_evts (d : Data) (r : Nat) (v : Ring) : (d.setRing r v).evts = d.evts := rfl
@[simp] theorem Data.setRing_sts (d : Data) (r : Nat) (v : Ring) : (d.setRing r v).sts = d.sts := rfl
@[simp] theorem Data.setRing_cnt (d : Data) (r : Nat) (v : Ring) : (d.setRing r v).cnt = d.cnt := rfl
@[simp] theorem Data.setRing_halfCap (d : Data) (r : Nat) (v : Ring) : (d.setRing r v).halfCap = d.halfCap := rfl
@[simp] theorem Data.setRing_out (d : Data) (r : Nat) (v : Ring) : (d.setRing r v).out = d.out := rfl
@[simp] theorem Data.setRing_free (d : Data) (r : Nat) (v : Ring) : (d.setRing r v).free = d.free := rfl
@[simp] theorem Data.setRing_tick (d : Data) (r : Nat) (v : Ring) : (d.setRing r v).tick = d.tick := rfl
@[simp] theorem Data.setRing_slices (d : Data) (r : Nat) (v : Ring) : (d.setRing r v).slices = d.slices := rfl

@[simp] theorem Data.setChan_mem (d : Data) (c : Nat) (v : Chan) : (d.setChan c v).mem = d.mem := rfl
@[simp] theorem Data.setChan_poison (d : Data) (c : Nat) (v : Chan) : (d.setChan c v).poison = d.poison := rfl
@[simp] theorem Data.setChan_rawUe (d : Data) (c : Nat) (v : Chan) : (d.setChan c v).rawUe = d.rawUe := rfl
@[simp] theorem Data.setChan_flaws (d : Data) (c : Nat) (v : Chan) : (d.setChan c v).flaws = d.flaws := rfl
@[simp] theorem Data.setChan_fyl (d : Data) (c : Nat) (v : Chan) : (d.setChan c v).fyl = d.fyl := rfl
@[simp] theorem Data.setChan_bdl (d : Data) (c : Nat) (v : Chan) : (d.setChan c v).bdl = d.bdl := rfl
@[simp] theorem Data.setChan_trf (d : Data) (c : Nat) (v : Chan) : (d.setChan c v).trf = d.trf := rfl
@[simp] theorem Data.setChan_bsk (d : Data) (c : Nat) (v : Chan) : (d.setChan c v).bsk = d.bsk := rfl
@[simp] theorem Data.setChan_kvw (d : Data) (c : Nat) (v : Chan) : (d.setChan c v).kvw = d.kvw := rfl
@[simp] theorem Data.setChan_adp (d : Data) (c : Nat) (v : Chan) : (d.setChan c v).adp = d.adp := rfl
@[simp] theorem Data.setChan_mat (d : Data) (c : Nat) (v : Chan) : (d.setChan c v).mat = d.mat := rfl
@[simp] theorem Data.setChan_spl (d : Data) (c : Nat) (v : Chan) : (d.setChan c v).spl = d.spl := rfl
@[simp] theorem Data.setChan_ttx (d : Data) (c : Nat) (v : Chan) : (d.setChan c v).ttx = d.ttx := rfl
@[simp] theorem Data.setChan_fab (d : Data) (c : Nat) (v : Chan) : (d.setChan c v).fab = d.fab := rfl
@[simp] theorem Data.setChan_sal (d : Data) (c : Nat) (v : Chan) : (d.setChan c v).sal = d.sal := rfl
@[simp] theorem Data.setChan_mrg (d : Data) (c : Nat) (v : Chan) : (d.setChan c v).mrg = d.mrg := rfl
@[simp] theorem Data.setChan_bls (d : Data) (c : Nat) (v : Chan) : (d.setChan c v).bls = d.bls := rfl
@[simp] theorem Data.setChan_bbx (d : Data) (c : Nat) (v : Chan) : (d.setChan c v).bbx = d.bbx := rfl
@[simp] theorem Data.setChan_ras (d : Data) (c : Nat) (v : Chan) : (d.setChan c v).ras = d.ras := rfl
@[simp] theorem Data.setChan_links (d : Data) (c : Nat) (v : Chan) : (d.setChan c v).links = d.links := rfl
@[simp] theorem Data.setChan_engs (d : Data) (c : Nat) (v : Chan) : (d.setChan c v).engs = d.engs := rfl
@[simp] theorem Data.setChan_low (d : Data) (c : Nat) (v : Chan) : (d.setChan c v).low = d.low := rfl
@[simp] theorem Data.setChan_evts (d : Data) (c : Nat) (v : Chan) : (d.setChan c v).evts = d.evts := rfl
@[simp] theorem Data.setChan_sts (d : Data) (c : Nat) (v : Chan) : (d.setChan c v).sts = d.sts := rfl
@[simp] theorem Data.setChan_cnt (d : Data) (c : Nat) (v : Chan) : (d.setChan c v).cnt = d.cnt := rfl
@[simp] theorem Data.setChan_halfCap (d : Data) (c : Nat) (v : Chan) : (d.setChan c v).halfCap = d.halfCap := rfl
@[simp] theorem Data.setChan_out (d : Data) (c : Nat) (v : Chan) : (d.setChan c v).out = d.out := rfl
@[simp] theorem Data.setChan_free (d : Data) (c : Nat) (v : Chan) : (d.setChan c v).free = d.free := rfl
@[simp] theorem Data.setChan_tick (d : Data) (c : Nat) (v : Chan) : (d.setChan c v).tick = d.tick := rfl
@[simp] theorem Data.setChan_slices (d : Data) (c : Nat) (v : Chan) : (d.setChan c v).slices = d.slices := rfl

@[simp] theorem Data.setHalf_mem (d : Data) (h : Nat) (v : Half) : (d.setHalf h v).mem = d.mem := rfl
@[simp] theorem Data.setHalf_poison (d : Data) (h : Nat) (v : Half) : (d.setHalf h v).poison = d.poison := rfl
@[simp] theorem Data.setHalf_rawUe (d : Data) (h : Nat) (v : Half) : (d.setHalf h v).rawUe = d.rawUe := rfl
@[simp] theorem Data.setHalf_flaws (d : Data) (h : Nat) (v : Half) : (d.setHalf h v).flaws = d.flaws := rfl
@[simp] theorem Data.setHalf_fyl (d : Data) (h : Nat) (v : Half) : (d.setHalf h v).fyl = d.fyl := rfl
@[simp] theorem Data.setHalf_mbx (d : Data) (h : Nat) (v : Half) : (d.setHalf h v).mbx = d.mbx := rfl
@[simp] theorem Data.setHalf_trf (d : Data) (h : Nat) (v : Half) : (d.setHalf h v).trf = d.trf := rfl
@[simp] theorem Data.setHalf_bsk (d : Data) (h : Nat) (v : Half) : (d.setHalf h v).bsk = d.bsk := rfl
@[simp] theorem Data.setHalf_kvw (d : Data) (h : Nat) (v : Half) : (d.setHalf h v).kvw = d.kvw := rfl
@[simp] theorem Data.setHalf_adp (d : Data) (h : Nat) (v : Half) : (d.setHalf h v).adp = d.adp := rfl
@[simp] theorem Data.setHalf_mat (d : Data) (h : Nat) (v : Half) : (d.setHalf h v).mat = d.mat := rfl
@[simp] theorem Data.setHalf_spl (d : Data) (h : Nat) (v : Half) : (d.setHalf h v).spl = d.spl := rfl
@[simp] theorem Data.setHalf_ttx (d : Data) (h : Nat) (v : Half) : (d.setHalf h v).ttx = d.ttx := rfl
@[simp] theorem Data.setHalf_fab (d : Data) (h : Nat) (v : Half) : (d.setHalf h v).fab = d.fab := rfl
@[simp] theorem Data.setHalf_sal (d : Data) (h : Nat) (v : Half) : (d.setHalf h v).sal = d.sal := rfl
@[simp] theorem Data.setHalf_mrg (d : Data) (h : Nat) (v : Half) : (d.setHalf h v).mrg = d.mrg := rfl
@[simp] theorem Data.setHalf_bls (d : Data) (h : Nat) (v : Half) : (d.setHalf h v).bls = d.bls := rfl
@[simp] theorem Data.setHalf_bbx (d : Data) (h : Nat) (v : Half) : (d.setHalf h v).bbx = d.bbx := rfl
@[simp] theorem Data.setHalf_ras (d : Data) (h : Nat) (v : Half) : (d.setHalf h v).ras = d.ras := rfl
@[simp] theorem Data.setHalf_links (d : Data) (h : Nat) (v : Half) : (d.setHalf h v).links = d.links := rfl
@[simp] theorem Data.setHalf_engs (d : Data) (h : Nat) (v : Half) : (d.setHalf h v).engs = d.engs := rfl
@[simp] theorem Data.setHalf_low (d : Data) (h : Nat) (v : Half) : (d.setHalf h v).low = d.low := rfl
@[simp] theorem Data.setHalf_evts (d : Data) (h : Nat) (v : Half) : (d.setHalf h v).evts = d.evts := rfl
@[simp] theorem Data.setHalf_sts (d : Data) (h : Nat) (v : Half) : (d.setHalf h v).sts = d.sts := rfl
@[simp] theorem Data.setHalf_cnt (d : Data) (h : Nat) (v : Half) : (d.setHalf h v).cnt = d.cnt := rfl
@[simp] theorem Data.setHalf_halfCap (d : Data) (h : Nat) (v : Half) : (d.setHalf h v).halfCap = d.halfCap := rfl
@[simp] theorem Data.setHalf_out (d : Data) (h : Nat) (v : Half) : (d.setHalf h v).out = d.out := rfl
@[simp] theorem Data.setHalf_free (d : Data) (h : Nat) (v : Half) : (d.setHalf h v).free = d.free := rfl
@[simp] theorem Data.setHalf_tick (d : Data) (h : Nat) (v : Half) : (d.setHalf h v).tick = d.tick := rfl
@[simp] theorem Data.setHalf_slices (d : Data) (h : Nat) (v : Half) : (d.setHalf h v).slices = d.slices := rfl

@[simp] theorem Data.setFlag_mem (d : Data) (c : Nat) (v : Word) : (d.setFlag c v).mem = d.mem := rfl
@[simp] theorem Data.setFlag_poison (d : Data) (c : Nat) (v : Word) : (d.setFlag c v).poison = d.poison := rfl
@[simp] theorem Data.setFlag_rawUe (d : Data) (c : Nat) (v : Word) : (d.setFlag c v).rawUe = d.rawUe := rfl
@[simp] theorem Data.setFlag_flaws (d : Data) (c : Nat) (v : Word) : (d.setFlag c v).flaws = d.flaws := rfl
@[simp] theorem Data.setFlag_bdl (d : Data) (c : Nat) (v : Word) : (d.setFlag c v).bdl = d.bdl := rfl
@[simp] theorem Data.setFlag_trf (d : Data) (c : Nat) (v : Word) : (d.setFlag c v).trf = d.trf := rfl
@[simp] theorem Data.setFlag_bsk (d : Data) (c : Nat) (v : Word) : (d.setFlag c v).bsk = d.bsk := rfl
@[simp] theorem Data.setFlag_kvw (d : Data) (c : Nat) (v : Word) : (d.setFlag c v).kvw = d.kvw := rfl
@[simp] theorem Data.setFlag_adp (d : Data) (c : Nat) (v : Word) : (d.setFlag c v).adp = d.adp := rfl
@[simp] theorem Data.setFlag_mat (d : Data) (c : Nat) (v : Word) : (d.setFlag c v).mat = d.mat := rfl
@[simp] theorem Data.setFlag_spl (d : Data) (c : Nat) (v : Word) : (d.setFlag c v).spl = d.spl := rfl
@[simp] theorem Data.setFlag_ttx (d : Data) (c : Nat) (v : Word) : (d.setFlag c v).ttx = d.ttx := rfl
@[simp] theorem Data.setFlag_fab (d : Data) (c : Nat) (v : Word) : (d.setFlag c v).fab = d.fab := rfl
@[simp] theorem Data.setFlag_sal (d : Data) (c : Nat) (v : Word) : (d.setFlag c v).sal = d.sal := rfl
@[simp] theorem Data.setFlag_mrg (d : Data) (c : Nat) (v : Word) : (d.setFlag c v).mrg = d.mrg := rfl
@[simp] theorem Data.setFlag_bls (d : Data) (c : Nat) (v : Word) : (d.setFlag c v).bls = d.bls := rfl
@[simp] theorem Data.setFlag_bbx (d : Data) (c : Nat) (v : Word) : (d.setFlag c v).bbx = d.bbx := rfl
@[simp] theorem Data.setFlag_ras (d : Data) (c : Nat) (v : Word) : (d.setFlag c v).ras = d.ras := rfl
@[simp] theorem Data.setFlag_links (d : Data) (c : Nat) (v : Word) : (d.setFlag c v).links = d.links := rfl
@[simp] theorem Data.setFlag_engs (d : Data) (c : Nat) (v : Word) : (d.setFlag c v).engs = d.engs := rfl
@[simp] theorem Data.setFlag_low (d : Data) (c : Nat) (v : Word) : (d.setFlag c v).low = d.low := rfl
@[simp] theorem Data.setFlag_evts (d : Data) (c : Nat) (v : Word) : (d.setFlag c v).evts = d.evts := rfl
@[simp] theorem Data.setFlag_sts (d : Data) (c : Nat) (v : Word) : (d.setFlag c v).sts = d.sts := rfl
@[simp] theorem Data.setFlag_cnt (d : Data) (c : Nat) (v : Word) : (d.setFlag c v).cnt = d.cnt := rfl
@[simp] theorem Data.setFlag_halfCap (d : Data) (c : Nat) (v : Word) : (d.setFlag c v).halfCap = d.halfCap := rfl
@[simp] theorem Data.setFlag_out (d : Data) (c : Nat) (v : Word) : (d.setFlag c v).out = d.out := rfl
@[simp] theorem Data.setFlag_free (d : Data) (c : Nat) (v : Word) : (d.setFlag c v).free = d.free := rfl
@[simp] theorem Data.setFlag_tick (d : Data) (c : Nat) (v : Word) : (d.setFlag c v).tick = d.tick := rfl
@[simp] theorem Data.setFlag_slices (d : Data) (c : Nat) (v : Word) : (d.setFlag c v).slices = d.slices := rfl

@[simp] theorem Data.setBasket_mem (d : Data) (b : Nat) (x : Basket) : (d.setBasket b x).mem = d.mem := rfl
@[simp] theorem Data.setBasket_poison (d : Data) (b : Nat) (x : Basket) : (d.setBasket b x).poison = d.poison := rfl
@[simp] theorem Data.setBasket_rawUe (d : Data) (b : Nat) (x : Basket) : (d.setBasket b x).rawUe = d.rawUe := rfl
@[simp] theorem Data.setBasket_flaws (d : Data) (b : Nat) (x : Basket) : (d.setBasket b x).flaws = d.flaws := rfl
@[simp] theorem Data.setBasket_fyl (d : Data) (b : Nat) (x : Basket) : (d.setBasket b x).fyl = d.fyl := rfl
@[simp] theorem Data.setBasket_mbx (d : Data) (b : Nat) (x : Basket) : (d.setBasket b x).mbx = d.mbx := rfl
@[simp] theorem Data.setBasket_bdl (d : Data) (b : Nat) (x : Basket) : (d.setBasket b x).bdl = d.bdl := rfl
@[simp] theorem Data.setBasket_trf (d : Data) (b : Nat) (x : Basket) : (d.setBasket b x).trf = d.trf := rfl
@[simp] theorem Data.setBasket_kvw (d : Data) (b : Nat) (x : Basket) : (d.setBasket b x).kvw = d.kvw := rfl
@[simp] theorem Data.setBasket_adp (d : Data) (b : Nat) (x : Basket) : (d.setBasket b x).adp = d.adp := rfl
@[simp] theorem Data.setBasket_mat (d : Data) (b : Nat) (x : Basket) : (d.setBasket b x).mat = d.mat := rfl
@[simp] theorem Data.setBasket_spl (d : Data) (b : Nat) (x : Basket) : (d.setBasket b x).spl = d.spl := rfl
@[simp] theorem Data.setBasket_ttx (d : Data) (b : Nat) (x : Basket) : (d.setBasket b x).ttx = d.ttx := rfl
@[simp] theorem Data.setBasket_fab (d : Data) (b : Nat) (x : Basket) : (d.setBasket b x).fab = d.fab := rfl
@[simp] theorem Data.setBasket_sal (d : Data) (b : Nat) (x : Basket) : (d.setBasket b x).sal = d.sal := rfl
@[simp] theorem Data.setBasket_mrg (d : Data) (b : Nat) (x : Basket) : (d.setBasket b x).mrg = d.mrg := rfl
@[simp] theorem Data.setBasket_bls (d : Data) (b : Nat) (x : Basket) : (d.setBasket b x).bls = d.bls := rfl
@[simp] theorem Data.setBasket_bbx (d : Data) (b : Nat) (x : Basket) : (d.setBasket b x).bbx = d.bbx := rfl
@[simp] theorem Data.setBasket_ras (d : Data) (b : Nat) (x : Basket) : (d.setBasket b x).ras = d.ras := rfl
@[simp] theorem Data.setBasket_links (d : Data) (b : Nat) (x : Basket) : (d.setBasket b x).links = d.links := rfl
@[simp] theorem Data.setBasket_engs (d : Data) (b : Nat) (x : Basket) : (d.setBasket b x).engs = d.engs := rfl
@[simp] theorem Data.setBasket_low (d : Data) (b : Nat) (x : Basket) : (d.setBasket b x).low = d.low := rfl
@[simp] theorem Data.setBasket_evts (d : Data) (b : Nat) (x : Basket) : (d.setBasket b x).evts = d.evts := rfl
@[simp] theorem Data.setBasket_sts (d : Data) (b : Nat) (x : Basket) : (d.setBasket b x).sts = d.sts := rfl
@[simp] theorem Data.setBasket_cnt (d : Data) (b : Nat) (x : Basket) : (d.setBasket b x).cnt = d.cnt := rfl
@[simp] theorem Data.setBasket_halfCap (d : Data) (b : Nat) (x : Basket) : (d.setBasket b x).halfCap = d.halfCap := rfl
@[simp] theorem Data.setBasket_out (d : Data) (b : Nat) (x : Basket) : (d.setBasket b x).out = d.out := rfl
@[simp] theorem Data.setBasket_free (d : Data) (b : Nat) (x : Basket) : (d.setBasket b x).free = d.free := rfl
@[simp] theorem Data.setBasket_tick (d : Data) (b : Nat) (x : Basket) : (d.setBasket b x).tick = d.tick := rfl

@[simp] theorem Data.setCtx_mem (d : Data) (b : Nat) (c : PushCtx) : (d.setCtx b c).mem = d.mem := rfl
@[simp] theorem Data.setCtx_poison (d : Data) (b : Nat) (c : PushCtx) : (d.setCtx b c).poison = d.poison := rfl
@[simp] theorem Data.setCtx_rawUe (d : Data) (b : Nat) (c : PushCtx) : (d.setCtx b c).rawUe = d.rawUe := rfl
@[simp] theorem Data.setCtx_flaws (d : Data) (b : Nat) (c : PushCtx) : (d.setCtx b c).flaws = d.flaws := rfl
@[simp] theorem Data.setCtx_fyl (d : Data) (b : Nat) (c : PushCtx) : (d.setCtx b c).fyl = d.fyl := rfl
@[simp] theorem Data.setCtx_mbx (d : Data) (b : Nat) (c : PushCtx) : (d.setCtx b c).mbx = d.mbx := rfl
@[simp] theorem Data.setCtx_bdl (d : Data) (b : Nat) (c : PushCtx) : (d.setCtx b c).bdl = d.bdl := rfl
@[simp] theorem Data.setCtx_trf (d : Data) (b : Nat) (c : PushCtx) : (d.setCtx b c).trf = d.trf := rfl
@[simp] theorem Data.setCtx_bsk (d : Data) (b : Nat) (c : PushCtx) : (d.setCtx b c).bsk = d.bsk := rfl
@[simp] theorem Data.setCtx_kvw (d : Data) (b : Nat) (c : PushCtx) : (d.setCtx b c).kvw = d.kvw := rfl
@[simp] theorem Data.setCtx_adp (d : Data) (b : Nat) (c : PushCtx) : (d.setCtx b c).adp = d.adp := rfl
@[simp] theorem Data.setCtx_mat (d : Data) (b : Nat) (c : PushCtx) : (d.setCtx b c).mat = d.mat := rfl
@[simp] theorem Data.setCtx_ttx (d : Data) (b : Nat) (c : PushCtx) : (d.setCtx b c).ttx = d.ttx := rfl
@[simp] theorem Data.setCtx_fab (d : Data) (b : Nat) (c : PushCtx) : (d.setCtx b c).fab = d.fab := rfl
@[simp] theorem Data.setCtx_sal (d : Data) (b : Nat) (c : PushCtx) : (d.setCtx b c).sal = d.sal := rfl
@[simp] theorem Data.setCtx_mrg (d : Data) (b : Nat) (c : PushCtx) : (d.setCtx b c).mrg = d.mrg := rfl
@[simp] theorem Data.setCtx_bls (d : Data) (b : Nat) (c : PushCtx) : (d.setCtx b c).bls = d.bls := rfl
@[simp] theorem Data.setCtx_bbx (d : Data) (b : Nat) (c : PushCtx) : (d.setCtx b c).bbx = d.bbx := rfl
@[simp] theorem Data.setCtx_ras (d : Data) (b : Nat) (c : PushCtx) : (d.setCtx b c).ras = d.ras := rfl
@[simp] theorem Data.setCtx_links (d : Data) (b : Nat) (c : PushCtx) : (d.setCtx b c).links = d.links := rfl
@[simp] theorem Data.setCtx_engs (d : Data) (b : Nat) (c : PushCtx) : (d.setCtx b c).engs = d.engs := rfl
@[simp] theorem Data.setCtx_low (d : Data) (b : Nat) (c : PushCtx) : (d.setCtx b c).low = d.low := rfl
@[simp] theorem Data.setCtx_evts (d : Data) (b : Nat) (c : PushCtx) : (d.setCtx b c).evts = d.evts := rfl
@[simp] theorem Data.setCtx_sts (d : Data) (b : Nat) (c : PushCtx) : (d.setCtx b c).sts = d.sts := rfl
@[simp] theorem Data.setCtx_cnt (d : Data) (b : Nat) (c : PushCtx) : (d.setCtx b c).cnt = d.cnt := rfl
@[simp] theorem Data.setCtx_halfCap (d : Data) (b : Nat) (c : PushCtx) : (d.setCtx b c).halfCap = d.halfCap := rfl
@[simp] theorem Data.setCtx_out (d : Data) (b : Nat) (c : PushCtx) : (d.setCtx b c).out = d.out := rfl
@[simp] theorem Data.setCtx_free (d : Data) (b : Nat) (c : PushCtx) : (d.setCtx b c).free = d.free := rfl
@[simp] theorem Data.setCtx_tick (d : Data) (b : Nat) (c : PushCtx) : (d.setCtx b c).tick = d.tick := rfl
@[simp] theorem Data.setCtx_slices (d : Data) (b : Nat) (c : PushCtx) : (d.setCtx b c).slices = d.slices := rfl

@[simp] theorem Data.setLink_mem (d : Data) (p l : Nat) (x : Link) : (d.setLink p l x).mem = d.mem := rfl
@[simp] theorem Data.setLink_poison (d : Data) (p l : Nat) (x : Link) : (d.setLink p l x).poison = d.poison := rfl
@[simp] theorem Data.setLink_rawUe (d : Data) (p l : Nat) (x : Link) : (d.setLink p l x).rawUe = d.rawUe := rfl
@[simp] theorem Data.setLink_flaws (d : Data) (p l : Nat) (x : Link) : (d.setLink p l x).flaws = d.flaws := rfl
@[simp] theorem Data.setLink_fyl (d : Data) (p l : Nat) (x : Link) : (d.setLink p l x).fyl = d.fyl := rfl
@[simp] theorem Data.setLink_mbx (d : Data) (p l : Nat) (x : Link) : (d.setLink p l x).mbx = d.mbx := rfl
@[simp] theorem Data.setLink_bdl (d : Data) (p l : Nat) (x : Link) : (d.setLink p l x).bdl = d.bdl := rfl
@[simp] theorem Data.setLink_trf (d : Data) (p l : Nat) (x : Link) : (d.setLink p l x).trf = d.trf := rfl
@[simp] theorem Data.setLink_bsk (d : Data) (p l : Nat) (x : Link) : (d.setLink p l x).bsk = d.bsk := rfl
@[simp] theorem Data.setLink_kvw (d : Data) (p l : Nat) (x : Link) : (d.setLink p l x).kvw = d.kvw := rfl
@[simp] theorem Data.setLink_adp (d : Data) (p l : Nat) (x : Link) : (d.setLink p l x).adp = d.adp := rfl
@[simp] theorem Data.setLink_mat (d : Data) (p l : Nat) (x : Link) : (d.setLink p l x).mat = d.mat := rfl
@[simp] theorem Data.setLink_spl (d : Data) (p l : Nat) (x : Link) : (d.setLink p l x).spl = d.spl := rfl
@[simp] theorem Data.setLink_ttx (d : Data) (p l : Nat) (x : Link) : (d.setLink p l x).ttx = d.ttx := rfl
@[simp] theorem Data.setLink_fab (d : Data) (p l : Nat) (x : Link) : (d.setLink p l x).fab = d.fab := rfl
@[simp] theorem Data.setLink_sal (d : Data) (p l : Nat) (x : Link) : (d.setLink p l x).sal = d.sal := rfl
@[simp] theorem Data.setLink_mrg (d : Data) (p l : Nat) (x : Link) : (d.setLink p l x).mrg = d.mrg := rfl
@[simp] theorem Data.setLink_bls (d : Data) (p l : Nat) (x : Link) : (d.setLink p l x).bls = d.bls := rfl
@[simp] theorem Data.setLink_bbx (d : Data) (p l : Nat) (x : Link) : (d.setLink p l x).bbx = d.bbx := rfl
@[simp] theorem Data.setLink_ras (d : Data) (p l : Nat) (x : Link) : (d.setLink p l x).ras = d.ras := rfl
@[simp] theorem Data.setLink_engs (d : Data) (p l : Nat) (x : Link) : (d.setLink p l x).engs = d.engs := rfl
@[simp] theorem Data.setLink_low (d : Data) (p l : Nat) (x : Link) : (d.setLink p l x).low = d.low := rfl
@[simp] theorem Data.setLink_evts (d : Data) (p l : Nat) (x : Link) : (d.setLink p l x).evts = d.evts := rfl
@[simp] theorem Data.setLink_sts (d : Data) (p l : Nat) (x : Link) : (d.setLink p l x).sts = d.sts := rfl
@[simp] theorem Data.setLink_cnt (d : Data) (p l : Nat) (x : Link) : (d.setLink p l x).cnt = d.cnt := rfl
@[simp] theorem Data.setLink_halfCap (d : Data) (p l : Nat) (x : Link) : (d.setLink p l x).halfCap = d.halfCap := rfl
@[simp] theorem Data.setLink_out (d : Data) (p l : Nat) (x : Link) : (d.setLink p l x).out = d.out := rfl
@[simp] theorem Data.setLink_free (d : Data) (p l : Nat) (x : Link) : (d.setLink p l x).free = d.free := rfl
@[simp] theorem Data.setLink_tick (d : Data) (p l : Nat) (x : Link) : (d.setLink p l x).tick = d.tick := rfl
@[simp] theorem Data.setLink_slices (d : Data) (p l : Nat) (x : Link) : (d.setLink p l x).slices = d.slices := rfl

@[simp] theorem Data.setQp_mem (d : Data) (q : Nat) (x : Qp) : (d.setQp q x).mem = d.mem := rfl
@[simp] theorem Data.setQp_poison (d : Data) (q : Nat) (x : Qp) : (d.setQp q x).poison = d.poison := rfl
@[simp] theorem Data.setQp_rawUe (d : Data) (q : Nat) (x : Qp) : (d.setQp q x).rawUe = d.rawUe := rfl
@[simp] theorem Data.setQp_flaws (d : Data) (q : Nat) (x : Qp) : (d.setQp q x).flaws = d.flaws := rfl
@[simp] theorem Data.setQp_fyl (d : Data) (q : Nat) (x : Qp) : (d.setQp q x).fyl = d.fyl := rfl
@[simp] theorem Data.setQp_mbx (d : Data) (q : Nat) (x : Qp) : (d.setQp q x).mbx = d.mbx := rfl
@[simp] theorem Data.setQp_bdl (d : Data) (q : Nat) (x : Qp) : (d.setQp q x).bdl = d.bdl := rfl
@[simp] theorem Data.setQp_trf (d : Data) (q : Nat) (x : Qp) : (d.setQp q x).trf = d.trf := rfl
@[simp] theorem Data.setQp_bsk (d : Data) (q : Nat) (x : Qp) : (d.setQp q x).bsk = d.bsk := rfl
@[simp] theorem Data.setQp_kvw (d : Data) (q : Nat) (x : Qp) : (d.setQp q x).kvw = d.kvw := rfl
@[simp] theorem Data.setQp_adp (d : Data) (q : Nat) (x : Qp) : (d.setQp q x).adp = d.adp := rfl
@[simp] theorem Data.setQp_mat (d : Data) (q : Nat) (x : Qp) : (d.setQp q x).mat = d.mat := rfl
@[simp] theorem Data.setQp_spl (d : Data) (q : Nat) (x : Qp) : (d.setQp q x).spl = d.spl := rfl
@[simp] theorem Data.setQp_fab (d : Data) (q : Nat) (x : Qp) : (d.setQp q x).fab = d.fab := rfl
@[simp] theorem Data.setQp_sal (d : Data) (q : Nat) (x : Qp) : (d.setQp q x).sal = d.sal := rfl
@[simp] theorem Data.setQp_mrg (d : Data) (q : Nat) (x : Qp) : (d.setQp q x).mrg = d.mrg := rfl
@[simp] theorem Data.setQp_bls (d : Data) (q : Nat) (x : Qp) : (d.setQp q x).bls = d.bls := rfl
@[simp] theorem Data.setQp_bbx (d : Data) (q : Nat) (x : Qp) : (d.setQp q x).bbx = d.bbx := rfl
@[simp] theorem Data.setQp_ras (d : Data) (q : Nat) (x : Qp) : (d.setQp q x).ras = d.ras := rfl
@[simp] theorem Data.setQp_links (d : Data) (q : Nat) (x : Qp) : (d.setQp q x).links = d.links := rfl
@[simp] theorem Data.setQp_engs (d : Data) (q : Nat) (x : Qp) : (d.setQp q x).engs = d.engs := rfl
@[simp] theorem Data.setQp_low (d : Data) (q : Nat) (x : Qp) : (d.setQp q x).low = d.low := rfl
@[simp] theorem Data.setQp_evts (d : Data) (q : Nat) (x : Qp) : (d.setQp q x).evts = d.evts := rfl
@[simp] theorem Data.setQp_sts (d : Data) (q : Nat) (x : Qp) : (d.setQp q x).sts = d.sts := rfl
@[simp] theorem Data.setQp_cnt (d : Data) (q : Nat) (x : Qp) : (d.setQp q x).cnt = d.cnt := rfl
@[simp] theorem Data.setQp_halfCap (d : Data) (q : Nat) (x : Qp) : (d.setQp q x).halfCap = d.halfCap := rfl
@[simp] theorem Data.setQp_out (d : Data) (q : Nat) (x : Qp) : (d.setQp q x).out = d.out := rfl
@[simp] theorem Data.setQp_free (d : Data) (q : Nat) (x : Qp) : (d.setQp q x).free = d.free := rfl
@[simp] theorem Data.setQp_tick (d : Data) (q : Nat) (x : Qp) : (d.setQp q x).tick = d.tick := rfl
@[simp] theorem Data.setQp_slices (d : Data) (q : Nat) (x : Qp) : (d.setQp q x).slices = d.slices := rfl

@[simp] theorem Data.setRegion_mem (d : Data) (i : Nat) (r : Region) : (d.setRegion i r).mem = d.mem := rfl
@[simp] theorem Data.setRegion_poison (d : Data) (i : Nat) (r : Region) : (d.setRegion i r).poison = d.poison := rfl
@[simp] theorem Data.setRegion_rawUe (d : Data) (i : Nat) (r : Region) : (d.setRegion i r).rawUe = d.rawUe := rfl
@[simp] theorem Data.setRegion_flaws (d : Data) (i : Nat) (r : Region) : (d.setRegion i r).flaws = d.flaws := rfl
@[simp] theorem Data.setRegion_fyl (d : Data) (i : Nat) (r : Region) : (d.setRegion i r).fyl = d.fyl := rfl
@[simp] theorem Data.setRegion_mbx (d : Data) (i : Nat) (r : Region) : (d.setRegion i r).mbx = d.mbx := rfl
@[simp] theorem Data.setRegion_bdl (d : Data) (i : Nat) (r : Region) : (d.setRegion i r).bdl = d.bdl := rfl
@[simp] theorem Data.setRegion_trf (d : Data) (i : Nat) (r : Region) : (d.setRegion i r).trf = d.trf := rfl
@[simp] theorem Data.setRegion_bsk (d : Data) (i : Nat) (r : Region) : (d.setRegion i r).bsk = d.bsk := rfl
@[simp] theorem Data.setRegion_kvw (d : Data) (i : Nat) (r : Region) : (d.setRegion i r).kvw = d.kvw := rfl
@[simp] theorem Data.setRegion_adp (d : Data) (i : Nat) (r : Region) : (d.setRegion i r).adp = d.adp := rfl
@[simp] theorem Data.setRegion_mat (d : Data) (i : Nat) (r : Region) : (d.setRegion i r).mat = d.mat := rfl
@[simp] theorem Data.setRegion_spl (d : Data) (i : Nat) (r : Region) : (d.setRegion i r).spl = d.spl := rfl
@[simp] theorem Data.setRegion_fab (d : Data) (i : Nat) (r : Region) : (d.setRegion i r).fab = d.fab := rfl
@[simp] theorem Data.setRegion_sal (d : Data) (i : Nat) (r : Region) : (d.setRegion i r).sal = d.sal := rfl
@[simp] theorem Data.setRegion_mrg (d : Data) (i : Nat) (r : Region) : (d.setRegion i r).mrg = d.mrg := rfl
@[simp] theorem Data.setRegion_bls (d : Data) (i : Nat) (r : Region) : (d.setRegion i r).bls = d.bls := rfl
@[simp] theorem Data.setRegion_bbx (d : Data) (i : Nat) (r : Region) : (d.setRegion i r).bbx = d.bbx := rfl
@[simp] theorem Data.setRegion_ras (d : Data) (i : Nat) (r : Region) : (d.setRegion i r).ras = d.ras := rfl
@[simp] theorem Data.setRegion_links (d : Data) (i : Nat) (r : Region) : (d.setRegion i r).links = d.links := rfl
@[simp] theorem Data.setRegion_engs (d : Data) (i : Nat) (r : Region) : (d.setRegion i r).engs = d.engs := rfl
@[simp] theorem Data.setRegion_low (d : Data) (i : Nat) (r : Region) : (d.setRegion i r).low = d.low := rfl
@[simp] theorem Data.setRegion_evts (d : Data) (i : Nat) (r : Region) : (d.setRegion i r).evts = d.evts := rfl
@[simp] theorem Data.setRegion_sts (d : Data) (i : Nat) (r : Region) : (d.setRegion i r).sts = d.sts := rfl
@[simp] theorem Data.setRegion_cnt (d : Data) (i : Nat) (r : Region) : (d.setRegion i r).cnt = d.cnt := rfl
@[simp] theorem Data.setRegion_halfCap (d : Data) (i : Nat) (r : Region) : (d.setRegion i r).halfCap = d.halfCap := rfl
@[simp] theorem Data.setRegion_out (d : Data) (i : Nat) (r : Region) : (d.setRegion i r).out = d.out := rfl
@[simp] theorem Data.setRegion_free (d : Data) (i : Nat) (r : Region) : (d.setRegion i r).free = d.free := rfl
@[simp] theorem Data.setRegion_tick (d : Data) (i : Nat) (r : Region) : (d.setRegion i r).tick = d.tick := rfl
@[simp] theorem Data.setRegion_slices (d : Data) (i : Nat) (r : Region) : (d.setRegion i r).slices = d.slices := rfl

@[simp] theorem Data.setBank_mem (d : Data) (b : Nat) (x : Tab MatEntry) : (d.setBank b x).mem = d.mem := rfl
@[simp] theorem Data.setBank_poison (d : Data) (b : Nat) (x : Tab MatEntry) : (d.setBank b x).poison = d.poison := rfl
@[simp] theorem Data.setBank_rawUe (d : Data) (b : Nat) (x : Tab MatEntry) : (d.setBank b x).rawUe = d.rawUe := rfl
@[simp] theorem Data.setBank_flaws (d : Data) (b : Nat) (x : Tab MatEntry) : (d.setBank b x).flaws = d.flaws := rfl
@[simp] theorem Data.setBank_fyl (d : Data) (b : Nat) (x : Tab MatEntry) : (d.setBank b x).fyl = d.fyl := rfl
@[simp] theorem Data.setBank_mbx (d : Data) (b : Nat) (x : Tab MatEntry) : (d.setBank b x).mbx = d.mbx := rfl
@[simp] theorem Data.setBank_bdl (d : Data) (b : Nat) (x : Tab MatEntry) : (d.setBank b x).bdl = d.bdl := rfl
@[simp] theorem Data.setBank_trf (d : Data) (b : Nat) (x : Tab MatEntry) : (d.setBank b x).trf = d.trf := rfl
@[simp] theorem Data.setBank_bsk (d : Data) (b : Nat) (x : Tab MatEntry) : (d.setBank b x).bsk = d.bsk := rfl
@[simp] theorem Data.setBank_kvw (d : Data) (b : Nat) (x : Tab MatEntry) : (d.setBank b x).kvw = d.kvw := rfl
@[simp] theorem Data.setBank_adp (d : Data) (b : Nat) (x : Tab MatEntry) : (d.setBank b x).adp = d.adp := rfl
@[simp] theorem Data.setBank_spl (d : Data) (b : Nat) (x : Tab MatEntry) : (d.setBank b x).spl = d.spl := rfl
@[simp] theorem Data.setBank_ttx (d : Data) (b : Nat) (x : Tab MatEntry) : (d.setBank b x).ttx = d.ttx := rfl
@[simp] theorem Data.setBank_fab (d : Data) (b : Nat) (x : Tab MatEntry) : (d.setBank b x).fab = d.fab := rfl
@[simp] theorem Data.setBank_sal (d : Data) (b : Nat) (x : Tab MatEntry) : (d.setBank b x).sal = d.sal := rfl
@[simp] theorem Data.setBank_mrg (d : Data) (b : Nat) (x : Tab MatEntry) : (d.setBank b x).mrg = d.mrg := rfl
@[simp] theorem Data.setBank_bls (d : Data) (b : Nat) (x : Tab MatEntry) : (d.setBank b x).bls = d.bls := rfl
@[simp] theorem Data.setBank_bbx (d : Data) (b : Nat) (x : Tab MatEntry) : (d.setBank b x).bbx = d.bbx := rfl
@[simp] theorem Data.setBank_ras (d : Data) (b : Nat) (x : Tab MatEntry) : (d.setBank b x).ras = d.ras := rfl
@[simp] theorem Data.setBank_links (d : Data) (b : Nat) (x : Tab MatEntry) : (d.setBank b x).links = d.links := rfl
@[simp] theorem Data.setBank_engs (d : Data) (b : Nat) (x : Tab MatEntry) : (d.setBank b x).engs = d.engs := rfl
@[simp] theorem Data.setBank_low (d : Data) (b : Nat) (x : Tab MatEntry) : (d.setBank b x).low = d.low := rfl
@[simp] theorem Data.setBank_evts (d : Data) (b : Nat) (x : Tab MatEntry) : (d.setBank b x).evts = d.evts := rfl
@[simp] theorem Data.setBank_sts (d : Data) (b : Nat) (x : Tab MatEntry) : (d.setBank b x).sts = d.sts := rfl
@[simp] theorem Data.setBank_cnt (d : Data) (b : Nat) (x : Tab MatEntry) : (d.setBank b x).cnt = d.cnt := rfl
@[simp] theorem Data.setBank_halfCap (d : Data) (b : Nat) (x : Tab MatEntry) : (d.setBank b x).halfCap = d.halfCap := rfl
@[simp] theorem Data.setBank_out (d : Data) (b : Nat) (x : Tab MatEntry) : (d.setBank b x).out = d.out := rfl
@[simp] theorem Data.setBank_free (d : Data) (b : Nat) (x : Tab MatEntry) : (d.setBank b x).free = d.free := rfl
@[simp] theorem Data.setBank_tick (d : Data) (b : Nat) (x : Tab MatEntry) : (d.setBank b x).tick = d.tick := rfl
@[simp] theorem Data.setBank_slices (d : Data) (b : Nat) (x : Tab MatEntry) : (d.setBank b x).slices = d.slices := rfl

@[simp] theorem Data.setUnit_mem (d : Data) (g : Nat) (u : SUnit) : (d.setUnit g u).mem = d.mem := rfl
@[simp] theorem Data.setUnit_poison (d : Data) (g : Nat) (u : SUnit) : (d.setUnit g u).poison = d.poison := rfl
@[simp] theorem Data.setUnit_rawUe (d : Data) (g : Nat) (u : SUnit) : (d.setUnit g u).rawUe = d.rawUe := rfl
@[simp] theorem Data.setUnit_flaws (d : Data) (g : Nat) (u : SUnit) : (d.setUnit g u).flaws = d.flaws := rfl
@[simp] theorem Data.setUnit_fyl (d : Data) (g : Nat) (u : SUnit) : (d.setUnit g u).fyl = d.fyl := rfl
@[simp] theorem Data.setUnit_mbx (d : Data) (g : Nat) (u : SUnit) : (d.setUnit g u).mbx = d.mbx := rfl
@[simp] theorem Data.setUnit_bdl (d : Data) (g : Nat) (u : SUnit) : (d.setUnit g u).bdl = d.bdl := rfl
@[simp] theorem Data.setUnit_trf (d : Data) (g : Nat) (u : SUnit) : (d.setUnit g u).trf = d.trf := rfl
@[simp] theorem Data.setUnit_bsk (d : Data) (g : Nat) (u : SUnit) : (d.setUnit g u).bsk = d.bsk := rfl
@[simp] theorem Data.setUnit_kvw (d : Data) (g : Nat) (u : SUnit) : (d.setUnit g u).kvw = d.kvw := rfl
@[simp] theorem Data.setUnit_adp (d : Data) (g : Nat) (u : SUnit) : (d.setUnit g u).adp = d.adp := rfl
@[simp] theorem Data.setUnit_mat (d : Data) (g : Nat) (u : SUnit) : (d.setUnit g u).mat = d.mat := rfl
@[simp] theorem Data.setUnit_spl (d : Data) (g : Nat) (u : SUnit) : (d.setUnit g u).spl = d.spl := rfl
@[simp] theorem Data.setUnit_ttx (d : Data) (g : Nat) (u : SUnit) : (d.setUnit g u).ttx = d.ttx := rfl
@[simp] theorem Data.setUnit_fab (d : Data) (g : Nat) (u : SUnit) : (d.setUnit g u).fab = d.fab := rfl
@[simp] theorem Data.setUnit_mrg (d : Data) (g : Nat) (u : SUnit) : (d.setUnit g u).mrg = d.mrg := rfl
@[simp] theorem Data.setUnit_bls (d : Data) (g : Nat) (u : SUnit) : (d.setUnit g u).bls = d.bls := rfl
@[simp] theorem Data.setUnit_bbx (d : Data) (g : Nat) (u : SUnit) : (d.setUnit g u).bbx = d.bbx := rfl
@[simp] theorem Data.setUnit_ras (d : Data) (g : Nat) (u : SUnit) : (d.setUnit g u).ras = d.ras := rfl
@[simp] theorem Data.setUnit_links (d : Data) (g : Nat) (u : SUnit) : (d.setUnit g u).links = d.links := rfl
@[simp] theorem Data.setUnit_engs (d : Data) (g : Nat) (u : SUnit) : (d.setUnit g u).engs = d.engs := rfl
@[simp] theorem Data.setUnit_low (d : Data) (g : Nat) (u : SUnit) : (d.setUnit g u).low = d.low := rfl
@[simp] theorem Data.setUnit_evts (d : Data) (g : Nat) (u : SUnit) : (d.setUnit g u).evts = d.evts := rfl
@[simp] theorem Data.setUnit_sts (d : Data) (g : Nat) (u : SUnit) : (d.setUnit g u).sts = d.sts := rfl
@[simp] theorem Data.setUnit_cnt (d : Data) (g : Nat) (u : SUnit) : (d.setUnit g u).cnt = d.cnt := rfl
@[simp] theorem Data.setUnit_halfCap (d : Data) (g : Nat) (u : SUnit) : (d.setUnit g u).halfCap = d.halfCap := rfl
@[simp] theorem Data.setUnit_out (d : Data) (g : Nat) (u : SUnit) : (d.setUnit g u).out = d.out := rfl
@[simp] theorem Data.setUnit_free (d : Data) (g : Nat) (u : SUnit) : (d.setUnit g u).free = d.free := rfl
@[simp] theorem Data.setUnit_tick (d : Data) (g : Nat) (u : SUnit) : (d.setUnit g u).tick = d.tick := rfl
@[simp] theorem Data.setUnit_slices (d : Data) (g : Nat) (u : SUnit) : (d.setUnit g u).slices = d.slices := rfl

@[simp] theorem Data.onIssue_mem (d : Data) (i : Nat) (f : SIssue → SIssue) : (d.onIssue i f).mem = d.mem := rfl
@[simp] theorem Data.onIssue_poison (d : Data) (i : Nat) (f : SIssue → SIssue) : (d.onIssue i f).poison = d.poison := rfl
@[simp] theorem Data.onIssue_rawUe (d : Data) (i : Nat) (f : SIssue → SIssue) : (d.onIssue i f).rawUe = d.rawUe := rfl
@[simp] theorem Data.onIssue_flaws (d : Data) (i : Nat) (f : SIssue → SIssue) : (d.onIssue i f).flaws = d.flaws := rfl
@[simp] theorem Data.onIssue_fyl (d : Data) (i : Nat) (f : SIssue → SIssue) : (d.onIssue i f).fyl = d.fyl := rfl
@[simp] theorem Data.onIssue_mbx (d : Data) (i : Nat) (f : SIssue → SIssue) : (d.onIssue i f).mbx = d.mbx := rfl
@[simp] theorem Data.onIssue_bdl (d : Data) (i : Nat) (f : SIssue → SIssue) : (d.onIssue i f).bdl = d.bdl := rfl
@[simp] theorem Data.onIssue_trf (d : Data) (i : Nat) (f : SIssue → SIssue) : (d.onIssue i f).trf = d.trf := rfl
@[simp] theorem Data.onIssue_bsk (d : Data) (i : Nat) (f : SIssue → SIssue) : (d.onIssue i f).bsk = d.bsk := rfl
@[simp] theorem Data.onIssue_kvw (d : Data) (i : Nat) (f : SIssue → SIssue) : (d.onIssue i f).kvw = d.kvw := rfl
@[simp] theorem Data.onIssue_adp (d : Data) (i : Nat) (f : SIssue → SIssue) : (d.onIssue i f).adp = d.adp := rfl
@[simp] theorem Data.onIssue_mat (d : Data) (i : Nat) (f : SIssue → SIssue) : (d.onIssue i f).mat = d.mat := rfl
@[simp] theorem Data.onIssue_spl (d : Data) (i : Nat) (f : SIssue → SIssue) : (d.onIssue i f).spl = d.spl := rfl
@[simp] theorem Data.onIssue_ttx (d : Data) (i : Nat) (f : SIssue → SIssue) : (d.onIssue i f).ttx = d.ttx := rfl
@[simp] theorem Data.onIssue_fab (d : Data) (i : Nat) (f : SIssue → SIssue) : (d.onIssue i f).fab = d.fab := rfl
@[simp] theorem Data.onIssue_mrg (d : Data) (i : Nat) (f : SIssue → SIssue) : (d.onIssue i f).mrg = d.mrg := rfl
@[simp] theorem Data.onIssue_bls (d : Data) (i : Nat) (f : SIssue → SIssue) : (d.onIssue i f).bls = d.bls := rfl
@[simp] theorem Data.onIssue_bbx (d : Data) (i : Nat) (f : SIssue → SIssue) : (d.onIssue i f).bbx = d.bbx := rfl
@[simp] theorem Data.onIssue_ras (d : Data) (i : Nat) (f : SIssue → SIssue) : (d.onIssue i f).ras = d.ras := rfl
@[simp] theorem Data.onIssue_links (d : Data) (i : Nat) (f : SIssue → SIssue) : (d.onIssue i f).links = d.links := rfl
@[simp] theorem Data.onIssue_engs (d : Data) (i : Nat) (f : SIssue → SIssue) : (d.onIssue i f).engs = d.engs := rfl
@[simp] theorem Data.onIssue_low (d : Data) (i : Nat) (f : SIssue → SIssue) : (d.onIssue i f).low = d.low := rfl
@[simp] theorem Data.onIssue_evts (d : Data) (i : Nat) (f : SIssue → SIssue) : (d.onIssue i f).evts = d.evts := rfl
@[simp] theorem Data.onIssue_sts (d : Data) (i : Nat) (f : SIssue → SIssue) : (d.onIssue i f).sts = d.sts := rfl
@[simp] theorem Data.onIssue_cnt (d : Data) (i : Nat) (f : SIssue → SIssue) : (d.onIssue i f).cnt = d.cnt := rfl
@[simp] theorem Data.onIssue_halfCap (d : Data) (i : Nat) (f : SIssue → SIssue) : (d.onIssue i f).halfCap = d.halfCap := rfl
@[simp] theorem Data.onIssue_out (d : Data) (i : Nat) (f : SIssue → SIssue) : (d.onIssue i f).out = d.out := rfl
@[simp] theorem Data.onIssue_free (d : Data) (i : Nat) (f : SIssue → SIssue) : (d.onIssue i f).free = d.free := rfl
@[simp] theorem Data.onIssue_tick (d : Data) (i : Nat) (f : SIssue → SIssue) : (d.onIssue i f).tick = d.tick := rfl
@[simp] theorem Data.onIssue_slices (d : Data) (i : Nat) (f : SIssue → SIssue) : (d.onIssue i f).slices = d.slices := rfl

@[simp] theorem Data.setStream_mem (d : Data) (s : Nat) (m : MStream) : (d.setStream s m).mem = d.mem := rfl
@[simp] theorem Data.setStream_poison (d : Data) (s : Nat) (m : MStream) : (d.setStream s m).poison = d.poison := rfl
@[simp] theorem Data.setStream_rawUe (d : Data) (s : Nat) (m : MStream) : (d.setStream s m).rawUe = d.rawUe := rfl
@[simp] theorem Data.setStream_flaws (d : Data) (s : Nat) (m : MStream) : (d.setStream s m).flaws = d.flaws := rfl
@[simp] theorem Data.setStream_fyl (d : Data) (s : Nat) (m : MStream) : (d.setStream s m).fyl = d.fyl := rfl
@[simp] theorem Data.setStream_mbx (d : Data) (s : Nat) (m : MStream) : (d.setStream s m).mbx = d.mbx := rfl
@[simp] theorem Data.setStream_bdl (d : Data) (s : Nat) (m : MStream) : (d.setStream s m).bdl = d.bdl := rfl
@[simp] theorem Data.setStream_trf (d : Data) (s : Nat) (m : MStream) : (d.setStream s m).trf = d.trf := rfl
@[simp] theorem Data.setStream_bsk (d : Data) (s : Nat) (m : MStream) : (d.setStream s m).bsk = d.bsk := rfl
@[simp] theorem Data.setStream_kvw (d : Data) (s : Nat) (m : MStream) : (d.setStream s m).kvw = d.kvw := rfl
@[simp] theorem Data.setStream_adp (d : Data) (s : Nat) (m : MStream) : (d.setStream s m).adp = d.adp := rfl
@[simp] theorem Data.setStream_mat (d : Data) (s : Nat) (m : MStream) : (d.setStream s m).mat = d.mat := rfl
@[simp] theorem Data.setStream_spl (d : Data) (s : Nat) (m : MStream) : (d.setStream s m).spl = d.spl := rfl
@[simp] theorem Data.setStream_ttx (d : Data) (s : Nat) (m : MStream) : (d.setStream s m).ttx = d.ttx := rfl
@[simp] theorem Data.setStream_fab (d : Data) (s : Nat) (m : MStream) : (d.setStream s m).fab = d.fab := rfl
@[simp] theorem Data.setStream_sal (d : Data) (s : Nat) (m : MStream) : (d.setStream s m).sal = d.sal := rfl
@[simp] theorem Data.setStream_bls (d : Data) (s : Nat) (m : MStream) : (d.setStream s m).bls = d.bls := rfl
@[simp] theorem Data.setStream_bbx (d : Data) (s : Nat) (m : MStream) : (d.setStream s m).bbx = d.bbx := rfl
@[simp] theorem Data.setStream_ras (d : Data) (s : Nat) (m : MStream) : (d.setStream s m).ras = d.ras := rfl
@[simp] theorem Data.setStream_links (d : Data) (s : Nat) (m : MStream) : (d.setStream s m).links = d.links := rfl
@[simp] theorem Data.setStream_engs (d : Data) (s : Nat) (m : MStream) : (d.setStream s m).engs = d.engs := rfl
@[simp] theorem Data.setStream_low (d : Data) (s : Nat) (m : MStream) : (d.setStream s m).low = d.low := rfl
@[simp] theorem Data.setStream_evts (d : Data) (s : Nat) (m : MStream) : (d.setStream s m).evts = d.evts := rfl
@[simp] theorem Data.setStream_sts (d : Data) (s : Nat) (m : MStream) : (d.setStream s m).sts = d.sts := rfl
@[simp] theorem Data.setStream_cnt (d : Data) (s : Nat) (m : MStream) : (d.setStream s m).cnt = d.cnt := rfl
@[simp] theorem Data.setStream_halfCap (d : Data) (s : Nat) (m : MStream) : (d.setStream s m).halfCap = d.halfCap := rfl
@[simp] theorem Data.setStream_out (d : Data) (s : Nat) (m : MStream) : (d.setStream s m).out = d.out := rfl
@[simp] theorem Data.setStream_free (d : Data) (s : Nat) (m : MStream) : (d.setStream s m).free = d.free := rfl
@[simp] theorem Data.setStream_tick (d : Data) (s : Nat) (m : MStream) : (d.setStream s m).tick = d.tick := rfl
@[simp] theorem Data.setStream_slices (d : Data) (s : Nat) (m : MStream) : (d.setStream s m).slices = d.slices := rfl

@[simp] theorem Data.toStream_mem (d : Data) (s : Nat) (l : List WItem) : (d.toStream s l).mem = d.mem := rfl
@[simp] theorem Data.toStream_poison (d : Data) (s : Nat) (l : List WItem) : (d.toStream s l).poison = d.poison := rfl
@[simp] theorem Data.toStream_rawUe (d : Data) (s : Nat) (l : List WItem) : (d.toStream s l).rawUe = d.rawUe := rfl
@[simp] theorem Data.toStream_flaws (d : Data) (s : Nat) (l : List WItem) : (d.toStream s l).flaws = d.flaws := rfl
@[simp] theorem Data.toStream_fyl (d : Data) (s : Nat) (l : List WItem) : (d.toStream s l).fyl = d.fyl := rfl
@[simp] theorem Data.toStream_mbx (d : Data) (s : Nat) (l : List WItem) : (d.toStream s l).mbx = d.mbx := rfl
@[simp] theorem Data.toStream_bdl (d : Data) (s : Nat) (l : List WItem) : (d.toStream s l).bdl = d.bdl := rfl
@[simp] theorem Data.toStream_trf (d : Data) (s : Nat) (l : List WItem) : (d.toStream s l).trf = d.trf := rfl
@[simp] theorem Data.toStream_bsk (d : Data) (s : Nat) (l : List WItem) : (d.toStream s l).bsk = d.bsk := rfl
@[simp] theorem Data.toStream_kvw (d : Data) (s : Nat) (l : List WItem) : (d.toStream s l).kvw = d.kvw := rfl
@[simp] theorem Data.toStream_adp (d : Data) (s : Nat) (l : List WItem) : (d.toStream s l).adp = d.adp := rfl
@[simp] theorem Data.toStream_mat (d : Data) (s : Nat) (l : List WItem) : (d.toStream s l).mat = d.mat := rfl
@[simp] theorem Data.toStream_spl (d : Data) (s : Nat) (l : List WItem) : (d.toStream s l).spl = d.spl := rfl
@[simp] theorem Data.toStream_ttx (d : Data) (s : Nat) (l : List WItem) : (d.toStream s l).ttx = d.ttx := rfl
@[simp] theorem Data.toStream_fab (d : Data) (s : Nat) (l : List WItem) : (d.toStream s l).fab = d.fab := rfl
@[simp] theorem Data.toStream_sal (d : Data) (s : Nat) (l : List WItem) : (d.toStream s l).sal = d.sal := rfl
@[simp] theorem Data.toStream_bls (d : Data) (s : Nat) (l : List WItem) : (d.toStream s l).bls = d.bls := rfl
@[simp] theorem Data.toStream_bbx (d : Data) (s : Nat) (l : List WItem) : (d.toStream s l).bbx = d.bbx := rfl
@[simp] theorem Data.toStream_ras (d : Data) (s : Nat) (l : List WItem) : (d.toStream s l).ras = d.ras := rfl
@[simp] theorem Data.toStream_links (d : Data) (s : Nat) (l : List WItem) : (d.toStream s l).links = d.links := rfl
@[simp] theorem Data.toStream_engs (d : Data) (s : Nat) (l : List WItem) : (d.toStream s l).engs = d.engs := rfl
@[simp] theorem Data.toStream_low (d : Data) (s : Nat) (l : List WItem) : (d.toStream s l).low = d.low := rfl
@[simp] theorem Data.toStream_evts (d : Data) (s : Nat) (l : List WItem) : (d.toStream s l).evts = d.evts := rfl
@[simp] theorem Data.toStream_sts (d : Data) (s : Nat) (l : List WItem) : (d.toStream s l).sts = d.sts := rfl
@[simp] theorem Data.toStream_cnt (d : Data) (s : Nat) (l : List WItem) : (d.toStream s l).cnt = d.cnt := rfl
@[simp] theorem Data.toStream_halfCap (d : Data) (s : Nat) (l : List WItem) : (d.toStream s l).halfCap = d.halfCap := rfl
@[simp] theorem Data.toStream_out (d : Data) (s : Nat) (l : List WItem) : (d.toStream s l).out = d.out := rfl
@[simp] theorem Data.toStream_free (d : Data) (s : Nat) (l : List WItem) : (d.toStream s l).free = d.free := rfl
@[simp] theorem Data.toStream_tick (d : Data) (s : Nat) (l : List WItem) : (d.toStream s l).tick = d.tick := rfl
@[simp] theorem Data.toStream_slices (d : Data) (s : Nat) (l : List WItem) : (d.toStream s l).slices = d.slices := rfl

@[simp] theorem Data.setGrp_mem (d : Data) (g : Nat) (x : Group) : (d.setGrp g x).mem = d.mem := rfl
@[simp] theorem Data.setGrp_poison (d : Data) (g : Nat) (x : Group) : (d.setGrp g x).poison = d.poison := rfl
@[simp] theorem Data.setGrp_rawUe (d : Data) (g : Nat) (x : Group) : (d.setGrp g x).rawUe = d.rawUe := rfl
@[simp] theorem Data.setGrp_flaws (d : Data) (g : Nat) (x : Group) : (d.setGrp g x).flaws = d.flaws := rfl
@[simp] theorem Data.setGrp_fyl (d : Data) (g : Nat) (x : Group) : (d.setGrp g x).fyl = d.fyl := rfl
@[simp] theorem Data.setGrp_mbx (d : Data) (g : Nat) (x : Group) : (d.setGrp g x).mbx = d.mbx := rfl
@[simp] theorem Data.setGrp_bdl (d : Data) (g : Nat) (x : Group) : (d.setGrp g x).bdl = d.bdl := rfl
@[simp] theorem Data.setGrp_trf (d : Data) (g : Nat) (x : Group) : (d.setGrp g x).trf = d.trf := rfl
@[simp] theorem Data.setGrp_bsk (d : Data) (g : Nat) (x : Group) : (d.setGrp g x).bsk = d.bsk := rfl
@[simp] theorem Data.setGrp_kvw (d : Data) (g : Nat) (x : Group) : (d.setGrp g x).kvw = d.kvw := rfl
@[simp] theorem Data.setGrp_adp (d : Data) (g : Nat) (x : Group) : (d.setGrp g x).adp = d.adp := rfl
@[simp] theorem Data.setGrp_mat (d : Data) (g : Nat) (x : Group) : (d.setGrp g x).mat = d.mat := rfl
@[simp] theorem Data.setGrp_spl (d : Data) (g : Nat) (x : Group) : (d.setGrp g x).spl = d.spl := rfl
@[simp] theorem Data.setGrp_ttx (d : Data) (g : Nat) (x : Group) : (d.setGrp g x).ttx = d.ttx := rfl
@[simp] theorem Data.setGrp_sal (d : Data) (g : Nat) (x : Group) : (d.setGrp g x).sal = d.sal := rfl
@[simp] theorem Data.setGrp_mrg (d : Data) (g : Nat) (x : Group) : (d.setGrp g x).mrg = d.mrg := rfl
@[simp] theorem Data.setGrp_bls (d : Data) (g : Nat) (x : Group) : (d.setGrp g x).bls = d.bls := rfl
@[simp] theorem Data.setGrp_bbx (d : Data) (g : Nat) (x : Group) : (d.setGrp g x).bbx = d.bbx := rfl
@[simp] theorem Data.setGrp_ras (d : Data) (g : Nat) (x : Group) : (d.setGrp g x).ras = d.ras := rfl
@[simp] theorem Data.setGrp_links (d : Data) (g : Nat) (x : Group) : (d.setGrp g x).links = d.links := rfl
@[simp] theorem Data.setGrp_engs (d : Data) (g : Nat) (x : Group) : (d.setGrp g x).engs = d.engs := rfl
@[simp] theorem Data.setGrp_low (d : Data) (g : Nat) (x : Group) : (d.setGrp g x).low = d.low := rfl
@[simp] theorem Data.setGrp_evts (d : Data) (g : Nat) (x : Group) : (d.setGrp g x).evts = d.evts := rfl
@[simp] theorem Data.setGrp_sts (d : Data) (g : Nat) (x : Group) : (d.setGrp g x).sts = d.sts := rfl
@[simp] theorem Data.setGrp_cnt (d : Data) (g : Nat) (x : Group) : (d.setGrp g x).cnt = d.cnt := rfl
@[simp] theorem Data.setGrp_halfCap (d : Data) (g : Nat) (x : Group) : (d.setGrp g x).halfCap = d.halfCap := rfl
@[simp] theorem Data.setGrp_out (d : Data) (g : Nat) (x : Group) : (d.setGrp g x).out = d.out := rfl
@[simp] theorem Data.setGrp_free (d : Data) (g : Nat) (x : Group) : (d.setGrp g x).free = d.free := rfl
@[simp] theorem Data.setGrp_tick (d : Data) (g : Nat) (x : Group) : (d.setGrp g x).tick = d.tick := rfl
@[simp] theorem Data.setGrp_slices (d : Data) (g : Nat) (x : Group) : (d.setGrp g x).slices = d.slices := rfl

@[simp] theorem Data.setWin_mem (d : Data) (w : Nat) (x : Win) : (d.setWin w x).mem = d.mem := rfl
@[simp] theorem Data.setWin_poison (d : Data) (w : Nat) (x : Win) : (d.setWin w x).poison = d.poison := rfl
@[simp] theorem Data.setWin_rawUe (d : Data) (w : Nat) (x : Win) : (d.setWin w x).rawUe = d.rawUe := rfl
@[simp] theorem Data.setWin_flaws (d : Data) (w : Nat) (x : Win) : (d.setWin w x).flaws = d.flaws := rfl
@[simp] theorem Data.setWin_fyl (d : Data) (w : Nat) (x : Win) : (d.setWin w x).fyl = d.fyl := rfl
@[simp] theorem Data.setWin_mbx (d : Data) (w : Nat) (x : Win) : (d.setWin w x).mbx = d.mbx := rfl
@[simp] theorem Data.setWin_trf (d : Data) (w : Nat) (x : Win) : (d.setWin w x).trf = d.trf := rfl
@[simp] theorem Data.setWin_bsk (d : Data) (w : Nat) (x : Win) : (d.setWin w x).bsk = d.bsk := rfl
@[simp] theorem Data.setWin_kvw (d : Data) (w : Nat) (x : Win) : (d.setWin w x).kvw = d.kvw := rfl
@[simp] theorem Data.setWin_adp (d : Data) (w : Nat) (x : Win) : (d.setWin w x).adp = d.adp := rfl
@[simp] theorem Data.setWin_mat (d : Data) (w : Nat) (x : Win) : (d.setWin w x).mat = d.mat := rfl
@[simp] theorem Data.setWin_spl (d : Data) (w : Nat) (x : Win) : (d.setWin w x).spl = d.spl := rfl
@[simp] theorem Data.setWin_ttx (d : Data) (w : Nat) (x : Win) : (d.setWin w x).ttx = d.ttx := rfl
@[simp] theorem Data.setWin_fab (d : Data) (w : Nat) (x : Win) : (d.setWin w x).fab = d.fab := rfl
@[simp] theorem Data.setWin_sal (d : Data) (w : Nat) (x : Win) : (d.setWin w x).sal = d.sal := rfl
@[simp] theorem Data.setWin_mrg (d : Data) (w : Nat) (x : Win) : (d.setWin w x).mrg = d.mrg := rfl
@[simp] theorem Data.setWin_bls (d : Data) (w : Nat) (x : Win) : (d.setWin w x).bls = d.bls := rfl
@[simp] theorem Data.setWin_bbx (d : Data) (w : Nat) (x : Win) : (d.setWin w x).bbx = d.bbx := rfl
@[simp] theorem Data.setWin_ras (d : Data) (w : Nat) (x : Win) : (d.setWin w x).ras = d.ras := rfl
@[simp] theorem Data.setWin_links (d : Data) (w : Nat) (x : Win) : (d.setWin w x).links = d.links := rfl
@[simp] theorem Data.setWin_engs (d : Data) (w : Nat) (x : Win) : (d.setWin w x).engs = d.engs := rfl
@[simp] theorem Data.setWin_low (d : Data) (w : Nat) (x : Win) : (d.setWin w x).low = d.low := rfl
@[simp] theorem Data.setWin_evts (d : Data) (w : Nat) (x : Win) : (d.setWin w x).evts = d.evts := rfl
@[simp] theorem Data.setWin_sts (d : Data) (w : Nat) (x : Win) : (d.setWin w x).sts = d.sts := rfl
@[simp] theorem Data.setWin_cnt (d : Data) (w : Nat) (x : Win) : (d.setWin w x).cnt = d.cnt := rfl
@[simp] theorem Data.setWin_halfCap (d : Data) (w : Nat) (x : Win) : (d.setWin w x).halfCap = d.halfCap := rfl
@[simp] theorem Data.setWin_out (d : Data) (w : Nat) (x : Win) : (d.setWin w x).out = d.out := rfl
@[simp] theorem Data.setWin_free (d : Data) (w : Nat) (x : Win) : (d.setWin w x).free = d.free := rfl
@[simp] theorem Data.setWin_tick (d : Data) (w : Nat) (x : Win) : (d.setWin w x).tick = d.tick := rfl
@[simp] theorem Data.setWin_slices (d : Data) (w : Nat) (x : Win) : (d.setWin w x).slices = d.slices := rfl

@[simp] theorem Data.setChan8_mem (d : Data) (c : Nat) (x : FChan) : (d.setChan8 c x).mem = d.mem := rfl
@[simp] theorem Data.setChan8_poison (d : Data) (c : Nat) (x : FChan) : (d.setChan8 c x).poison = d.poison := rfl
@[simp] theorem Data.setChan8_rawUe (d : Data) (c : Nat) (x : FChan) : (d.setChan8 c x).rawUe = d.rawUe := rfl
@[simp] theorem Data.setChan8_flaws (d : Data) (c : Nat) (x : FChan) : (d.setChan8 c x).flaws = d.flaws := rfl
@[simp] theorem Data.setChan8_fyl (d : Data) (c : Nat) (x : FChan) : (d.setChan8 c x).fyl = d.fyl := rfl
@[simp] theorem Data.setChan8_mbx (d : Data) (c : Nat) (x : FChan) : (d.setChan8 c x).mbx = d.mbx := rfl
@[simp] theorem Data.setChan8_bdl (d : Data) (c : Nat) (x : FChan) : (d.setChan8 c x).bdl = d.bdl := rfl
@[simp] theorem Data.setChan8_trf (d : Data) (c : Nat) (x : FChan) : (d.setChan8 c x).trf = d.trf := rfl
@[simp] theorem Data.setChan8_bsk (d : Data) (c : Nat) (x : FChan) : (d.setChan8 c x).bsk = d.bsk := rfl
@[simp] theorem Data.setChan8_kvw (d : Data) (c : Nat) (x : FChan) : (d.setChan8 c x).kvw = d.kvw := rfl
@[simp] theorem Data.setChan8_adp (d : Data) (c : Nat) (x : FChan) : (d.setChan8 c x).adp = d.adp := rfl
@[simp] theorem Data.setChan8_mat (d : Data) (c : Nat) (x : FChan) : (d.setChan8 c x).mat = d.mat := rfl
@[simp] theorem Data.setChan8_spl (d : Data) (c : Nat) (x : FChan) : (d.setChan8 c x).spl = d.spl := rfl
@[simp] theorem Data.setChan8_ttx (d : Data) (c : Nat) (x : FChan) : (d.setChan8 c x).ttx = d.ttx := rfl
@[simp] theorem Data.setChan8_fab (d : Data) (c : Nat) (x : FChan) : (d.setChan8 c x).fab = d.fab := rfl
@[simp] theorem Data.setChan8_sal (d : Data) (c : Nat) (x : FChan) : (d.setChan8 c x).sal = d.sal := rfl
@[simp] theorem Data.setChan8_mrg (d : Data) (c : Nat) (x : FChan) : (d.setChan8 c x).mrg = d.mrg := rfl
@[simp] theorem Data.setChan8_bbx (d : Data) (c : Nat) (x : FChan) : (d.setChan8 c x).bbx = d.bbx := rfl
@[simp] theorem Data.setChan8_ras (d : Data) (c : Nat) (x : FChan) : (d.setChan8 c x).ras = d.ras := rfl
@[simp] theorem Data.setChan8_links (d : Data) (c : Nat) (x : FChan) : (d.setChan8 c x).links = d.links := rfl
@[simp] theorem Data.setChan8_engs (d : Data) (c : Nat) (x : FChan) : (d.setChan8 c x).engs = d.engs := rfl
@[simp] theorem Data.setChan8_low (d : Data) (c : Nat) (x : FChan) : (d.setChan8 c x).low = d.low := rfl
@[simp] theorem Data.setChan8_evts (d : Data) (c : Nat) (x : FChan) : (d.setChan8 c x).evts = d.evts := rfl
@[simp] theorem Data.setChan8_sts (d : Data) (c : Nat) (x : FChan) : (d.setChan8 c x).sts = d.sts := rfl
@[simp] theorem Data.setChan8_cnt (d : Data) (c : Nat) (x : FChan) : (d.setChan8 c x).cnt = d.cnt := rfl
@[simp] theorem Data.setChan8_halfCap (d : Data) (c : Nat) (x : FChan) : (d.setChan8 c x).halfCap = d.halfCap := rfl
@[simp] theorem Data.setChan8_out (d : Data) (c : Nat) (x : FChan) : (d.setChan8 c x).out = d.out := rfl
@[simp] theorem Data.setChan8_free (d : Data) (c : Nat) (x : FChan) : (d.setChan8 c x).free = d.free := rfl
@[simp] theorem Data.setChan8_tick (d : Data) (c : Nat) (x : FChan) : (d.setChan8 c x).tick = d.tick := rfl
@[simp] theorem Data.setChan8_slices (d : Data) (c : Nat) (x : FChan) : (d.setChan8 c x).slices = d.slices := rfl

@[simp] theorem Data.setEng_mem (d : Data) (p : Nat) (x : OptEng) : (d.setEng p x).mem = d.mem := rfl
@[simp] theorem Data.setEng_poison (d : Data) (p : Nat) (x : OptEng) : (d.setEng p x).poison = d.poison := rfl
@[simp] theorem Data.setEng_rawUe (d : Data) (p : Nat) (x : OptEng) : (d.setEng p x).rawUe = d.rawUe := rfl
@[simp] theorem Data.setEng_flaws (d : Data) (p : Nat) (x : OptEng) : (d.setEng p x).flaws = d.flaws := rfl
@[simp] theorem Data.setEng_fyl (d : Data) (p : Nat) (x : OptEng) : (d.setEng p x).fyl = d.fyl := rfl
@[simp] theorem Data.setEng_mbx (d : Data) (p : Nat) (x : OptEng) : (d.setEng p x).mbx = d.mbx := rfl
@[simp] theorem Data.setEng_bdl (d : Data) (p : Nat) (x : OptEng) : (d.setEng p x).bdl = d.bdl := rfl
@[simp] theorem Data.setEng_trf (d : Data) (p : Nat) (x : OptEng) : (d.setEng p x).trf = d.trf := rfl
@[simp] theorem Data.setEng_bsk (d : Data) (p : Nat) (x : OptEng) : (d.setEng p x).bsk = d.bsk := rfl
@[simp] theorem Data.setEng_kvw (d : Data) (p : Nat) (x : OptEng) : (d.setEng p x).kvw = d.kvw := rfl
@[simp] theorem Data.setEng_adp (d : Data) (p : Nat) (x : OptEng) : (d.setEng p x).adp = d.adp := rfl
@[simp] theorem Data.setEng_mat (d : Data) (p : Nat) (x : OptEng) : (d.setEng p x).mat = d.mat := rfl
@[simp] theorem Data.setEng_spl (d : Data) (p : Nat) (x : OptEng) : (d.setEng p x).spl = d.spl := rfl
@[simp] theorem Data.setEng_ttx (d : Data) (p : Nat) (x : OptEng) : (d.setEng p x).ttx = d.ttx := rfl
@[simp] theorem Data.setEng_fab (d : Data) (p : Nat) (x : OptEng) : (d.setEng p x).fab = d.fab := rfl
@[simp] theorem Data.setEng_sal (d : Data) (p : Nat) (x : OptEng) : (d.setEng p x).sal = d.sal := rfl
@[simp] theorem Data.setEng_mrg (d : Data) (p : Nat) (x : OptEng) : (d.setEng p x).mrg = d.mrg := rfl
@[simp] theorem Data.setEng_bls (d : Data) (p : Nat) (x : OptEng) : (d.setEng p x).bls = d.bls := rfl
@[simp] theorem Data.setEng_bbx (d : Data) (p : Nat) (x : OptEng) : (d.setEng p x).bbx = d.bbx := rfl
@[simp] theorem Data.setEng_ras (d : Data) (p : Nat) (x : OptEng) : (d.setEng p x).ras = d.ras := rfl
@[simp] theorem Data.setEng_links (d : Data) (p : Nat) (x : OptEng) : (d.setEng p x).links = d.links := rfl
@[simp] theorem Data.setEng_low (d : Data) (p : Nat) (x : OptEng) : (d.setEng p x).low = d.low := rfl
@[simp] theorem Data.setEng_evts (d : Data) (p : Nat) (x : OptEng) : (d.setEng p x).evts = d.evts := rfl
@[simp] theorem Data.setEng_sts (d : Data) (p : Nat) (x : OptEng) : (d.setEng p x).sts = d.sts := rfl
@[simp] theorem Data.setEng_cnt (d : Data) (p : Nat) (x : OptEng) : (d.setEng p x).cnt = d.cnt := rfl
@[simp] theorem Data.setEng_halfCap (d : Data) (p : Nat) (x : OptEng) : (d.setEng p x).halfCap = d.halfCap := rfl
@[simp] theorem Data.setEng_out (d : Data) (p : Nat) (x : OptEng) : (d.setEng p x).out = d.out := rfl
@[simp] theorem Data.setEng_free (d : Data) (p : Nat) (x : OptEng) : (d.setEng p x).free = d.free := rfl
@[simp] theorem Data.setEng_tick (d : Data) (p : Nat) (x : OptEng) : (d.setEng p x).tick = d.tick := rfl
@[simp] theorem Data.setEng_slices (d : Data) (p : Nat) (x : OptEng) : (d.setEng p x).slices = d.slices := rfl

/-! ### Reading back -/

@[simp] theorem Data.thr_setThr_self (d : Data) (t : Nat) (th : Thread) : (d.setThr t th).thr t = some th := Tab.get?_set_self _ t th
theorem Data.thr_setThr_ne (d : Data) {t j : Nat} (th : Thread) (hj : j ≠ t) : (d.setThr t th).thr j = d.thr j := Tab.get?_set_ne _ th hj
@[simp] theorem Data.ring_setRing_self (d : Data) (r : Nat) (v : Ring) : (d.setRing r v).ring r = v := Tab.getD_put_self _ _ r v
theorem Data.ring_setRing_ne (d : Data) {r j : Nat} (v : Ring) (hj : j ≠ r) : (d.setRing r v).ring j = d.ring j := Tab.getD_put_ne _ _ v hj
@[simp] theorem Data.chan_setChan_self (d : Data) (c : Nat) (v : Chan) : (d.setChan c v).chan c = v := Tab.getD_put_self _ _ c v
theorem Data.chan_setChan_ne (d : Data) {c j : Nat} (v : Chan) (hj : j ≠ c) : (d.setChan c v).chan j = d.chan j := Tab.getD_put_ne _ _ v hj
@[simp] theorem Data.half_setHalf_self (d : Data) (h : Nat) (v : Half) : (d.setHalf h v).half h = v := Tab.getD_put_self _ _ h v
theorem Data.half_setHalf_ne (d : Data) {h j : Nat} (v : Half) (hj : j ≠ h) : (d.setHalf h v).half j = d.half j := Tab.getD_put_ne _ _ v hj
@[simp] theorem Data.basket_setBasket_self (d : Data) (b : Nat) (x : Basket) : (d.setBasket b x).basket b = x := Tab.getD_set_self _ b x _
theorem Data.basket_setBasket_ne (d : Data) {b j : Nat} (x : Basket) (hj : j ≠ b) : (d.setBasket b x).basket j = d.basket j := Tab.getD_set_ne _ x _ hj
@[simp] theorem Data.ctx_setCtx_self (d : Data) (b : Nat) (c : PushCtx) : (d.setCtx b c).ctx b = some c := Tab.get?_set_self _ b c
theorem Data.ctx_setCtx_ne (d : Data) {b j : Nat} (c : PushCtx) (hj : j ≠ b) : (d.setCtx b c).ctx j = d.ctx j := Tab.get?_set_ne _ c hj
@[simp] theorem Data.qp_setQp_self (d : Data) (q : Nat) (x : Qp) : (d.setQp q x).qp q = x := Tab.getD_put_self _ _ q x
theorem Data.qp_setQp_ne (d : Data) {q j : Nat} (x : Qp) (hj : j ≠ q) : (d.setQp q x).qp j = d.qp j := Tab.getD_put_ne _ _ x hj
@[simp] theorem Data.region_setRegion_self (d : Data) (i : Nat) (x : Region) : (d.setRegion i x).region i = x := Tab.getD_put_self _ _ i x
theorem Data.region_setRegion_ne (d : Data) {i j : Nat} (x : Region) (hj : j ≠ i) : (d.setRegion i x).region j = d.region j := Tab.getD_put_ne _ _ x hj
@[simp] theorem Data.sunit_setUnit_self (d : Data) (g : Nat) (u : SUnit) : (d.setUnit g u).sunit g = u := Tab.getD_put_self _ _ g u
theorem Data.sunit_setUnit_ne (d : Data) {g j : Nat} (u : SUnit) (hj : j ≠ g) : (d.setUnit g u).sunit j = d.sunit j := Tab.getD_put_ne _ _ u hj
@[simp] theorem Data.grp_setGrp_self (d : Data) (g : Nat) (x : Group) : (d.setGrp g x).grp g = x := Tab.getD_put_self _ _ g x
theorem Data.grp_setGrp_ne (d : Data) {g j : Nat} (x : Group) (hj : j ≠ g) : (d.setGrp g x).grp j = d.grp j := Tab.getD_put_ne _ _ x hj
@[simp] theorem Data.win_setWin_self (d : Data) (w : Nat) (x : Win) : (d.setWin w x).win w = x := Tab.getD_put_self _ _ w x
theorem Data.win_setWin_ne (d : Data) {w j : Nat} (x : Win) (hj : j ≠ w) : (d.setWin w x).win j = d.win j := Tab.getD_put_ne _ _ x hj
@[simp] theorem Data.chan8_setChan8_self (d : Data) (c : Nat) (x : FChan) : (d.setChan8 c x).chan8 c = x := Tab.getD_put_self _ _ c x
theorem Data.chan8_setChan8_ne (d : Data) {c j : Nat} (x : FChan) (hj : j ≠ c) : (d.setChan8 c x).chan8 j = d.chan8 j := Tab.getD_put_ne _ _ x hj

/-! ### The readers of one part, after an update of another -/


@[simp] theorem Data.setSts_thr (d : Data) (a i : Nat) (x : Nat) : (d.setSts a i).thr x = d.thr x := rfl
@[simp] theorem Data.bump_thr (d : Data) (a n : Nat) (x : Nat) : (d.bump a n).thr x = d.thr x := rfl
@[simp] theorem Data.highWater_thr (d : Data) (a n : Nat) (x : Nat) : (d.highWater a n).thr x = d.thr x := rfl
@[simp] theorem Data.emit_thr (d : Data) (o : Out) (x : Nat) : (d.emit o).thr x = d.thr x := rfl
@[simp] theorem Data.bumpFree_thr (d : Data) (a : Nat) (x : Nat) : (d.bumpFree a).thr x = d.thr x := rfl
@[simp] theorem Data.touchRec_thr (d : Data) (b : Nat) (dirty : Bool) (x : Nat) : (d.touchRec b dirty).thr x = d.thr x := rfl
@[simp] theorem Data.setPoison_thr (d : Data) (p : List Nat) (x : Nat) : (d.setPoison p).thr x = d.thr x := rfl
@[simp] theorem Data.wrBytes_thr (d : Data) (a : Nat) (l : List Byte) (x : Nat) : (d.wrBytes a l).thr x = d.thr x := rfl
@[simp] theorem Data.wr_thr (d : Data) (a n v : Nat) (x : Nat) : (d.wr a n v).thr x = d.thr x := rfl
@[simp] theorem Data.clear_thr (d : Data) (a n : Nat) (x : Nat) : (d.clear a n).thr x = d.thr x := rfl
@[simp] theorem Data.setChan_thr (d : Data) (c : Nat) (v : Chan) (x : Nat) : (d.setChan c v).thr x = d.thr x := rfl
@[simp] theorem Data.setHalf_thr (d : Data) (h : Nat) (v : Half) (x : Nat) : (d.setHalf h v).thr x = d.thr x := rfl
@[simp] theorem Data.setBasket_thr (d : Data) (b : Nat) (z : Basket) (x : Nat) : (d.setBasket b z).thr x = d.thr x := rfl
@[simp] theorem Data.setCtx_thr (d : Data) (b : Nat) (c : PushCtx) (x : Nat) : (d.setCtx b c).thr x = d.thr x := rfl
@[simp] theorem Data.setLink_thr (d : Data) (p l : Nat) (z : Link) (x : Nat) : (d.setLink p l z).thr x = d.thr x := rfl
@[simp] theorem Data.setQp_thr (d : Data) (q : Nat) (z : Qp) (x : Nat) : (d.setQp q z).thr x = d.thr x := rfl
@[simp] theorem Data.setRegion_thr (d : Data) (i : Nat) (r : Region) (x : Nat) : (d.setRegion i r).thr x = d.thr x := rfl
@[simp] theorem Data.setBank_thr (d : Data) (b : Nat) (z : Tab MatEntry) (x : Nat) : (d.setBank b z).thr x = d.thr x := rfl
@[simp] theorem Data.setUnit_thr (d : Data) (g : Nat) (u : SUnit) (x : Nat) : (d.setUnit g u).thr x = d.thr x := rfl
@[simp] theorem Data.onIssue_thr (d : Data) (i : Nat) (f : SIssue → SIssue) (x : Nat) : (d.onIssue i f).thr x = d.thr x := rfl
@[simp] theorem Data.setStream_thr (d : Data) (s : Nat) (m : MStream) (x : Nat) : (d.setStream s m).thr x = d.thr x := rfl
@[simp] theorem Data.toStream_thr (d : Data) (s : Nat) (l : List WItem) (x : Nat) : (d.toStream s l).thr x = d.thr x := rfl
@[simp] theorem Data.setGrp_thr (d : Data) (g : Nat) (z : Group) (x : Nat) : (d.setGrp g z).thr x = d.thr x := rfl
@[simp] theorem Data.setWin_thr (d : Data) (w : Nat) (z : Win) (x : Nat) : (d.setWin w z).thr x = d.thr x := rfl
@[simp] theorem Data.setChan8_thr (d : Data) (c : Nat) (z : FChan) (x : Nat) : (d.setChan8 c z).thr x = d.thr x := rfl
@[simp] theorem Data.setEng_thr (d : Data) (p : Nat) (z : OptEng) (x : Nat) : (d.setEng p z).thr x = d.thr x := rfl

@[simp] theorem Data.setSts_ring (d : Data) (a i : Nat) (x : Nat) : (d.setSts a i).ring x = d.ring x := rfl
@[simp] theorem Data.bump_ring (d : Data) (a n : Nat) (x : Nat) : (d.bump a n).ring x = d.ring x := rfl
@[simp] theorem Data.highWater_ring (d : Data) (a n : Nat) (x : Nat) : (d.highWater a n).ring x = d.ring x := rfl
@[simp] theorem Data.emit_ring (d : Data) (o : Out) (x : Nat) : (d.emit o).ring x = d.ring x := rfl
@[simp] theorem Data.bumpFree_ring (d : Data) (a : Nat) (x : Nat) : (d.bumpFree a).ring x = d.ring x := rfl
@[simp] theorem Data.touchRec_ring (d : Data) (b : Nat) (dirty : Bool) (x : Nat) : (d.touchRec b dirty).ring x = d.ring x := rfl
@[simp] theorem Data.setPoison_ring (d : Data) (p : List Nat) (x : Nat) : (d.setPoison p).ring x = d.ring x := rfl
@[simp] theorem Data.wrBytes_ring (d : Data) (a : Nat) (l : List Byte) (x : Nat) : (d.wrBytes a l).ring x = d.ring x := rfl
@[simp] theorem Data.wr_ring (d : Data) (a n v : Nat) (x : Nat) : (d.wr a n v).ring x = d.ring x := rfl
@[simp] theorem Data.clear_ring (d : Data) (a n : Nat) (x : Nat) : (d.clear a n).ring x = d.ring x := rfl
@[simp] theorem Data.setChan_ring (d : Data) (c : Nat) (v : Chan) (x : Nat) : (d.setChan c v).ring x = d.ring x := rfl
@[simp] theorem Data.setHalf_ring (d : Data) (h : Nat) (v : Half) (x : Nat) : (d.setHalf h v).ring x = d.ring x := rfl
@[simp] theorem Data.setBasket_ring (d : Data) (b : Nat) (z : Basket) (x : Nat) : (d.setBasket b z).ring x = d.ring x := rfl
@[simp] theorem Data.setCtx_ring (d : Data) (b : Nat) (c : PushCtx) (x : Nat) : (d.setCtx b c).ring x = d.ring x := rfl
@[simp] theorem Data.setLink_ring (d : Data) (p l : Nat) (z : Link) (x : Nat) : (d.setLink p l z).ring x = d.ring x := rfl
@[simp] theorem Data.setQp_ring (d : Data) (q : Nat) (z : Qp) (x : Nat) : (d.setQp q z).ring x = d.ring x := rfl
@[simp] theorem Data.setRegion_ring (d : Data) (i : Nat) (r : Region) (x : Nat) : (d.setRegion i r).ring x = d.ring x := rfl
@[simp] theorem Data.setBank_ring (d : Data) (b : Nat) (z : Tab MatEntry) (x : Nat) : (d.setBank b z).ring x = d.ring x := rfl
@[simp] theorem Data.setUnit_ring (d : Data) (g : Nat) (u : SUnit) (x : Nat) : (d.setUnit g u).ring x = d.ring x := rfl
@[simp] theorem Data.onIssue_ring (d : Data) (i : Nat) (f : SIssue → SIssue) (x : Nat) : (d.onIssue i f).ring x = d.ring x := rfl
@[simp] theorem Data.setStream_ring (d : Data) (s : Nat) (m : MStream) (x : Nat) : (d.setStream s m).ring x = d.ring x := rfl
@[simp] theorem Data.toStream_ring (d : Data) (s : Nat) (l : List WItem) (x : Nat) : (d.toStream s l).ring x = d.ring x := rfl
@[simp] theorem Data.setGrp_ring (d : Data) (g : Nat) (z : Group) (x : Nat) : (d.setGrp g z).ring x = d.ring x := rfl
@[simp] theorem Data.setWin_ring (d : Data) (w : Nat) (z : Win) (x : Nat) : (d.setWin w z).ring x = d.ring x := rfl
@[simp] theorem Data.setChan8_ring (d : Data) (c : Nat) (z : FChan) (x : Nat) : (d.setChan8 c z).ring x = d.ring x := rfl
@[simp] theorem Data.setEng_ring (d : Data) (p : Nat) (z : OptEng) (x : Nat) : (d.setEng p z).ring x = d.ring x := rfl

@[simp] theorem Data.setSts_chan (d : Data) (a i : Nat) (x : Nat) : (d.setSts a i).chan x = d.chan x := rfl
@[simp] theorem Data.bump_chan (d : Data) (a n : Nat) (x : Nat) : (d.bump a n).chan x = d.chan x := rfl
@[simp] theorem Data.highWater_chan (d : Data) (a n : Nat) (x : Nat) : (d.highWater a n).chan x = d.chan x := rfl
@[simp] theorem Data.emit_chan (d : Data) (o : Out) (x : Nat) : (d.emit o).chan x = d.chan x := rfl
@[simp] theorem Data.bumpFree_chan (d : Data) (a : Nat) (x : Nat) : (d.bumpFree a).chan x = d.chan x := rfl
@[simp] theorem Data.touchRec_chan (d : Data) (b : Nat) (dirty : Bool) (x : Nat) : (d.touchRec b dirty).chan x = d.chan x := rfl
@[simp] theorem Data.setPoison_chan (d : Data) (p : List Nat) (x : Nat) : (d.setPoison p).chan x = d.chan x := rfl
@[simp] theorem Data.wrBytes_chan (d : Data) (a : Nat) (l : List Byte) (x : Nat) : (d.wrBytes a l).chan x = d.chan x := rfl
@[simp] theorem Data.wr_chan (d : Data) (a n v : Nat) (x : Nat) : (d.wr a n v).chan x = d.chan x := rfl
@[simp] theorem Data.clear_chan (d : Data) (a n : Nat) (x : Nat) : (d.clear a n).chan x = d.chan x := rfl
@[simp] theorem Data.setThr_chan (d : Data) (t : Nat) (th : Thread) (x : Nat) : (d.setThr t th).chan x = d.chan x := rfl
@[simp] theorem Data.setRing_chan (d : Data) (r : Nat) (v : Ring) (x : Nat) : (d.setRing r v).chan x = d.chan x := rfl
@[simp] theorem Data.setHalf_chan (d : Data) (h : Nat) (v : Half) (x : Nat) : (d.setHalf h v).chan x = d.chan x := rfl
@[simp] theorem Data.setBasket_chan (d : Data) (b : Nat) (z : Basket) (x : Nat) : (d.setBasket b z).chan x = d.chan x := rfl
@[simp] theorem Data.setCtx_chan (d : Data) (b : Nat) (c : PushCtx) (x : Nat) : (d.setCtx b c).chan x = d.chan x := rfl
@[simp] theorem Data.setLink_chan (d : Data) (p l : Nat) (z : Link) (x : Nat) : (d.setLink p l z).chan x = d.chan x := rfl
@[simp] theorem Data.setQp_chan (d : Data) (q : Nat) (z : Qp) (x : Nat) : (d.setQp q z).chan x = d.chan x := rfl
@[simp] theorem Data.setRegion_chan (d : Data) (i : Nat) (r : Region) (x : Nat) : (d.setRegion i r).chan x = d.chan x := rfl
@[simp] theorem Data.setBank_chan (d : Data) (b : Nat) (z : Tab MatEntry) (x : Nat) : (d.setBank b z).chan x = d.chan x := rfl
@[simp] theorem Data.setUnit_chan (d : Data) (g : Nat) (u : SUnit) (x : Nat) : (d.setUnit g u).chan x = d.chan x := rfl
@[simp] theorem Data.onIssue_chan (d : Data) (i : Nat) (f : SIssue → SIssue) (x : Nat) : (d.onIssue i f).chan x = d.chan x := rfl
@[simp] theorem Data.setStream_chan (d : Data) (s : Nat) (m : MStream) (x : Nat) : (d.setStream s m).chan x = d.chan x := rfl
@[simp] theorem Data.toStream_chan (d : Data) (s : Nat) (l : List WItem) (x : Nat) : (d.toStream s l).chan x = d.chan x := rfl
@[simp] theorem Data.setGrp_chan (d : Data) (g : Nat) (z : Group) (x : Nat) : (d.setGrp g z).chan x = d.chan x := rfl
@[simp] theorem Data.setWin_chan (d : Data) (w : Nat) (z : Win) (x : Nat) : (d.setWin w z).chan x = d.chan x := rfl
@[simp] theorem Data.setChan8_chan (d : Data) (c : Nat) (z : FChan) (x : Nat) : (d.setChan8 c z).chan x = d.chan x := rfl
@[simp] theorem Data.setEng_chan (d : Data) (p : Nat) (z : OptEng) (x : Nat) : (d.setEng p z).chan x = d.chan x := rfl

@[simp] theorem Data.setSts_basket (d : Data) (a i : Nat) (x : Nat) : (d.setSts a i).basket x = d.basket x := rfl
@[simp] theorem Data.bump_basket (d : Data) (a n : Nat) (x : Nat) : (d.bump a n).basket x = d.basket x := rfl
@[simp] theorem Data.highWater_basket (d : Data) (a n : Nat) (x : Nat) : (d.highWater a n).basket x = d.basket x := rfl
@[simp] theorem Data.emit_basket (d : Data) (o : Out) (x : Nat) : (d.emit o).basket x = d.basket x := rfl
@[simp] theorem Data.bumpFree_basket (d : Data) (a : Nat) (x : Nat) : (d.bumpFree a).basket x = d.basket x := rfl
@[simp] theorem Data.touchRec_basket (d : Data) (b : Nat) (dirty : Bool) (x : Nat) : (d.touchRec b dirty).basket x = d.basket x := rfl
@[simp] theorem Data.setPoison_basket (d : Data) (p : List Nat) (x : Nat) : (d.setPoison p).basket x = d.basket x := rfl
@[simp] theorem Data.wrBytes_basket (d : Data) (a : Nat) (l : List Byte) (x : Nat) : (d.wrBytes a l).basket x = d.basket x := rfl
@[simp] theorem Data.wr_basket (d : Data) (a n v : Nat) (x : Nat) : (d.wr a n v).basket x = d.basket x := rfl
@[simp] theorem Data.clear_basket (d : Data) (a n : Nat) (x : Nat) : (d.clear a n).basket x = d.basket x := rfl
@[simp] theorem Data.setThr_basket (d : Data) (t : Nat) (th : Thread) (x : Nat) : (d.setThr t th).basket x = d.basket x := rfl
@[simp] theorem Data.setRing_basket (d : Data) (r : Nat) (v : Ring) (x : Nat) : (d.setRing r v).basket x = d.basket x := rfl
@[simp] theorem Data.setChan_basket (d : Data) (c : Nat) (v : Chan) (x : Nat) : (d.setChan c v).basket x = d.basket x := rfl
@[simp] theorem Data.setHalf_basket (d : Data) (h : Nat) (v : Half) (x : Nat) : (d.setHalf h v).basket x = d.basket x := rfl
@[simp] theorem Data.setFlag_basket (d : Data) (c : Nat) (v : Word) (x : Nat) : (d.setFlag c v).basket x = d.basket x := rfl
@[simp] theorem Data.setCtx_basket (d : Data) (b : Nat) (c : PushCtx) (x : Nat) : (d.setCtx b c).basket x = d.basket x := rfl
@[simp] theorem Data.setLink_basket (d : Data) (p l : Nat) (z : Link) (x : Nat) : (d.setLink p l z).basket x = d.basket x := rfl
@[simp] theorem Data.setQp_basket (d : Data) (q : Nat) (z : Qp) (x : Nat) : (d.setQp q z).basket x = d.basket x := rfl
@[simp] theorem Data.setRegion_basket (d : Data) (i : Nat) (r : Region) (x : Nat) : (d.setRegion i r).basket x = d.basket x := rfl
@[simp] theorem Data.setBank_basket (d : Data) (b : Nat) (z : Tab MatEntry) (x : Nat) : (d.setBank b z).basket x = d.basket x := rfl
@[simp] theorem Data.setUnit_basket (d : Data) (g : Nat) (u : SUnit) (x : Nat) : (d.setUnit g u).basket x = d.basket x := rfl
@[simp] theorem Data.onIssue_basket (d : Data) (i : Nat) (f : SIssue → SIssue) (x : Nat) : (d.onIssue i f).basket x = d.basket x := rfl
@[simp] theorem Data.setStream_basket (d : Data) (s : Nat) (m : MStream) (x : Nat) : (d.setStream s m).basket x = d.basket x := rfl
@[simp] theorem Data.toStream_basket (d : Data) (s : Nat) (l : List WItem) (x : Nat) : (d.toStream s l).basket x = d.basket x := rfl
@[simp] theorem Data.setGrp_basket (d : Data) (g : Nat) (z : Group) (x : Nat) : (d.setGrp g z).basket x = d.basket x := rfl
@[simp] theorem Data.setWin_basket (d : Data) (w : Nat) (z : Win) (x : Nat) : (d.setWin w z).basket x = d.basket x := rfl
@[simp] theorem Data.setChan8_basket (d : Data) (c : Nat) (z : FChan) (x : Nat) : (d.setChan8 c z).basket x = d.basket x := rfl
@[simp] theorem Data.setEng_basket (d : Data) (p : Nat) (z : OptEng) (x : Nat) : (d.setEng p z).basket x = d.basket x := rfl

@[simp] theorem Data.setSts_qp (d : Data) (a i : Nat) (x : Nat) : (d.setSts a i).qp x = d.qp x := rfl
@[simp] theorem Data.bump_qp (d : Data) (a n : Nat) (x : Nat) : (d.bump a n).qp x = d.qp x := rfl
@[simp] theorem Data.highWater_qp (d : Data) (a n : Nat) (x : Nat) : (d.highWater a n).qp x = d.qp x := rfl
@[simp] theorem Data.emit_qp (d : Data) (o : Out) (x : Nat) : (d.emit o).qp x = d.qp x := rfl
@[simp] theorem Data.bumpFree_qp (d : Data) (a : Nat) (x : Nat) : (d.bumpFree a).qp x = d.qp x := rfl
@[simp] theorem Data.touchRec_qp (d : Data) (b : Nat) (dirty : Bool) (x : Nat) : (d.touchRec b dirty).qp x = d.qp x := rfl
@[simp] theorem Data.setPoison_qp (d : Data) (p : List Nat) (x : Nat) : (d.setPoison p).qp x = d.qp x := rfl
@[simp] theorem Data.wrBytes_qp (d : Data) (a : Nat) (l : List Byte) (x : Nat) : (d.wrBytes a l).qp x = d.qp x := rfl
@[simp] theorem Data.wr_qp (d : Data) (a n v : Nat) (x : Nat) : (d.wr a n v).qp x = d.qp x := rfl
@[simp] theorem Data.clear_qp (d : Data) (a n : Nat) (x : Nat) : (d.clear a n).qp x = d.qp x := rfl
@[simp] theorem Data.setThr_qp (d : Data) (t : Nat) (th : Thread) (x : Nat) : (d.setThr t th).qp x = d.qp x := rfl
@[simp] theorem Data.setRing_qp (d : Data) (r : Nat) (v : Ring) (x : Nat) : (d.setRing r v).qp x = d.qp x := rfl
@[simp] theorem Data.setChan_qp (d : Data) (c : Nat) (v : Chan) (x : Nat) : (d.setChan c v).qp x = d.qp x := rfl
@[simp] theorem Data.setHalf_qp (d : Data) (h : Nat) (v : Half) (x : Nat) : (d.setHalf h v).qp x = d.qp x := rfl
@[simp] theorem Data.setFlag_qp (d : Data) (c : Nat) (v : Word) (x : Nat) : (d.setFlag c v).qp x = d.qp x := rfl
@[simp] theorem Data.setBasket_qp (d : Data) (b : Nat) (z : Basket) (x : Nat) : (d.setBasket b z).qp x = d.qp x := rfl
@[simp] theorem Data.setCtx_qp (d : Data) (b : Nat) (c : PushCtx) (x : Nat) : (d.setCtx b c).qp x = d.qp x := rfl
@[simp] theorem Data.setLink_qp (d : Data) (p l : Nat) (z : Link) (x : Nat) : (d.setLink p l z).qp x = d.qp x := rfl
@[simp] theorem Data.setBank_qp (d : Data) (b : Nat) (z : Tab MatEntry) (x : Nat) : (d.setBank b z).qp x = d.qp x := rfl
@[simp] theorem Data.setUnit_qp (d : Data) (g : Nat) (u : SUnit) (x : Nat) : (d.setUnit g u).qp x = d.qp x := rfl
@[simp] theorem Data.onIssue_qp (d : Data) (i : Nat) (f : SIssue → SIssue) (x : Nat) : (d.onIssue i f).qp x = d.qp x := rfl
@[simp] theorem Data.setStream_qp (d : Data) (s : Nat) (m : MStream) (x : Nat) : (d.setStream s m).qp x = d.qp x := rfl
@[simp] theorem Data.toStream_qp (d : Data) (s : Nat) (l : List WItem) (x : Nat) : (d.toStream s l).qp x = d.qp x := rfl
@[simp] theorem Data.setGrp_qp (d : Data) (g : Nat) (z : Group) (x : Nat) : (d.setGrp g z).qp x = d.qp x := rfl
@[simp] theorem Data.setWin_qp (d : Data) (w : Nat) (z : Win) (x : Nat) : (d.setWin w z).qp x = d.qp x := rfl
@[simp] theorem Data.setChan8_qp (d : Data) (c : Nat) (z : FChan) (x : Nat) : (d.setChan8 c z).qp x = d.qp x := rfl
@[simp] theorem Data.setEng_qp (d : Data) (p : Nat) (z : OptEng) (x : Nat) : (d.setEng p z).qp x = d.qp x := rfl

@[simp] theorem Data.setSts_sunit (d : Data) (a i : Nat) (x : Nat) : (d.setSts a i).sunit x = d.sunit x := rfl
@[simp] theorem Data.bump_sunit (d : Data) (a n : Nat) (x : Nat) : (d.bump a n).sunit x = d.sunit x := rfl
@[simp] theorem Data.highWater_sunit (d : Data) (a n : Nat) (x : Nat) : (d.highWater a n).sunit x = d.sunit x := rfl
@[simp] theorem Data.emit_sunit (d : Data) (o : Out) (x : Nat) : (d.emit o).sunit x = d.sunit x := rfl
@[simp] theorem Data.bumpFree_sunit (d : Data) (a : Nat) (x : Nat) : (d.bumpFree a).sunit x = d.sunit x := rfl
@[simp] theorem Data.touchRec_sunit (d : Data) (b : Nat) (dirty : Bool) (x : Nat) : (d.touchRec b dirty).sunit x = d.sunit x := rfl
@[simp] theorem Data.setPoison_sunit (d : Data) (p : List Nat) (x : Nat) : (d.setPoison p).sunit x = d.sunit x := rfl
@[simp] theorem Data.wrBytes_sunit (d : Data) (a : Nat) (l : List Byte) (x : Nat) : (d.wrBytes a l).sunit x = d.sunit x := rfl
@[simp] theorem Data.wr_sunit (d : Data) (a n v : Nat) (x : Nat) : (d.wr a n v).sunit x = d.sunit x := rfl
@[simp] theorem Data.clear_sunit (d : Data) (a n : Nat) (x : Nat) : (d.clear a n).sunit x = d.sunit x := rfl
@[simp] theorem Data.setThr_sunit (d : Data) (t : Nat) (th : Thread) (x : Nat) : (d.setThr t th).sunit x = d.sunit x := rfl
@[simp] theorem Data.setRing_sunit (d : Data) (r : Nat) (v : Ring) (x : Nat) : (d.setRing r v).sunit x = d.sunit x := rfl
@[simp] theorem Data.setChan_sunit (d : Data) (c : Nat) (v : Chan) (x : Nat) : (d.setChan c v).sunit x = d.sunit x := rfl
@[simp] theorem Data.setHalf_sunit (d : Data) (h : Nat) (v : Half) (x : Nat) : (d.setHalf h v).sunit x = d.sunit x := rfl
@[simp] theorem Data.setFlag_sunit (d : Data) (c : Nat) (v : Word) (x : Nat) : (d.setFlag c v).sunit x = d.sunit x := rfl
@[simp] theorem Data.setBasket_sunit (d : Data) (b : Nat) (z : Basket) (x : Nat) : (d.setBasket b z).sunit x = d.sunit x := rfl
@[simp] theorem Data.setCtx_sunit (d : Data) (b : Nat) (c : PushCtx) (x : Nat) : (d.setCtx b c).sunit x = d.sunit x := rfl
@[simp] theorem Data.setLink_sunit (d : Data) (p l : Nat) (z : Link) (x : Nat) : (d.setLink p l z).sunit x = d.sunit x := rfl
@[simp] theorem Data.setQp_sunit (d : Data) (q : Nat) (z : Qp) (x : Nat) : (d.setQp q z).sunit x = d.sunit x := rfl
@[simp] theorem Data.setRegion_sunit (d : Data) (i : Nat) (r : Region) (x : Nat) : (d.setRegion i r).sunit x = d.sunit x := rfl
@[simp] theorem Data.setBank_sunit (d : Data) (b : Nat) (z : Tab MatEntry) (x : Nat) : (d.setBank b z).sunit x = d.sunit x := rfl
@[simp] theorem Data.setStream_sunit (d : Data) (s : Nat) (m : MStream) (x : Nat) : (d.setStream s m).sunit x = d.sunit x := rfl
@[simp] theorem Data.toStream_sunit (d : Data) (s : Nat) (l : List WItem) (x : Nat) : (d.toStream s l).sunit x = d.sunit x := rfl
@[simp] theorem Data.setGrp_sunit (d : Data) (g : Nat) (z : Group) (x : Nat) : (d.setGrp g z).sunit x = d.sunit x := rfl
@[simp] theorem Data.setWin_sunit (d : Data) (w : Nat) (z : Win) (x : Nat) : (d.setWin w z).sunit x = d.sunit x := rfl
@[simp] theorem Data.setChan8_sunit (d : Data) (c : Nat) (z : FChan) (x : Nat) : (d.setChan8 c z).sunit x = d.sunit x := rfl
@[simp] theorem Data.setEng_sunit (d : Data) (p : Nat) (z : OptEng) (x : Nat) : (d.setEng p z).sunit x = d.sunit x := rfl

@[simp] theorem Data.setSts_link (d : Data) (a i : Nat) (x y : Nat) : (d.setSts a i).link x y = d.link x y := rfl
@[simp] theorem Data.bump_link (d : Data) (a n : Nat) (x y : Nat) : (d.bump a n).link x y = d.link x y := rfl
@[simp] theorem Data.highWater_link (d : Data) (a n : Nat) (x y : Nat) : (d.highWater a n).link x y = d.link x y := rfl
@[simp] theorem Data.emit_link (d : Data) (o : Out) (x y : Nat) : (d.emit o).link x y = d.link x y := rfl
@[simp] theorem Data.bumpFree_link (d : Data) (a : Nat) (x y : Nat) : (d.bumpFree a).link x y = d.link x y := rfl
@[simp] theorem Data.touchRec_link (d : Data) (b : Nat) (dirty : Bool) (x y : Nat) : (d.touchRec b dirty).link x y = d.link x y := rfl
@[simp] theorem Data.setPoison_link (d : Data) (p : List Nat) (x y : Nat) : (d.setPoison p).link x y = d.link x y := rfl
@[simp] theorem Data.wrBytes_link (d : Data) (a : Nat) (l : List Byte) (x y : Nat) : (d.wrBytes a l).link x y = d.link x y := rfl
@[simp] theorem Data.wr_link (d : Data) (a n v : Nat) (x y : Nat) : (d.wr a n v).link x y = d.link x y := rfl
@[simp] theorem Data.clear_link (d : Data) (a n : Nat) (x y : Nat) : (d.clear a n).link x y = d.link x y := rfl
@[simp] theorem Data.setThr_link (d : Data) (t : Nat) (th : Thread) (x y : Nat) : (d.setThr t th).link x y = d.link x y := rfl
@[simp] theorem Data.setRing_link (d : Data) (r : Nat) (v : Ring) (x y : Nat) : (d.setRing r v).link x y = d.link x y := rfl
@[simp] theorem Data.setChan_link (d : Data) (c : Nat) (v : Chan) (x y : Nat) : (d.setChan c v).link x y = d.link x y := rfl
@[simp] theorem Data.setHalf_link (d : Data) (h : Nat) (v : Half) (x y : Nat) : (d.setHalf h v).link x y = d.link x y := rfl
@[simp] theorem Data.setFlag_link (d : Data) (c : Nat) (v : Word) (x y : Nat) : (d.setFlag c v).link x y = d.link x y := rfl
@[simp] theorem Data.setBasket_link (d : Data) (b : Nat) (z : Basket) (x y : Nat) : (d.setBasket b z).link x y = d.link x y := rfl
@[simp] theorem Data.setCtx_link (d : Data) (b : Nat) (c : PushCtx) (x y : Nat) : (d.setCtx b c).link x y = d.link x y := rfl
@[simp] theorem Data.setQp_link (d : Data) (q : Nat) (z : Qp) (x y : Nat) : (d.setQp q z).link x y = d.link x y := rfl
@[simp] theorem Data.setRegion_link (d : Data) (i : Nat) (r : Region) (x y : Nat) : (d.setRegion i r).link x y = d.link x y := rfl
@[simp] theorem Data.setBank_link (d : Data) (b : Nat) (z : Tab MatEntry) (x y : Nat) : (d.setBank b z).link x y = d.link x y := rfl
@[simp] theorem Data.setUnit_link (d : Data) (g : Nat) (u : SUnit) (x y : Nat) : (d.setUnit g u).link x y = d.link x y := rfl
@[simp] theorem Data.onIssue_link (d : Data) (i : Nat) (f : SIssue → SIssue) (x y : Nat) : (d.onIssue i f).link x y = d.link x y := rfl
@[simp] theorem Data.setStream_link (d : Data) (s : Nat) (m : MStream) (x y : Nat) : (d.setStream s m).link x y = d.link x y := rfl
@[simp] theorem Data.toStream_link (d : Data) (s : Nat) (l : List WItem) (x y : Nat) : (d.toStream s l).link x y = d.link x y := rfl
@[simp] theorem Data.setGrp_link (d : Data) (g : Nat) (z : Group) (x y : Nat) : (d.setGrp g z).link x y = d.link x y := rfl
@[simp] theorem Data.setWin_link (d : Data) (w : Nat) (z : Win) (x y : Nat) : (d.setWin w z).link x y = d.link x y := rfl
@[simp] theorem Data.setChan8_link (d : Data) (c : Nat) (z : FChan) (x y : Nat) : (d.setChan8 c z).link x y = d.link x y := rfl
@[simp] theorem Data.setEng_link (d : Data) (p : Nat) (z : OptEng) (x y : Nat) : (d.setEng p z).link x y = d.link x y := rfl
@[simp] theorem Data.setSts_rd (d : Data) (a i : Nat) (at_ len : Nat) : (d.setSts a i).rd at_ len = d.rd at_ len := rfl
@[simp] theorem Data.bump_rd (d : Data) (a n : Nat) (at_ len : Nat) : (d.bump a n).rd at_ len = d.rd at_ len := rfl
@[simp] theorem Data.highWater_rd (d : Data) (a n : Nat) (at_ len : Nat) : (d.highWater a n).rd at_ len = d.rd at_ len := rfl
@[simp] theorem Data.emit_rd (d : Data) (o : Out) (at_ len : Nat) : (d.emit o).rd at_ len = d.rd at_ len := rfl
@[simp] theorem Data.bumpFree_rd (d : Data) (a : Nat) (at_ len : Nat) : (d.bumpFree a).rd at_ len = d.rd at_ len := rfl
@[simp] theorem Data.touchRec_rd (d : Data) (b : Nat) (dirty : Bool) (at_ len : Nat) : (d.touchRec b dirty).rd at_ len = d.rd at_ len := rfl
@[simp] theorem Data.setPoison_rd (d : Data) (p : List Nat) (at_ len : Nat) : (d.setPoison p).rd at_ len = d.rd at_ len := rfl
@[simp] theorem Data.setThr_rd (d : Data) (t : Nat) (th : Thread) (at_ len : Nat) : (d.setThr t th).rd at_ len = d.rd at_ len := rfl
@[simp] theorem Data.setRing_rd (d : Data) (r : Nat) (v : Ring) (at_ len : Nat) : (d.setRing r v).rd at_ len = d.rd at_ len := rfl
@[simp] theorem Data.setChan_rd (d : Data) (c : Nat) (v : Chan) (at_ len : Nat) : (d.setChan c v).rd at_ len = d.rd at_ len := rfl
@[simp] theorem Data.setHalf_rd (d : Data) (h : Nat) (v : Half) (at_ len : Nat) : (d.setHalf h v).rd at_ len = d.rd at_ len := rfl
@[simp] theorem Data.setFlag_rd (d : Data) (c : Nat) (v : Word) (at_ len : Nat) : (d.setFlag c v).rd at_ len = d.rd at_ len := rfl
@[simp] theorem Data.setBasket_rd (d : Data) (b : Nat) (x : Basket) (at_ len : Nat) : (d.setBasket b x).rd at_ len = d.rd at_ len := rfl
@[simp] theorem Data.setCtx_rd (d : Data) (b : Nat) (c : PushCtx) (at_ len : Nat) : (d.setCtx b c).rd at_ len = d.rd at_ len := rfl
@[simp] theorem Data.setLink_rd (d : Data) (p l : Nat) (x : Link) (at_ len : Nat) : (d.setLink p l x).rd at_ len = d.rd at_ len := rfl
@[simp] theorem Data.setQp_rd (d : Data) (q : Nat) (x : Qp) (at_ len : Nat) : (d.setQp q x).rd at_ len = d.rd at_ len := rfl
@[simp] theorem Data.setRegion_rd (d : Data) (i : Nat) (r : Region) (at_ len : Nat) : (d.setRegion i r).rd at_ len = d.rd at_ len := rfl
@[simp] theorem Data.setBank_rd (d : Data) (b : Nat) (x : Tab MatEntry) (at_ len : Nat) : (d.setBank b x).rd at_ len = d.rd at_ len := rfl
@[simp] theorem Data.setUnit_rd (d : Data) (g : Nat) (u : SUnit) (at_ len : Nat) : (d.setUnit g u).rd at_ len = d.rd at_ len := rfl
@[simp] theorem Data.onIssue_rd (d : Data) (i : Nat) (f : SIssue → SIssue) (at_ len : Nat) : (d.onIssue i f).rd at_ len = d.rd at_ len := rfl
@[simp] theorem Data.setStream_rd (d : Data) (s : Nat) (m : MStream) (at_ len : Nat) : (d.setStream s m).rd at_ len = d.rd at_ len := rfl
@[simp] theorem Data.toStream_rd (d : Data) (s : Nat) (l : List WItem) (at_ len : Nat) : (d.toStream s l).rd at_ len = d.rd at_ len := rfl
@[simp] theorem Data.setGrp_rd (d : Data) (g : Nat) (x : Group) (at_ len : Nat) : (d.setGrp g x).rd at_ len = d.rd at_ len := rfl
@[simp] theorem Data.setWin_rd (d : Data) (w : Nat) (x : Win) (at_ len : Nat) : (d.setWin w x).rd at_ len = d.rd at_ len := rfl
@[simp] theorem Data.setChan8_rd (d : Data) (c : Nat) (x : FChan) (at_ len : Nat) : (d.setChan8 c x).rd at_ len = d.rd at_ len := rfl
@[simp] theorem Data.setEng_rd (d : Data) (p : Nat) (x : OptEng) (at_ len : Nat) : (d.setEng p x).rd at_ len = d.rd at_ len := rfl
@[simp] theorem Data.setThr_ring (d : Data) (t : Nat) (th : Thread) (r : Nat) : (d.setThr t th).ring r = d.ring r := rfl
@[simp] theorem Data.setRing_thr (d : Data) (r : Nat) (v : Ring) (t : Nat) : (d.setRing r v).thr t = d.thr t := rfl
@[simp] theorem Data.setRegion_qp (d : Data) (i : Nat) (r : Region) (q : Nat) : (d.setRegion i r).qp q = d.qp q := rfl

/-! ### The control plane -/

@[simp] theorem Ctl.setWord_ticks (k : Ctl) (key : Nat) (v : Word) : (k.setWord key v).ticks = k.ticks := rfl
@[simp] theorem Ctl.setWord_ns (k : Ctl) (key : Nat) (v : Word) : (k.setWord key v).ns = k.ns := rfl
@[simp] theorem Ctl.setWord_frac (k : Ctl) (key : Nat) (v : Word) : (k.setWord key v).frac = k.frac := rfl
@[simp] theorem Ctl.setWord_progs (k : Ctl) (key : Nat) (v : Word) : (k.setWord key v).progs = k.progs := rfl
@[simp] theorem Ctl.setWord_sec (k : Ctl) (key : Nat) (v : Word) : (k.setWord key v).sec = k.sec := rfl
@[simp] theorem Ctl.setWord_tim (k : Ctl) (key : Nat) (v : Word) : (k.setWord key v).tim = k.tim := rfl
@[simp] theorem Ctl.setWord_pwr (k : Ctl) (key : Nat) (v : Word) : (k.setWord key v).pwr = k.pwr := rfl
@[simp] theorem Ctl.setWord_rst (k : Ctl) (key : Nat) (v : Word) : (k.setWord key v).rst = k.rst := rfl
@[simp] theorem Ctl.setWord_down (k : Ctl) (key : Nat) (v : Word) : (k.setWord key v).down = k.down := rfl
@[simp] theorem Ctl.setWord_cells (k : Ctl) (key : Nat) (v : Word) : (k.setWord key v).cells = k.cells := rfl
@[simp] theorem Ctl.setFld_ticks (k : Ctl) (key lo w v : Nat) : (k.setFld key lo w v).ticks = k.ticks := rfl
@[simp] theorem Ctl.setFld_ns (k : Ctl) (key lo w v : Nat) : (k.setFld key lo w v).ns = k.ns := rfl
@[simp] theorem Ctl.setFld_frac (k : Ctl) (key lo w v : Nat) : (k.setFld key lo w v).frac = k.frac := rfl
@[simp] theorem Ctl.setFld_progs (k : Ctl) (key lo w v : Nat) : (k.setFld key lo w v).progs = k.progs := rfl
@[simp] theorem Ctl.setFld_sec (k : Ctl) (key lo w v : Nat) : (k.setFld key lo w v).sec = k.sec := rfl
@[simp] theorem Ctl.setFld_tim (k : Ctl) (key lo w v : Nat) : (k.setFld key lo w v).tim = k.tim := rfl
@[simp] theorem Ctl.setFld_pwr (k : Ctl) (key lo w v : Nat) : (k.setFld key lo w v).pwr = k.pwr := rfl
@[simp] theorem Ctl.setFld_rst (k : Ctl) (key lo w v : Nat) : (k.setFld key lo w v).rst = k.rst := rfl
@[simp] theorem Ctl.setFld_down (k : Ctl) (key lo w v : Nat) : (k.setFld key lo w v).down = k.down := rfl
@[simp] theorem Ctl.setFld_cells (k : Ctl) (key lo w v : Nat) : (k.setFld key lo w v).cells = k.cells := rfl
@[simp] theorem Ctl.setWord_shell_staged (k : Ctl) (key : Nat) (v : Word) : (k.setWord key v).shell.staged = k.shell.staged := rfl
@[simp] theorem Ctl.setWord_shell_commits (k : Ctl) (key : Nat) (v : Word) : (k.setWord key v).shell.commits = k.shell.commits := rfl
@[simp] theorem Ctl.setWord_shell_sels (k : Ctl) (key : Nat) (v : Word) : (k.setWord key v).shell.sels = k.shell.sels := rfl
@[simp] theorem Ctl.setWord_shell_uTrap (k : Ctl) (key : Nat) (v : Word) : (k.setWord key v).shell.uTrap = k.shell.uTrap := rfl
@[simp] theorem Ctl.setWord_shell_dTrap (k : Ctl) (key : Nat) (v : Word) : (k.setWord key v).shell.dTrap = k.shell.dTrap := rfl
@[simp] theorem Ctl.setWord_shell_mirror (k : Ctl) (key : Nat) (v : Word) : (k.setWord key v).shell.mirror = k.shell.mirror := rfl

@[simp] theorem Ctl.word_setWord_self (k : Ctl) (key : Nat) (v : Word) : (k.setWord key v).word key = v &&& maskAt (fun _ => true) key := Tab.getD_set_self _ key _ _
theorem Ctl.word_setWord_ne (k : Ctl) {key j : Nat} (v : Word) (h : j ≠ key) : (k.setWord key v).word j = k.word j := by
  simp only [Ctl.word, Ctl.setWord, Tab.getD_set_ne _ _ _ h]

/-! ### A thread's registers -/


@[simp] theorem Thread.next_part (th : Thread) (len : Nat) : (th.next len).part = th.part := rfl
@[simp] theorem Thread.next_prog (th : Thread) (len : Nat) : (th.next len).prog = th.prog := rfl
@[simp] theorem Thread.next_bsk (th : Thread) (len : Nat) : (th.next len).bsk = th.bsk := rfl
@[simp] theorem Thread.next_cls (th : Thread) (len : Nat) : (th.next len).cls = th.cls := rfl
@[simp] theorem Thread.next_tag (th : Thread) (len : Nat) : (th.next len).tag = th.tag := rfl
@[simp] theorem Thread.next_rt (th : Thread) (len : Nat) : (th.next len).rt = th.rt := rfl
@[simp] theorem Thread.next_s (th : Thread) (len : Nat) : (th.next len).s = th.s := rfl
@[simp] theorem Thread.next_d (th : Thread) (len : Nat) : (th.next len).d = th.d := rfl
@[simp] theorem Thread.next_p1 (th : Thread) (len : Nat) : (th.next len).p1 = th.p1 := rfl
@[simp] theorem Thread.next_p2 (th : Thread) (len : Nat) : (th.next len).p2 = th.p2 := rfl
@[simp] theorem Thread.next_p3 (th : Thread) (len : Nat) : (th.next len).p3 = th.p3 := rfl
@[simp] theorem Thread.next_dmask (th : Thread) (len : Nat) : (th.next len).dmask = th.dmask := rfl
@[simp] theorem Thread.next_smask (th : Thread) (len : Nat) : (th.next len).smask = th.smask := rfl
@[simp] theorem Thread.next_slice (th : Thread) (len : Nat) : (th.next len).slice = th.slice := rfl
@[simp] theorem Thread.next_run (th : Thread) (len : Nat) : (th.next len).run = th.run := rfl
@[simp] theorem Thread.next_wait (th : Thread) (len : Nat) : (th.next len).wait = th.wait := rfl
@[simp] theorem Thread.next_since (th : Thread) (len : Nat) : (th.next len).since = th.since := rfl
@[simp] theorem Thread.next_ops (th : Thread) (len : Nat) : (th.next len).ops = th.ops := rfl
@[simp] theorem Thread.next_held (th : Thread) (len : Nat) : (th.next len).held = th.held := rfl
@[simp] theorem Thread.next_nextOp (th : Thread) (len : Nat) : (th.next len).nextOp = th.nextOp := rfl
@[simp] theorem Thread.next_acc (th : Thread) (len : Nat) : (th.next len).acc = th.acc := rfl
@[simp] theorem Thread.next_lost (th : Thread) (len : Nat) : (th.next len).lost = th.lost := rfl
@[simp] theorem Thread.next_frac (th : Thread) (len : Nat) : (th.next len).frac = th.frac := rfl
@[simp] theorem Thread.next_ending (th : Thread) (len : Nat) : (th.next len).ending = th.ending := rfl

@[simp] theorem Thread.jump_part (th : Thread) (x : Nat) : (th.jump x).part = th.part := rfl
@[simp] theorem Thread.jump_prog (th : Thread) (x : Nat) : (th.jump x).prog = th.prog := rfl
@[simp] theorem Thread.jump_bsk (th : Thread) (x : Nat) : (th.jump x).bsk = th.bsk := rfl
@[simp] theorem Thread.jump_cls (th : Thread) (x : Nat) : (th.jump x).cls = th.cls := rfl
@[simp] theorem Thread.jump_tag (th : Thread) (x : Nat) : (th.jump x).tag = th.tag := rfl
@[simp] theorem Thread.jump_rt (th : Thread) (x : Nat) : (th.jump x).rt = th.rt := rfl
@[simp] theorem Thread.jump_s (th : Thread) (x : Nat) : (th.jump x).s = th.s := rfl
@[simp] theorem Thread.jump_d (th : Thread) (x : Nat) : (th.jump x).d = th.d := rfl
@[simp] theorem Thread.jump_p1 (th : Thread) (x : Nat) : (th.jump x).p1 = th.p1 := rfl
@[simp] theorem Thread.jump_p2 (th : Thread) (x : Nat) : (th.jump x).p2 = th.p2 := rfl
@[simp] theorem Thread.jump_p3 (th : Thread) (x : Nat) : (th.jump x).p3 = th.p3 := rfl
@[simp] theorem Thread.jump_dmask (th : Thread) (x : Nat) : (th.jump x).dmask = th.dmask := rfl
@[simp] theorem Thread.jump_smask (th : Thread) (x : Nat) : (th.jump x).smask = th.smask := rfl
@[simp] theorem Thread.jump_slice (th : Thread) (x : Nat) : (th.jump x).slice = th.slice := rfl
@[simp] theorem Thread.jump_run (th : Thread) (x : Nat) : (th.jump x).run = th.run := rfl
@[simp] theorem Thread.jump_wait (th : Thread) (x : Nat) : (th.jump x).wait = th.wait := rfl
@[simp] theorem Thread.jump_since (th : Thread) (x : Nat) : (th.jump x).since = th.since := rfl
@[simp] theorem Thread.jump_ops (th : Thread) (x : Nat) : (th.jump x).ops = th.ops := rfl
@[simp] theorem Thread.jump_held (th : Thread) (x : Nat) : (th.jump x).held = th.held := rfl
@[simp] theorem Thread.jump_nextOp (th : Thread) (x : Nat) : (th.jump x).nextOp = th.nextOp := rfl
@[simp] theorem Thread.jump_acc (th : Thread) (x : Nat) : (th.jump x).acc = th.acc := rfl
@[simp] theorem Thread.jump_lost (th : Thread) (x : Nat) : (th.jump x).lost = th.lost := rfl
@[simp] theorem Thread.jump_frac (th : Thread) (x : Nat) : (th.jump x).frac = th.frac := rfl
@[simp] theorem Thread.jump_ending (th : Thread) (x : Nat) : (th.jump x).ending = th.ending := rfl

@[simp] theorem Thread.setD_part (th : Thread) (n : Nat) (v : Desc) : (th.setD n v).part = th.part := rfl
@[simp] theorem Thread.setD_prog (th : Thread) (n : Nat) (v : Desc) : (th.setD n v).prog = th.prog := rfl
@[simp] theorem Thread.setD_bsk (th : Thread) (n : Nat) (v : Desc) : (th.setD n v).bsk = th.bsk := rfl
@[simp] theorem Thread.setD_cls (th : Thread) (n : Nat) (v : Desc) : (th.setD n v).cls = th.cls := rfl
@[simp] theorem Thread.setD_tag (th : Thread) (n : Nat) (v : Desc) : (th.setD n v).tag = th.tag := rfl
@[simp] theorem Thread.setD_rt (th : Thread) (n : Nat) (v : Desc) : (th.setD n v).rt = th.rt := rfl
@[simp] theorem Thread.setD_pc (th : Thread) (n : Nat) (v : Desc) : (th.setD n v).pc = th.pc := rfl
@[simp] theorem Thread.setD_s (th : Thread) (n : Nat) (v : Desc) : (th.setD n v).s = th.s := rfl
@[simp] theorem Thread.setD_p1 (th : Thread) (n : Nat) (v : Desc) : (th.setD n v).p1 = th.p1 := rfl
@[simp] theorem Thread.setD_p2 (th : Thread) (n : Nat) (v : Desc) : (th.setD n v).p2 = th.p2 := rfl
@[simp] theorem Thread.setD_p3 (th : Thread) (n : Nat) (v : Desc) : (th.setD n v).p3 = th.p3 := rfl
@[simp] theorem Thread.setD_dmask (th : Thread) (n : Nat) (v : Desc) : (th.setD n v).dmask = th.dmask := rfl
@[simp] theorem Thread.setD_smask (th : Thread) (n : Nat) (v : Desc) : (th.setD n v).smask = th.smask := rfl
@[simp] theorem Thread.setD_issued (th : Thread) (n : Nat) (v : Desc) : (th.setD n v).issued = th.issued := rfl
@[simp] theorem Thread.setD_slice (th : Thread) (n : Nat) (v : Desc) : (th.setD n v).slice = th.slice := rfl
@[simp] theorem Thread.setD_run (th : Thread) (n : Nat) (v : Desc) : (th.setD n v).run = th.run := rfl
@[simp] theorem Thread.setD_wait (th : Thread) (n : Nat) (v : Desc) : (th.setD n v).wait = th.wait := rfl
@[simp] theorem Thread.setD_since (th : Thread) (n : Nat) (v : Desc) : (th.setD n v).since = th.since := rfl
@[simp] theorem Thread.setD_ops (th : Thread) (n : Nat) (v : Desc) : (th.setD n v).ops = th.ops := rfl
@[simp] theorem Thread.setD_held (th : Thread) (n : Nat) (v : Desc) : (th.setD n v).held = th.held := rfl
@[simp] theorem Thread.setD_nextOp (th : Thread) (n : Nat) (v : Desc) : (th.setD n v).nextOp = th.nextOp := rfl
@[simp] theorem Thread.setD_acc (th : Thread) (n : Nat) (v : Desc) : (th.setD n v).acc = th.acc := rfl
@[simp] theorem Thread.setD_lost (th : Thread) (n : Nat) (v : Desc) : (th.setD n v).lost = th.lost := rfl
@[simp] theorem Thread.setD_frac (th : Thread) (n : Nat) (v : Desc) : (th.setD n v).frac = th.frac := rfl
@[simp] theorem Thread.setD_ending (th : Thread) (n : Nat) (v : Desc) : (th.setD n v).ending = th.ending := rfl

@[simp] theorem Thread.dropDead_part (th : Thread) : (th.dropDead).part = th.part := rfl
@[simp] theorem Thread.dropDead_prog (th : Thread) : (th.dropDead).prog = th.prog := rfl
@[simp] theorem Thread.dropDead_bsk (th : Thread) : (th.dropDead).bsk = th.bsk := rfl
@[simp] theorem Thread.dropDead_cls (th : Thread) : (th.dropDead).cls = th.cls := rfl
@[simp] theorem Thread.dropDead_tag (th : Thread) : (th.dropDead).tag = th.tag := rfl
@[simp] theorem Thread.dropDead_rt (th : Thread) : (th.dropDead).rt = th.rt := rfl
@[simp] theorem Thread.dropDead_pc (th : Thread) : (th.dropDead).pc = th.pc := rfl
@[simp] theorem Thread.dropDead_p1 (th : Thread) : (th.dropDead).p1 = th.p1 := rfl
@[simp] theorem Thread.dropDead_p2 (th : Thread) : (th.dropDead).p2 = th.p2 := rfl
@[simp] theorem Thread.dropDead_p3 (th : Thread) : (th.dropDead).p3 = th.p3 := rfl
@[simp] theorem Thread.dropDead_dmask (th : Thread) : (th.dropDead).dmask = th.dmask := rfl
@[simp] theorem Thread.dropDead_smask (th : Thread) : (th.dropDead).smask = th.smask := rfl
@[simp] theorem Thread.dropDead_issued (th : Thread) : (th.dropDead).issued = th.issued := rfl
@[simp] theorem Thread.dropDead_slice (th : Thread) : (th.dropDead).slice = th.slice := rfl
@[simp] theorem Thread.dropDead_run (th : Thread) : (th.dropDead).run = th.run := rfl
@[simp] theorem Thread.dropDead_wait (th : Thread) : (th.dropDead).wait = th.wait := rfl
@[simp] theorem Thread.dropDead_since (th : Thread) : (th.dropDead).since = th.since := rfl
@[simp] theorem Thread.dropDead_ops (th : Thread) : (th.dropDead).ops = th.ops := rfl
@[simp] theorem Thread.dropDead_held (th : Thread) : (th.dropDead).held = th.held := rfl
@[simp] theorem Thread.dropDead_nextOp (th : Thread) : (th.dropDead).nextOp = th.nextOp := rfl
@[simp] theorem Thread.dropDead_acc (th : Thread) : (th.dropDead).acc = th.acc := rfl
@[simp] theorem Thread.dropDead_lost (th : Thread) : (th.dropDead).lost = th.lost := rfl
@[simp] theorem Thread.dropDead_frac (th : Thread) : (th.dropDead).frac = th.frac := rfl
@[simp] theorem Thread.dropDead_ending (th : Thread) : (th.dropDead).ending = th.ending := rfl

@[simp] theorem Thread.setS_part (th : Thread) (n : Nat) (v : Word) : (th.setS n v).part = th.part := by unfold Thread.setS; split <;> rfl
@[simp] theorem Thread.setS_prog (th : Thread) (n : Nat) (v : Word) : (th.setS n v).prog = th.prog := by unfold Thread.setS; split <;> rfl
@[simp] theorem Thread.setS_bsk (th : Thread) (n : Nat) (v : Word) : (th.setS n v).bsk = th.bsk := by unfold Thread.setS; split <;> rfl
@[simp] theorem Thread.setS_cls (th : Thread) (n : Nat) (v : Word) : (th.setS n v).cls = th.cls := by unfold Thread.setS; split <;> rfl
@[simp] theorem Thread.setS_tag (th : Thread) (n : Nat) (v : Word) : (th.setS n v).tag = th.tag := by unfold Thread.setS; split <;> rfl
@[simp] theorem Thread.setS_rt (th : Thread) (n : Nat) (v : Word) : (th.setS n v).rt = th.rt := by unfold Thread.setS; split <;> rfl
@[simp] theorem Thread.setS_pc (th : Thread) (n : Nat) (v : Word) : (th.setS n v).pc = th.pc := by unfold Thread.setS; split <;> rfl
@[simp] theorem Thread.setS_d (th : Thread) (n : Nat) (v : Word) : (th.setS n v).d = th.d := by unfold Thread.setS; split <;> rfl
@[simp] theorem Thread.setS_p1 (th : Thread) (n : Nat) (v : Word) : (th.setS n v).p1 = th.p1 := by unfold Thread.setS; split <;> rfl
@[simp] theorem Thread.setS_p2 (th : Thread) (n : Nat) (v : Word) : (th.setS n v).p2 = th.p2 := by unfold Thread.setS; split <;> rfl
@[simp] theorem Thread.setS_p3 (th : Thread) (n : Nat) (v : Word) : (th.setS n v).p3 = th.p3 := by unfold Thread.setS; split <;> rfl
@[simp] theorem Thread.setS_dmask (th : Thread) (n : Nat) (v : Word) : (th.setS n v).dmask = th.dmask := by unfold Thread.setS; split <;> rfl
@[simp] theorem Thread.setS_smask (th : Thread) (n : Nat) (v : Word) : (th.setS n v).smask = th.smask := by unfold Thread.setS; split <;> rfl
@[simp] theorem Thread.setS_issued (th : Thread) (n : Nat) (v : Word) : (th.setS n v).issued = th.issued := by unfold Thread.setS; split <;> rfl
@[simp] theorem Thread.setS_slice (th : Thread) (n : Nat) (v : Word) : (th.setS n v).slice = th.slice := by unfold Thread.setS; split <;> rfl
@[simp] theorem Thread.setS_run (th : Thread) (n : Nat) (v : Word) : (th.setS n v).run = th.run := by unfold Thread.setS; split <;> rfl
@[simp] theorem Thread.setS_wait (th : Thread) (n : Nat) (v : Word) : (th.setS n v).wait = th.wait := by unfold Thread.setS; split <;> rfl
@[simp] theorem Thread.setS_since (th : Thread) (n : Nat) (v : Word) : (th.setS n v).since = th.since := by unfold Thread.setS; split <;> rfl
@[simp] theorem Thread.setS_ops (th : Thread) (n : Nat) (v : Word) : (th.setS n v).ops = th.ops := by unfold Thread.setS; split <;> rfl
@[simp] theorem Thread.setS_held (th : Thread) (n : Nat) (v : Word) : (th.setS n v).held = th.held := by unfold Thread.setS; split <;> rfl
@[simp] theorem Thread.setS_nextOp (th : Thread) (n : Nat) (v : Word) : (th.setS n v).nextOp = th.nextOp := by unfold Thread.setS; split <;> rfl
@[simp] theorem Thread.setS_acc (th : Thread) (n : Nat) (v : Word) : (th.setS n v).acc = th.acc := by unfold Thread.setS; split <;> rfl
@[simp] theorem Thread.setS_lost (th : Thread) (n : Nat) (v : Word) : (th.setS n v).lost = th.lost := by unfold Thread.setS; split <;> rfl
@[simp] theorem Thread.setS_frac (th : Thread) (n : Nat) (v : Word) : (th.setS n v).frac = th.frac := by unfold Thread.setS; split <;> rfl
@[simp] theorem Thread.setS_ending (th : Thread) (n : Nat) (v : Word) : (th.setS n v).ending = th.ending := by unfold Thread.setS; split <;> rfl

@[simp] theorem Thread.setP_part (th : Thread) (n : Nat) (b : Bool) : (th.setP n b).part = th.part := by unfold Thread.setP; split <;> rfl
@[simp] theorem Thread.setP_prog (th : Thread) (n : Nat) (b : Bool) : (th.setP n b).prog = th.prog := by unfold Thread.setP; split <;> rfl
@[simp] theorem Thread.setP_bsk (th : Thread) (n : Nat) (b : Bool) : (th.setP n b).bsk = th.bsk := by unfold Thread.setP; split <;> rfl
@[simp] theorem Thread.setP_cls (th : Thread) (n : Nat) (b : Bool) : (th.setP n b).cls = th.cls := by unfold Thread.setP; split <;> rfl
@[simp] theorem Thread.setP_tag (th : Thread) (n : Nat) (b : Bool) : (th.setP n b).tag = th.tag := by unfold Thread.setP; split <;> rfl
@[simp] theorem Thread.setP_rt (th : Thread) (n : Nat) (b : Bool) : (th.setP n b).rt = th.rt := by unfold Thread.setP; split <;> rfl
@[simp] theorem Thread.setP_pc (th : Thread) (n : Nat) (b : Bool) : (th.setP n b).pc = th.pc := by unfold Thread.setP; split <;> rfl
@[simp] theorem Thread.setP_s (th : Thread) (n : Nat) (b : Bool) : (th.setP n b).s = th.s := by unfold Thread.setP; split <;> rfl
@[simp] theorem Thread.setP_d (th : Thread) (n : Nat) (b : Bool) : (th.setP n b).d = th.d := by unfold Thread.setP; split <;> rfl
@[simp] theorem Thread.setP_dmask (th : Thread) (n : Nat) (b : Bool) : (th.setP n b).dmask = th.dmask := by unfold Thread.setP; split <;> rfl
@[simp] theorem Thread.setP_smask (th : Thread) (n : Nat) (b : Bool) : (th.setP n b).smask = th.smask := by unfold Thread.setP; split <;> rfl
@[simp] theorem Thread.setP_issued (th : Thread) (n : Nat) (b : Bool) : (th.setP n b).issued = th.issued := by unfold Thread.setP; split <;> rfl
@[simp] theorem Thread.setP_slice (th : Thread) (n : Nat) (b : Bool) : (th.setP n b).slice = th.slice := by unfold Thread.setP; split <;> rfl
@[simp] theorem Thread.setP_run (th : Thread) (n : Nat) (b : Bool) : (th.setP n b).run = th.run := by unfold Thread.setP; split <;> rfl
@[simp] theorem Thread.setP_wait (th : Thread) (n : Nat) (b : Bool) : (th.setP n b).wait = th.wait := by unfold Thread.setP; split <;> rfl
@[simp] theorem Thread.setP_since (th : Thread) (n : Nat) (b : Bool) : (th.setP n b).since = th.since := by unfold Thread.setP; split <;> rfl
@[simp] theorem Thread.setP_ops (th : Thread) (n : Nat) (b : Bool) : (th.setP n b).ops = th.ops := by unfold Thread.setP; split <;> rfl
@[simp] theorem Thread.setP_held (th : Thread) (n : Nat) (b : Bool) : (th.setP n b).held = th.held := by unfold Thread.setP; split <;> rfl
@[simp] theorem Thread.setP_nextOp (th : Thread) (n : Nat) (b : Bool) : (th.setP n b).nextOp = th.nextOp := by unfold Thread.setP; split <;> rfl
@[simp] theorem Thread.setP_acc (th : Thread) (n : Nat) (b : Bool) : (th.setP n b).acc = th.acc := by unfold Thread.setP; split <;> rfl
@[simp] theorem Thread.setP_lost (th : Thread) (n : Nat) (b : Bool) : (th.setP n b).lost = th.lost := by unfold Thread.setP; split <;> rfl
@[simp] theorem Thread.setP_frac (th : Thread) (n : Nat) (b : Bool) : (th.setP n b).frac = th.frac := by unfold Thread.setP; split <;> rfl
@[simp] theorem Thread.setP_ending (th : Thread) (n : Nat) (b : Bool) : (th.setP n b).ending = th.ending := by unfold Thread.setP; split <;> rfl

@[simp] theorem Thread.next_pc (th : Thread) (len : Nat) : (th.next len).pc = th.pc + len := rfl
@[simp] theorem Thread.next_issued (th : Thread) (len : Nat) : (th.next len).issued = th.issued + 1 := rfl
@[simp] theorem Thread.jump_pc (th : Thread) (x : Nat) : (th.jump x).pc = x := rfl
@[simp] theorem Thread.jump_issued (th : Thread) (x : Nat) : (th.jump x).issued = th.issued + 1 := rfl

/-- s0 reads zero (R61). -/
@[simp] theorem Thread.sReg_zero (th : Thread) : th.sReg 0 = 0#64 := rfl
/-- p0 reads 1 (R61). -/
@[simp] theorem Thread.pReg_zero (th : Thread) : th.pReg 0 = true := rfl

/-- A scalar after a write: the one written, unless it is s0. -/
theorem Thread.sReg_setS (th : Thread) (n m : Nat) (v : Word) : (th.setS n v).sReg m = if m = n ∧ m ≠ 0 then v else th.sReg m := by
  unfold Thread.sReg Thread.setS
  by_cases hm : m = 0
  · simp [hm]
  · by_cases hn : n = 0
    · have : m ≠ n := by omega
      simp [hm, hn]
    · by_cases h : m = n
      · subst h; simp [hm]
      · simp [hm, hn, h, Tab.getD_put_ne _ _ _ h]

/-- A descriptor register after a write. -/
theorem Thread.dReg_setD (th : Thread) (n m : Nat) (v : Desc) : (th.setD n v).dReg m = if m = n then v else th.dReg m := by
  unfold Thread.dReg Thread.setD
  by_cases h : m = n
  · subst h; simp
  · simp [h, Tab.getD_put_ne _ _ _ h]

/-- A predicate after a write: the one written, unless it is p0. -/
theorem Thread.pReg_setP (th : Thread) (n m : Nat) (hn : n < 4) (hm : m < 4) (b : Bool) :
    (th.setP n b).pReg m = if m = n ∧ m ≠ 0 then b else th.pReg m := by
  rcases n with _ | _ | _ | _ | n <;> rcases m with _ | _ | _ | _ | m <;> first | rfl | omega

@[simp] theorem Thread.next_sReg (th : Thread) (len n : Nat) : (th.next len).sReg n = th.sReg n := rfl
@[simp] theorem Thread.next_dReg (th : Thread) (len n : Nat) : (th.next len).dReg n = th.dReg n := rfl
@[simp] theorem Thread.next_pReg (th : Thread) (len n : Nat) : (th.next len).pReg n = th.pReg n := by
  rcases n with _ | _ | _ | n <;> rfl

end Sys2Proof.Machine
end

