-- ==== Sys2Proof/Laws/Ops.lean ====
section
/-!
SUPPORT. What each shared operation can do, said once: proofs about commands cite these lemmas and do not unfold the operations.
-/
namespace Sys2Proof.Machine

/-! ### Lifting -/

@[simp] theorem onData_next (f : Ctl → Data → Data) (s : State) : onData f s = .next { s with d := f s.k s.d } := rfl
@[simp] theorem onCtl_next (f : Data → Ctl → Ctl) (s : State) : onCtl f s = .next { s with k := f s.d s.k } := rfl
@[simp] theorem onBoth_next (f : Ctl × Data → Ctl × Data) (s : State) :
    onBoth f s = .next { s with k := (f (s.k, s.d)).1, d := (f (s.k, s.d)).2 } := rfl

/-! ### Memory -/

theorem Data.memCanon_wrBytes (d : Data) (a : Nat) (l : List Byte) (h : d.memCanon) : (d.wrBytes a l).memCanon := memWf_memPutBytes l d.mem a h
theorem Data.memCanon_wr (d : Data) (a n v : Nat) (h : d.memCanon) : (d.wr a n v).memCanon := memWf_memPutBytes _ d.mem a h
theorem Data.memCanon_clear (d : Data) (a n : Nat) (h : d.memCanon) : (d.clear a n).memCanon := memWf_memClear d.mem a n h

/-- A copy changes the memory as a write of the bytes read does, whatever it does to the poison marks. -/
@[simp] theorem Data.copy_mem (d : Data) (src dst n : Nat) : (d.copy src dst n).mem = memCopy d.mem src dst n := by
  unfold Data.copy; split <;> rfl

theorem Data.memCanon_copy (d : Data) (src dst n : Nat) (h : d.memCanon) : (d.copy src dst n).memCanon := by
  show memWf (d.copy src dst n).mem = true
  rw [Data.copy_mem]; exact memWf_memCopy d.mem src dst n h

/-- A write leaves every byte outside it as it was. -/
theorem Data.sameOutside_wrBytes (d : Data) (a : Nat) (l : List Byte) : SameOutside d (d.wrBytes a l) a l.length := fun i h =>
  memByte_memPutBytes_outside l d.mem a i h

/-- A write is read back byte by byte. -/
theorem Data.memByte_wrBytes (d : Data) (a i : Nat) (l : List Byte) (h : i < l.length) : memByte (d.wrBytes a l).mem (a + i) = l[i] :=
  memByte_memPutBytes_inside l d.mem a i h

theorem Tab.get?_filter_key {α : Type} (f : Nat → Bool) (t : Tab α) (i : Nat) :
    Tab.get? (List.filter (fun c => f c.1) t : Tab α) i = if f i = true then Tab.get? t i else none := by
  induction t with
  | nil => simp
  | cons e r ih =>
    by_cases h : f e.1 = true
    · simp only [List.filter_cons, h, if_true, Tab.get?_cons, ih]
      by_cases he : e.1 = i
      · subst he; simp [h]
      · simp [he]
    · simp only [List.filter_cons, h, Tab.get?_cons]
      by_cases he : e.1 = i
      · subst he; rw [if_neg (by simp), ih]; simp [h]
      · rw [if_neg (by simp), ih]; simp [he]

/-- A cleared byte reads as unwritten memory does, and the others as before. -/
theorem Data.memByte_clear (d : Data) (a n i : Nat) :
    memByte (d.clear a n).mem i = if a ≤ i ∧ i < a + n then unwritten else memByte d.mem i := by
  have e := Tab.get?_filter_key (fun j => !(decide (a ≤ j) && decide (j < a + n))) d.mem i
  simp only [memByte, Tab.getD, Data.clear, memClear, e]
  by_cases h : a ≤ i ∧ i < a + n
  · simp [h]
  · have : (!(decide (a ≤ i) && decide (i < a + n))) = true := by simp at h ⊢; omega
    simp only [this, if_true, h, if_false]

/-! ### Counters -/

/-- A counter grows by what is added and stays at its maximum (R10). -/
theorem Data.cntVal_bump (d : Data) (a n : Nat) : (d.bump a n).cntVal a = Nat.min (2 ^ 64 - 1) (d.cntVal a + n) := by
  simp only [Data.cntVal, Data.bump, Tab.getD_put_self, BitVec.toNat_ofNat]
  exact Nat.mod_eq_of_lt (Nat.lt_of_le_of_lt (Nat.min_le_left _ _) (by decide))

theorem Data.cntVal_bump_ne (d : Data) {a b : Nat} (n : Nat) (h : b ≠ a) : (d.bump a n).cntVal b = d.cntVal b := by
  simp only [Data.cntVal, Data.bump, Tab.getD_put_ne _ _ _ h]

/-! ### Threads -/

/-- Replacing a thread changes nothing else. -/
theorem Data.setThr_onlyThread (d : Data) (t : Nat) (th : Thread) : OnlyThread d (d.setThr t th) t th :=
  ⟨Data.thr_setThr_self d t th, fun _ h => Data.thr_setThr_ne d th h, rfl⟩

/-- Changing a thread changes nothing else, and nothing at all where there is none. -/
theorem Data.onThr_some (d : Data) (t : Nat) (f : Thread → Thread) {th : Thread} (h : d.thr t = some th) : d.onThr t f = d.setThr t (f th) := by
  simp only [Data.onThr, h]
theorem Data.onThr_none (d : Data) (t : Nat) (f : Thread → Thread) (h : d.thr t = none) : d.onThr t f = d := by
  simp only [Data.onThr, h]

/-- Whatever it changes of a thread, `onThr` leaves everything else. -/
theorem Data.onThr_else (d : Data) (t : Nat) (f : Thread → Thread) :
    d.onThr t f = { d with fyl := { d.fyl with threads := (d.onThr t f).fyl.threads } } ∧ ∀ u, u ≠ t → (d.onThr t f).thr u = d.thr u := by
  rcases h : d.thr t with _ | th
  · rw [Data.onThr_none d t f h]; exact ⟨rfl, fun _ _ => rfl⟩
  · rw [Data.onThr_some d t f h]; exact ⟨rfl, fun u hu => Data.thr_setThr_ne d _ hu⟩

/-- The engine has finished an operation: only that operation's thread changes. -/
theorem Data.finish_else (d : Data) (t id : Nat) (st : Status) (count detail : Nat) :
    d.finish t id st count detail = { d with fyl := { d.fyl with threads := (d.finish t id st count detail).fyl.threads } } ∧
    ∀ u, u ≠ t → (d.finish t id st count detail).thr u = d.thr u := Data.onThr_else d t _

@[simp] theorem Data.finish_mem (d : Data) (t id : Nat) (st : Status) (count detail : Nat) : (d.finish t id st count detail).mem = d.mem := by
  rw [(Data.finish_else d t id st count detail).1]

/-- The engine has started an operation: only that operation's thread changes. -/
theorem Data.start_else (d : Data) (t id : Nat) :
    d.start t id = { d with fyl := { d.fyl with threads := (d.start t id).fyl.threads } } ∧ ∀ u, u ≠ t → (d.start t id).thr u = d.thr u :=
  Data.onThr_else d t _

/-- A yield changes its own thread only. -/
theorem Data.yieldThr_else (d : Data) (t : Nat) (w : Option Wait) :
    d.yieldThr t w = { d with fyl := { d.fyl with threads := (d.yieldThr t w).fyl.threads } } ∧ ∀ u, u ≠ t → (d.yieldThr t w).thr u = d.thr u :=
  Data.onThr_else d t _

/-- A thread that becomes ready changes itself and joins the back of the ready queue; nothing else changes. -/
theorem Data.wake_else (d : Data) (t now : Nat) :
    ∃ q, d.wake t now = { d with fyl := { d.fyl with threads := (d.wake t now).fyl.threads, readyQ := q } } ∧ (q = d.fyl.readyQ ∨ q = d.fyl.readyQ ++ [t]) := by
  unfold Data.wake
  rcases h : d.thr t with _ | th
  · exact ⟨_, rfl, .inl rfl⟩
  · simp only []
    cases th.run
    · exact ⟨_, rfl, .inl rfl⟩
    · exact ⟨_, rfl, .inl rfl⟩
    · exact ⟨_, rfl, .inl rfl⟩
    · exact ⟨_, rfl, .inr rfl⟩

/-! ### Instructions -/

/-- The four ways of an instruction (R61, R62, R78, R560, R562): its thread issues nothing; it faults; its predicate reads 0; it has its effect. -/
theorem fylInstrE_cases (t : Nat) (p : BitVec 2) (len : Nat) (enc : Bool) (f : Ctl → Data → Thread → Data) (k : Ctl) (d : Data) :
    ((d.thr t = none ∨ ∃ th, d.thr t = some th ∧ th.running = false) ∧ fylInstrE t p len enc f k d = d) ∨
    ∃ th, d.thr t = some th ∧ th.running = true ∧
      ((enc = false ∨ (len = 8 ∧ th.pc % 8 ≠ 0)) ∧ fylInstrE t p len enc f k d = faultThread k d t th ∨
       (enc = true ∧ (len = 8 → th.pc % 8 = 0)) ∧
         (th.pReg p.toNat = false ∧ fylInstrE t p len enc f k d = d.setThr t (th.next len) ∨
          th.pReg p.toNat = true ∧ fylInstrE t p len enc f k d = f k d th)) := by
  unfold fylInstrE
  rcases h : d.thr t with _ | th
  · exact .inl ⟨.inl rfl, rfl⟩
  · simp only []
    cases hr : th.running
    · exact .inl ⟨.inr ⟨th, rfl, hr⟩, by simp⟩
    · refine .inr ⟨th, rfl, hr, ?_⟩
      cases enc
      · exact .inl ⟨.inl rfl, by simp⟩
      · by_cases hl : len = 8 ∧ th.pc % 8 ≠ 0
        · exact .inl ⟨.inr hl, by simp [hl.1, hl.2]⟩
        · have hb : (len == 8 && th.pc % 8 != 0) = false := by
            simp only [Bool.and_eq_false_imp, beq_iff_eq, bne_eq_false_iff_eq]
            intro h8; exact Decidable.byContradiction fun hc => hl ⟨h8, hc⟩
          refine .inr ⟨⟨rfl, fun h8 => Decidable.byContradiction fun hc => hl ⟨h8, hc⟩⟩, ?_⟩
          cases hp : th.pReg p.toNat
          · exact .inl ⟨rfl, by simp [hb]⟩
          · exact .inr ⟨rfl, by simp [hb]⟩

/-- An instruction that may issue and whose predicate reads 1 has its effect. -/
theorem fylInstr_issues {t : Nat} {p : BitVec 2} {len : Nat} (f : Ctl → Data → Thread → Data) (k : Ctl) {d : Data} {th : Thread}
    (h : Issues d t p th) (hl : len = 8 → th.pc % 8 = 0) : fylInstr t p len f k d = f k d th := by
  obtain ⟨h1, h2, h3⟩ := h
  rcases fylInstrE_cases t p len true f k d with ⟨hn, _⟩ | ⟨th', e1, _, r⟩
  · rcases hn with hn | ⟨th', hn, hr⟩
    · rw [h1] at hn; cases hn
    · rw [h1] at hn; cases hn; rw [h2] at hr; cases hr
  · rw [h1] at e1; cases e1
    rcases r with ⟨hb, _⟩ | ⟨_, r⟩
    · rcases hb with hb | ⟨h8, hb⟩
      · cases hb
      · exact absurd (hl h8) hb
    · rcases r with ⟨hp, _⟩ | ⟨_, r⟩
      · rw [h3] at hp; cases hp
      · exact r

/-- An instruction that works on its thread's registers changes that thread and nothing else. -/
theorem fylRegs_onlyThread {t : Nat} {p : BitVec 2} {len : Nat} (f : Thread → Thread) (k : Ctl) {d : Data} {th : Thread}
    (h : Issues d t p th) (hl : len = 8 → th.pc % 8 = 0) : OnlyThread d (fylRegs t p len f k d) t ((f th).next len) := by
  unfold fylRegs
  rw [fylInstr_issues _ k h hl]
  exact Data.setThr_onlyThread d t _

/-! ### Doorbells -/

/-- Raising a vector changes the pending vectors, the outputs and MSIX_SENT, and nothing else. -/
theorem Data.raiseMsix_else (d : Data) (h v : Nat) :
    ∃ m o c, d.raiseMsix h v = { d with mbx := { d.mbx with msixPend := m }, out := o, cnt := c } := by
  unfold Data.raiseMsix
  split
  · exact ⟨_, _, _, rfl⟩
  · split
    · exact ⟨_, _, _, rfl⟩
    · exact ⟨_, _, _, rfl⟩

/-- Setting doorbell bits changes the mailboxes' channels and pending vectors, the outputs and counters: no flag cell, and nothing else. -/
theorem Data.setDbH_else (k : Ctl) (d : Data) (c : Nat) (x y : BitVec 32) :
    ∃ m o n, Data.setDbH k d c x y = { d with mbx := m, out := o, cnt := n } ∧ m.flags = d.mbx.flags := by
  unfold Data.setDbH
  simp only []
  split
  · obtain ⟨m, o, n, h⟩ := Data.raiseMsix_else (d.setChan c { d.chan c with dbH := x, dbHEn := y }) (k.chHalf c) c
    exact ⟨_, o, n, h, rfl⟩
  · exact ⟨_, _, _, rfl, rfl⟩

/-- Ringing a doorbell changes channels, pending vectors, outputs, counters and status bits: no byte of memory, no flag cell and no thread. -/
theorem ringDoor_else (k : Ctl) (d : Data) (p db : Nat) :
    ∃ m o n s, (ringDoor k d p db).1 = { d with mbx := m, out := o, cnt := n, sts := s } ∧ m.flags = d.mbx.flags := by
  unfold ringDoor
  split
  · exact ⟨_, _, _, _, rfl, rfl⟩
  · split
    · simp only []
      split
      · exact ⟨_, _, _, _, rfl, rfl⟩
      · split
        · exact ⟨_, _, _, _, rfl, rfl⟩
        · split
          · exact ⟨_, _, _, _, rfl, rfl⟩
          · obtain ⟨m, o, n, h, hm⟩ := Data.setDbH_else k d (bitsOf db 5 5) (setBit (d.chan (bitsOf db 5 5)).dbH (bitsOf db 0 5) true) (d.chan (bitsOf db 5 5)).dbHEn
            exact ⟨m, o, n, d.sts, h, hm⟩
    · simp only []
      split
      · exact ⟨_, _, _, _, rfl, rfl⟩
      · exact ⟨_, _, _, _, rfl, rfl⟩

@[simp] theorem ringDoor_mem (k : Ctl) (d : Data) (p db : Nat) : (ringDoor k d p db).1.mem = d.mem := by
  obtain ⟨m, o, n, s, h, _⟩ := ringDoor_else k d p db
  rw [h]

/-! ### Steps -/

/-- A step with a command waiting is exec of it on the rest. -/
theorem step_cons (s : State) (c : Instr) (r : List Instr) (h : s.pending = c :: r) : step s = exec c { s with pending := r } := by
  simp only [step, h]

/-- A step with nothing waiting is one cycle of CLK_MGT. -/
theorem step_nil (s : State) (h : s.pending = []) : step s = .next (idle s) := by
  simp only [step, h]

end Sys2Proof.Machine
end

