-- ==== Sys2Proof/Machine/Balls.lean ====
section
/-!
DEFINITION. The ball field of the package (R14, R709 to R714): the signal that each of the 72 × 72 positions carries.
-/
namespace Sys2Proof.Machine

/-- The signals of R709; `m` marks the _M half of a pair. A NAND signal has the index of R713. -/
inductive Ball where
  | vin18 | vaux18 | gnd
  | sense (m : Bool)
  | bdlTx (port lane : Nat) (m : Bool)
  | bdlRx (port lane : Nat) (m : Bool)
  | refPcie (port : Nat) (m : Bool)
  | perst (port half : Nat)
  | persto (port half : Nat)
  | nand (chan index : Nat)
  | mgmtTx (b m : Bool)
  | mgmtRx (b m : Bool)
  | refSys (m : Bool)
  | refEth (south m : Bool)
  | xtalIn | xtalOut
  | tim10m | ppsIn
  | ppsOut (n : Nat)
  | resetN | ready
deriving DecidableEq, Repr

/-- The letters of the rows in their order (R14). -/
def rowLetters : List Char := ['A', 'B', 'C', 'D', 'E', 'F', 'G', 'H', 'J', 'K', 'L', 'M', 'N', 'P', 'T', 'U', 'V', 'W', 'Y']

/-- The row of a name of letters: rows 1 to 19 have one letter, and AA follows Y (R14). -/
def ballRow (l : List Char) : Nat :=
  match l with
  | [c] => rowLetters.idxOf c + 1
  | [b, c] => 19 * (rowLetters.idxOf b + 1) + rowLetters.idxOf c + 1
  | _ => 0

/-- The Bridle port of a position in the north or south band, with the column counted from the port's base column (R712). -/
def bridlePlace (south : Bool) (col : Nat) : Nat × Nat :=
  if col < 39 then (if south then 2 else 0, col - 3) else (if south then 3 else 1, col - 39)

/-- A ball of the Bridle bands (R712): `row` counts from the package's edge. -/
def bridleBall (south : Bool) (row col : Nat) : Ball :=
  let p := (bridlePlace south col).1
  let o := (bridlePlace south col).2
  if col < 3 ∨ 32 ≤ o then .gnd
  else
    match row with
    | 3 => .bdlTx p (o / 2) (o % 2 == 1)
    | 7 => .bdlRx p (o / 2) (o % 2 == 1)
    | 10 => (match o with | 0 => .refPcie p false | 1 => .refPcie p true | 4 => .perst p 0 | 5 => .perst p 1 | 8 => .persto p 0 | 9 => .persto p 1 | _ => .gnd)
    | _ => .gnd

/-- The NAND channel of a block of 8 rows, of the west or the east band, and its first row (R713). -/
def nandBlock (east : Bool) (row : Nat) : Option (Nat × Nat) :=
  let c := if east then 2 else 0
  if 13 ≤ row ∧ row < 21 then some (c, 13) else if 21 ≤ row ∧ row < 29 then some (c + 1, 21)
  else if 45 ≤ row ∧ row < 53 then some (c + 4, 45) else if 53 ≤ row ∧ row < 61 then some (c + 5, 53) else none

/-- A ball of a NAND block whose columns begin at `c0` (R713). -/
def nandBall (chan r0 c0 row col : Nat) : Ball :=
  let i := 4 * (row - r0) + (col - c0) / 2
  if col < c0 ∨ c0 + 8 ≤ col ∨ (row + col) % 2 = 1 ∨ 29 ≤ i then .gnd else .nand chan i

/-- The balls of the west band that stand alone (R714). -/
def westBalls : List (Nat × Nat × Ball) :=
  [29, 31].flatMap (fun r => [2, 4, 6, 8].map (fun c => (r, c, .vaux18))) ++
  [(29, 10, .sense false), (31, 10, .sense true), (33, 2, .mgmtTx false false), (33, 3, .mgmtTx false true), (35, 2, .mgmtRx false false), (35, 3, .mgmtRx false true),
   (33, 6, .mgmtTx true false), (33, 7, .mgmtTx true true), (35, 6, .mgmtRx true false), (35, 7, .mgmtRx true true),
   (37, 2, .refSys false), (37, 3, .refSys true), (37, 6, .refEth false false), (37, 7, .refEth false true), (37, 10, .refEth true false), (37, 11, .refEth true true),
   (40, 2, .xtalIn), (40, 4, .xtalOut), (40, 7, .tim10m), (40, 9, .ppsIn), (42, 2, .ppsOut 0), (42, 4, .ppsOut 1), (42, 7, .resetN), (42, 9, .ready)]

/-- The ball at a row and a column, 1 to 72 each (R711): every position that no rule assigns is GND. -/
def ballAt (row col : Nat) : Ball :=
  if row < 13 then bridleBall false row col
  else if 60 < row then bridleBall true (73 - row) col
  else if 13 ≤ col ∧ col ≤ 60 then (if (row + col) % 2 = 0 then .vin18 else .gnd)
  else
    match nandBlock (decide (60 < col)) row with
    | some (chan, r0) => nandBall chan r0 (if col < 13 then 3 else 63) row col
    | none => ((westBalls.find? (fun x => x.1 == row && x.2.1 == col)).map (fun x => x.2.2)).getD .gnd

end Sys2Proof.Machine
end

