-- ==== Sys2Proof/WellFormed.lean ====
section
/-!
DEFINITION. When a command is well formed: every number that names one of a fixed count of units is below that count. A command that is not names
no unit of the hardware.
-/
namespace Sys2Proof

/-- The operands of a command that name one of a fixed count of units, each with that count: threads (R67), partitions (R586), endpoint halves (R514), windows (R516),
channels (R535), QPs (R417), regions and blocks (R36, R37), Tether ports and links (R401), Merge engines and streams (R306), Sail units by global bank, Match banks and rows
(R186), fabric groups (R461), HBM channel controllers (R37), plain stacks, clock inputs (R637) and lasers. -/
def Instr.ranges (i : Instr) : List (Nat × Nat) :=
  match i with
  | .add t _ _ _ _ => [(t, 65536)]
  | .sub t _ _ _ _ => [(t, 65536)]
  | .and t _ _ _ _ => [(t, 65536)]
  | .or t _ _ _ _ => [(t, 65536)]
  | .xor t _ _ _ _ => [(t, 65536)]
  | .andn t _ _ _ _ => [(t, 65536)]
  | .shl t _ _ _ _ => [(t, 65536)]
  | .shr t _ _ _ _ => [(t, 65536)]
  | .sra t _ _ _ _ => [(t, 65536)]
  | .mul t _ _ _ _ => [(t, 65536)]
  | .mulhu t _ _ _ _ => [(t, 65536)]
  | .min t _ _ _ _ => [(t, 65536)]
  | .minu t _ _ _ _ => [(t, 65536)]
  | .max t _ _ _ _ => [(t, 65536)]
  | .maxu t _ _ _ _ => [(t, 65536)]
  | .clz t _ _ _ => [(t, 65536)]
  | .ctz t _ _ _ => [(t, 65536)]
  | .popc t _ _ _ => [(t, 65536)]
  | .addi t _ _ _ _ => [(t, 65536)]
  | .andi t _ _ _ _ => [(t, 65536)]
  | .ori t _ _ _ _ => [(t, 65536)]
  | .xori t _ _ _ _ => [(t, 65536)]
  | .shli t _ _ _ _ => [(t, 65536)]
  | .shri t _ _ _ _ => [(t, 65536)]
  | .srai t _ _ _ _ => [(t, 65536)]
  | .li t _ _ _ => [(t, 65536)]
  | .lih t _ _ _ => [(t, 65536)]
  | .cmp t _ _ _ _ _ => [(t, 65536)]
  | .cmpi t _ _ _ _ _ => [(t, 65536)]
  | .pand t _ _ _ _ => [(t, 65536)]
  | .por t _ _ _ _ => [(t, 65536)]
  | .pnot t _ _ _ => [(t, 65536)]
  | .pmov t _ _ _ => [(t, 65536)]
  | .ld t _ _ _ _ _ => [(t, 65536)]
  | .st t _ _ _ _ _ => [(t, 65536)]
  | .descLd t _ _ _ => [(t, 65536)]
  | .descSt t _ _ _ => [(t, 65536)]
  | .descSet t _ _ _ _ _ => [(t, 65536)]
  | .descGet t _ _ _ _ _ => [(t, 65536)]
  | .descSeti t _ _ _ _ _ => [(t, 65536)]
  | .descClr t _ _ => [(t, 65536)]
  | .descMov t _ _ _ => [(t, 65536)]
  | .br t _ _ => [(t, 65536)]
  | .jal t _ _ _ => [(t, 65536)]
  | .jr t _ _ => [(t, 65536)]
  | .yield t _ => [(t, 65536)]
  | .live t _ _ _ => [(t, 65536)]
  | .endThr t _ _ => [(t, 65536)]
  | .waitTag t _ _ _ _ _ => [(t, 65536)]
  | .waitAny t _ _ _ _ => [(t, 65536)]
  | .waitAll t _ _ _ _ => [(t, 65536)]
  | .fence t _ => [(t, 65536)]
  | .bskLoad t _ _ _ _ _ => [(t, 65536)]
  | .bskStore t _ _ _ _ _ _ => [(t, 65536)]
  | .flagSet t _ _ _ => [(t, 65536)]
  | .flagAdd t _ _ _ _ => [(t, 65536)]
  | .flagRead t _ _ _ => [(t, 65536)]
  | .flagWait t _ _ _ _ _ => [(t, 65536)]
  | .flagWaiterWake t => [(t, 65536)]
  | .mbxPost t _ _ _ _ => [(t, 65536)]
  | .mbxTake t _ _ _ _ _ => [(t, 65536)]
  | .dbRing t _ _ _ _ => [(t, 65536)]
  | .dbTake t _ _ _ _ => [(t, 65536)]
  | .dbWait t _ _ _ _ => [(t, 65536)]
  | .thrLaunch t _ _ _ _ _ => [(t, 65536)]
  | .sysGet t _ _ _ => [(t, 65536)]
  | .undefinedEncodingFault t _ _ => [(t, 65536)]
  | .sliceExpiry t => [(t, 65536)]
  | .threadSwitch tile core _ => [(tile, 16), (core, 64)]
  | .launchTake _ part tile => [(part, 16), (tile, 16)]
  | .completionPost t _ => [(t, 65536)]
  | .engineIssueFullWait t => [(t, 65536)]
  | .pushLayer t _ _ _ => [(t, 65536)]
  | .pushEnd t _ _ _ => [(t, 65536)]
  | .pullPages t _ _ _ => [(t, 65536)]
  | .feedLayer t _ _ _ => [(t, 65536)]
  | .pushPrefix t _ _ _ => [(t, 65536)]
  | .bdlRelease t _ _ _ => [(t, 65536)]
  | .sailCmd t _ _ _ => [(t, 65536)]
  | .sailFence t _ _ _ => [(t, 65536)]
  | .sailAttn t _ _ _ => [(t, 65536)]
  | .sailDelta t _ _ _ => [(t, 65536)]
  | .mrgOpen t _ _ _ => [(t, 65536)]
  | .envPack t _ _ _ => [(t, 65536)]
  | .envUnpack t _ _ _ => [(t, 65536)]
  | .matSearch t _ _ _ => [(t, 65536)]
  | .matInsert t _ _ _ => [(t, 65536)]
  | .matDelete t _ _ _ => [(t, 65536)]
  | .matSpread t _ _ _ => [(t, 65536)]
  | .matHash t _ _ _ => [(t, 65536)]
  | .matRun t _ _ _ => [(t, 65536)]
  | .tieEvict t _ _ _ => [(t, 65536)]
  | .qpCreate t _ _ _ => [(t, 65536)]
  | .qpConnect t _ _ _ => [(t, 65536)]
  | .qpDestroy t _ _ _ => [(t, 65536)]
  | .tqSend t _ _ _ => [(t, 65536)]
  | .tqRecv t _ _ _ => [(t, 65536)]
  | .tqWrite t _ _ _ => [(t, 65536)]
  | .tqFadd t _ _ _ => [(t, 65536)]
  | .tqCas t _ _ _ => [(t, 65536)]
  | .tqReg t _ _ _ => [(t, 65536)]
  | .tqRevoke t _ _ _ => [(t, 65536)]
  | .fabLoad t _ _ _ => [(t, 65536)]
  | .fabStore t _ _ _ => [(t, 65536)]
  | .fabFadd t _ _ _ => [(t, 65536)]
  | .fabCas t _ _ _ => [(t, 65536)]
  | .gopBarrier t _ _ _ => [(t, 65536)]
  | .gopBroadcast t _ _ _ => [(t, 65536)]
  | .gopSnapshot t _ _ _ => [(t, 65536)]
  | .gopResume t _ _ _ => [(t, 65536)]
  | .fabReset t _ _ _ => [(t, 65536)]
  | .fabHbTether t _ _ _ => [(t, 65536)]
  | .fabHbMgmt t _ _ _ => [(t, 65536)]
  | .blsRead t _ _ _ => [(t, 65536)]
  | .blsWrite t _ _ _ => [(t, 65536)]
  | .blsTrim t _ _ _ => [(t, 65536)]
  | .blsFlush t _ _ _ => [(t, 65536)]
  | .blsFormat t _ _ _ => [(t, 65536)]
  | .blsMaintGc t _ _ _ => [(t, 65536)]
  | .blsMaintWl t _ _ _ => [(t, 65536)]
  | .blsMaintPatrol t _ _ _ => [(t, 65536)]
  | .blsMaintRebuild t _ _ _ => [(t, 65536)]
  | .kvwMap t _ _ _ => [(t, 65536)]
  | .kvwUnmap t _ _ _ => [(t, 65536)]
  | .kvAppend t _ _ _ => [(t, 65536)]
  | .bskAdmit t _ _ _ => [(t, 65536)]
  | .bskRelease t _ _ _ => [(t, 65536)]
  | .bskQuery t _ _ _ => [(t, 65536)]
  | .bskPark t _ _ _ => [(t, 65536)]
  | .bskResume t _ _ _ => [(t, 65536)]
  | .bskUnhold t _ _ _ => [(t, 65536)]
  | .bskPrefill t _ _ _ => [(t, 65536)]
  | .adpPublish t _ _ _ => [(t, 65536)]
  | .adpPin t _ _ _ => [(t, 65536)]
  | .adpUnpin t _ _ _ => [(t, 65536)]
  | .adpRetire t _ _ _ => [(t, 65536)]
  | .adpFetch t _ _ _ => [(t, 65536)]
  | .adpPlace t _ _ _ => [(t, 65536)]
  | .specCommit t _ _ _ => [(t, 65536)]
  | .budCharge t _ _ _ => [(t, 65536)]
  | .budSet t _ _ _ => [(t, 65536)]
  | .budQuery t _ _ _ => [(t, 65536)]
  | .trfMset t _ _ _ => [(t, 65536)]
  | .trfMget t _ _ _ => [(t, 65536)]
  | .meterColour t _ => [(t, 65536)]
  | .meterDeferRetry t _ => [(t, 65536)]
  | .budgetWindowBoundary part _ => [(part, 16)]
  | .regulatorRefill => []
  | .windsockSample => []
  | .handoffTmo b => [(b, 1048576)]
  | .firstTmo b => [(b, 1048576)]
  | .pushTmo b => [(b, 1048576)]
  | .layer qp => [(qp, 16384)]
  | .landed qp => [(qp, 16384)]
  | .creditRequest qp => [(qp, 16384)]
  | .creditGrant qp => [(qp, 16384)]
  | .runSend qp => [(qp, 16384)]
  | .offer qp => [(qp, 16384)]
  | .reOffer qp => [(qp, 16384)]
  | .commit qp => [(qp, 16384)]
  | .refuse qp => [(qp, 16384)]
  | .anchored qp => [(qp, 16384)]
  | .unknown qp => [(qp, 16384)]
  | .query qp => [(qp, 16384)]
  | .answer qp => [(qp, 16384)]
  | .pullReq qp => [(qp, 16384)]
  | .pullData qp => [(qp, 16384)]
  | .pullEnd qp => [(qp, 16384)]
  | .offerQ qp => [(qp, 16384)]
  | .offerA qp => [(qp, 16384)]
  | .prefixData qp => [(qp, 16384)]
  | .prefixDone qp => [(qp, 16384)]
  | .forwardedLookup qp => [(qp, 16384)]
  | .adapterFetchServe qp => [(qp, 16384)]
  | .unitCommand unit => [(unit, 2048)]
  | .strokeEnd unit => [(unit, 2048)]
  | .refreshDue unit => [(unit, 2048)]
  | .sailUnitLost unit => [(unit, 2048)]
  | .partialRowArrival engine stream => [(engine, 16), (stream, 64)]
  | .endMarker engine stream => [(engine, 16), (stream, 64)]
  | .peerContribution qp => [(qp, 16384)]
  | .streamFinish engine stream => [(engine, 16), (stream, 64)]
  | .mrgTmo engine stream => [(engine, 16), (stream, 64)]
  | .peerRetry engine stream => [(engine, 16), (stream, 64)]
  | .reclaimSweep => []
  | .tilePassSweep tile => [(tile, 16)]
  | .pinDropRetire t _ => [(t, 65536)]
  | .prefixLeaseEnd _ => []
  | .matParityError bank row => [(bank, 32), (row, 8192)]
  | .matScrubRow bank => [(bank, 32)]
  | .journalFlush chan => [(chan, 8)]
  | .openRowPad chan _ => [(chan, 8)]
  | .ballastRebuild => []
  | .dieLost chan _ => [(chan, 8)]
  | .laserLost port input _ => [(port, 16), (input, 2)]
  | .laserOk port input _ => [(port, 16), (input, 2)]
  | .calibrationDone port link _ => [(port, 16), (link, 4)]
  | .linkLock port link => [(port, 16), (link, 4)]
  | .acquireTimeout port link => [(port, 16), (link, 4)]
  | .linkFault port link _ => [(port, 16), (link, 4)]
  | .holdDown port link => [(port, 16), (link, 4)]
  | .faultClear port link => [(port, 16), (link, 4)]
  | .engineHot port _ => [(port, 16)]
  | .frameReceive port link _ _ _ _ _ => [(port, 16), (link, 4)]
  | .connReqResend qp => [(qp, 16384)]
  | .connReq port link _ _ => [(port, 16), (link, 4)]
  | .connAcc port link _ _ => [(port, 16), (link, 4)]
  | .connRej port link _ _ => [(port, 16), (link, 4)]
  | .connWait port link _ _ => [(port, 16), (link, 4)]
  | .connTmo qp => [(qp, 16384)]
  | .close port link _ _ => [(port, 16), (link, 4)]
  | .dataPacket port link _ _ _ _ => [(port, 16), (link, 4)]
  | .ackTimer qp => [(qp, 16384)]
  | .ack port link _ _ => [(port, 16), (link, 4)]
  | .nak port link _ _ => [(port, 16), (link, 4)]
  | .atomicResp port link _ _ => [(port, 16), (link, 4)]
  | .qpRetxTimer qp _ => [(qp, 16384)]
  | .packetTransmit qp => [(qp, 16384)]
  | .floadReq port link _ _ _ _ => [(port, 16), (link, 4)]
  | .floadResp port link _ _ => [(port, 16), (link, 4)]
  | .heartbeat port link _ _ => [(port, 16), (link, 4)]
  | .mgmtHb _ => []
  | .gopUp port link _ _ _ _ => [(port, 16), (link, 4)]
  | .gopDown port link _ _ _ _ => [(port, 16), (link, 4)]
  | .gopTmo group => [(group, 16)]
  | .snapHold part => [(part, 16)]
  | .freset group _ => [(group, 16)]
  | .fresetAck group _ _ => [(group, 16)]
  | .teardown part => [(part, 16)]
  | .elect _ _ => []
  | .electWait _ => []
  | .electDone _ => []
  | .ocsReply _ => []
  | .ocsRetry _ => []
  | .slotDataWrite half _ _ _ => [(half, 8)]
  | .prod half win _ => [(half, 8), (win, 1024)]
  | .grant half win _ => [(half, 8), (win, 1024)]
  | .reclaim half win _ => [(half, 8), (win, 1024)]
  | .grantTmo t _ => [(t, 65536)]
  | .creditWordWrite win => [(win, 1024)]
  | .cfgRequest port _ => [(port, 4)]
  | .cfgCompletion port _ _ => [(port, 4)]
  | .ptmRequest half => [(half, 8)]
  | .cxlMemAccess half _ _ => [(half, 8)]
  | .bridleLinkDown half => [(half, 8)]
  | .msixSend half vec _ => [(half, 8), (vec, 64)]
  | .inLo _ part chan _ => [(part, 16), (chan, 64)]
  | .inHi _ part chan _ => [(part, 16), (chan, 64)]
  | .outHi _ part chan => [(part, 16), (chan, 64)]
  | .dbKSet _ part chan _ => [(part, 16), (chan, 64)]
  | .dbH _ part chan _ => [(part, 16), (chan, 64)]
  | .dbHEn _ part chan _ => [(part, 16), (chan, 64)]
  | .launchProd _ part tile _ _ => [(part, 16), (tile, 16)]
  | .ccons _ part tile _ _ => [(part, 16), (tile, 16)]
  | .secViol half chan _ => [(half, 8), (chan, 64)]
  | .authBegin chan _ _ _ _ => [(chan, 64)]
  | .authFinish chan _ _ => [(chan, 64)]
  | .authTimeout chan _ => [(chan, 64)]
  | .sessionIdle _ => []
  | .endSession c => [(c.chan, 64)]
  | .regRead c _ => [(c.chan, 64)]
  | .regWrite c _ _ _ => [(c.chan, 64)]
  | .keyInstall c part _ _ _ => [(c.chan, 64), (part, 16)]
  | .keyEnrol c _ => [(c.chan, 64)]
  | .progLoad c part _ _ => [(c.chan, 64), (part, 16)]
  | .progUnload c part _ => [(c.chan, 64), (part, 16)]
  | .partTeardown c part _ => [(c.chan, 64), (part, 16)]
  | .optWrite c _ _ => [(c.chan, 64)]
  | .fwUpdate c _ _ _ _ _ _ => [(c.chan, 64)]
  | .quote c _ _ => [(c.chan, 64)]
  | .bbxRead c _ _ => [(c.chan, 64)]
  | .faUnlock c => [(c.chan, 64)]
  | .ownerReset c => [(c.chan, 64)]
  | .commitGo _ _ _ => []
  | .commitDiscard _ _ => []
  | .commitApply _ => []
  | .commitWithdraw _ => []
  | .registerWrite _ _ _ _ => []
  | .counterRead _ _ _ => []
  | .unmappedAccess _ _ _ _ => []
  | .hostViol half _ _ _ => [(half, 8)]
  | .wskDump _ _ => []
  | .fabDeclare _ _ => []
  | .rasInjectArm _ _ _ _ => []
  | .warm _ => []
  | .feed _ => []
  | .rstBlk _ _ => []
  | .watchdogExpiry => []
  | .powerOn => []
  | .resetN => []
  | .perstN half => [(half, 8)]
  | .vin18Loss => []
  | .vin18Good => []
  | .vaux18Loss => []
  | .startupStep _ _ => []
  | .s1Request _ => []
  | .s1Entry => []
  | .s1HoldTimeout => []
  | .exitS1 _ => []
  | .s3Request _ => []
  | .s3Wake => []
  | .capEvaluation _ _ => []
  | .capMiss => []
  | .thermalEvaluation _ _ => []
  | .thermalTrip _ => []
  | .clockInputLoss input => [(input, 10)]
  | .ppsEdge => []
  | .ptpMessage _ _ => []
  | .timeSourceLoss => []
  | .ppsOutPulse _ => []
  | .sramUncorrectable _ _ _ _ => []
  | .hbmUncorrectable _ chan _ => [(chan, 32)]
  | .interRegionLinkLost a b => [(a, 4), (b, 4)]
  | .containmentTimeout region block => [(region, 4), (block, 64)]
  | .ceStorm _ _ _ => []
  | .patrolScrub stack _ _ _ => [(stack, 8)]
  | .blackBoxWrite => []
  | .mgmtLinkChange port _ => [(port, 2)]
  | .linkUp half _ _ => [(half, 8)]
  | .clockInputReturn input => [(input, 10)]
  | .blockRejoin region block => [(region, 4), (block, 64)]
  | .promptStarved => []
  | .syncInterval _ _ => []

/-- Whether a command is well formed. -/
def Instr.wf (i : Instr) : Bool := i.ranges.all (fun x => decide (x.1 < x.2))

end Sys2Proof
end

