-- ==== Sys2Proof/Tests/Slice0.lean ====
section
/-!
SUPPORT. Tests of the model: commands that are not well formed, single commands on small states, and for each statement of Certificates/Slice0/Obligations.lean with
hypotheses a state and operands that meet them.
-/
namespace Sys2Proof.Tests

set_option Elab.async false

open Sys2Proof.Machine

/-! ### Well-formedness: a term that each check refuses -/

/-- One command for each kind of unit, whose number is one beyond the last. -/
theorem test_wf_refused : ∀ i ∈ [Instr.add 65536 0 1 2 3, .completionPost 65536 0, .handoffTmo 1048576, .tilePassSweep 16, .teardown 16, .ptmRequest 8, .prod 0 1024 0, .msixSend 0 64 true,
    .runSend 16384, .unitCommand 2048, .endMarker 16 0, .endMarker 0 64, .matScrubRow 32, .matParityError 0 8192, .journalFlush 8, .holdDown 16 0, .holdDown 0 4, .laserOk 0 2 0,
    .gopTmo 16, .cfgCompletion 4 0 0, .clockInputLoss 10, .hbmUncorrectable 0 32 0, .patrolScrub 8 false false 0, .mgmtLinkChange 2 true, .interRegionLinkLost 0 4,
    .blockRejoin 4 0, .blockRejoin 0 64, .keyInstall ⟨33, 1, 0, true⟩ 16 0 0 0, .endSession ⟨64, 1, 0, true⟩], i.wf = false := by decide

/-- And with the last number. -/
theorem test_wf_accepted : ∀ i ∈ [Instr.add 65535 3 31 31 31, .ptmRequest 7, .unitCommand 2047, .endMarker 15 63, .journalFlush 7, .clockInputLoss 9], i.wf = true := by decide

/-! ### States -/

/-- A descriptor from its fields: byte, bit, width, value. -/
def dsc (l : List (Nat × Nat × Nat × Nat)) : Desc := l.foldl (fun x f => setBits x (8 * f.1 + f.2.1) f.2.2.1 f.2.2.2) 0#512

/-- Register words in force from their fields: key, then lowest bit, width and value of each field. -/
def words (l : List (Nat × List (Nat × Nat × Nat))) : Tab Word :=
  l.foldl (fun t e => Tab.set t e.1 (e.2.foldl (fun w f => setBits w f.1 f.2.1 f.2.2) 0#64)) []

/-- PRT_DEF of a partition that has Basket IDs 1,024p to 1,024p + 1,023, QPs 256p to 256p + 255, 16 tenants, the plain range of 16 GiB at 4 + 16p GiB, the Sail window
of 8 MiB at 8p, 64 KiB of program store, and the halves 0 to 3. -/
def partWords (p : Nat) : List (Nat × List (Nat × Nat × Nat)) :=
  [(objKey 0x0700080 p, [(0, 1, 1), (1, 20, 1024 * p), (21, 21, 1024), (42, 14, 256 * p)]),
   (objKey 0x0700088 p, [(0, 15, 256), (16, 16, 16 * p), (32, 17, 16)]),
   (objKey 0x0700090 p, [(0, 12, 16 + 64 * p), (12, 12, 64), (24, 8, 8 * p), (32, 8, 8), (40, 9, 64)]),
   (objKey 0x0700098 p, [(0, 8, 15)])]

/-- The control plane of a device that is READY at one second, with partitions 0 and 1 and more words in force. -/
def ctl (l : List (Nat × List (Nat × Nat × Nat))) : Ctl :=
  { Ctl.reset with
    shell := { Shell.reset with cfg := words (partWords 0 ++ partWords 1 ++ l) }
    ticks := 500000000
    ns := 1000000000
    down := []
    rst := { Rst.reset with
      stage := 15
      ready := true } }

/-- A thread of partition 0 on tile 0, in slot 0 of core 0. -/
def thread : Thread :=
  { part := 0, prog := 0, bsk := some 5, cls := 3, tag := 7, rt := false, pc := 8, s := [(1, 5#64), (2, 3#64)], d := [], p1 := false, p2 := true, p3 := false,
    dmask := 0, smask := 1, issued := 0, run := .inSlot 0 0, wait := none, since := 0, ops := [], held := [], nextOp := 1, acc := none, lost := none, frac := 0,
    ending := none }

/-- The data plane with thread 0. -/
def dat (th : Thread) : Data :=
  { Data.reset with
    tick := 500000000
    fyl := { Data.reset.fyl with threads := [(0, th)] } }

/-- A state with nothing waiting. -/
def st (k : Ctl) (d : Data) : State := ⟨k, d, []⟩

/-- The thread with a descriptor in d0, for an engine issue with tag 9. -/
def issuer (l : List (Nat × Nat × Nat × Nat)) : Thread :=
  { thread with
    s := [(1, 9#64)]
    d := [(0, dsc l)] }

/-- A word that the words in force do not hold reads as at reset, so that a field which differs names one that they hold. -/
theorem cfg_key {k : Ctl} {a m lo w : Nat} (h : k.fld (objKey a m) lo w ≠ fld (resetWord a) lo w) : ∃ e ∈ k.shell.cfg, e.1 = objKey a m := by
  by_cases hk : ∃ e ∈ k.shell.cfg, e.1 = objKey a m
  · exact hk
  · have hg : ∀ t : Tab Word, (∀ e ∈ t, e.1 ≠ objKey a m) → Tab.get? t (objKey a m) = none := by
      intro t ht
      induction t with
      | nil => rfl
      | cons e r ih => simp [Tab.get?, ht e (by simp), ih fun x hx => ht x (by simp [hx])]
    have hz : k.word (objKey a m) = resetWord a := by
      have hw : (objKey a m) % 2 ^ 26 = a % 2 ^ 26 := by unfold objKey; omega
      unfold Ctl.word Tab.getD resetWord
      rw [hg k.shell.cfg fun e he c => hk ⟨e, he, c⟩, hw]
    exact absurd (by rw [Ctl.fld, hz]) h

/-! ### The queue and the Fyley cores -/

theorem wit_stepRunsFrontCommand : ({ State.reset with pending := [.startupStep 0 []] } : State).pending = .startupStep 0 [] :: [] := rfl

/-- ScalarRegisterForms, ScalarImmediateForms, DescriptorFields, YieldLiveFence, SysGetForms: a thread that issues at a multiple of 8, predicated on p2. -/
theorem wit_issues : Issues (dat thread) 0 2 thread ∧ thread.pc % 8 = 0 ∧ (31 : Nat) < 32 ∧ thread.run = .inSlot 0 0 ∧ thread.rt = false := by
  unfold Issues; decide +kernel

/-- PredicateForms: a predicate that reads 0. -/
theorem wit_predicate_off : (dat thread).thr 0 = some thread ∧ thread.running = true ∧ thread.pReg (1 : BitVec 2).toNat = false := by decide +kernel

/-- LoadStoreForms: the last 8 bytes of the plain range, and a descriptor at its first byte. -/
theorem wit_accessOk : Data.mayGrant (ctl []) (dat thread) 0 0 = true ∧ AccessOk (ctl []) 0 (0x500000000 - 8) 8 ∧ AccessOk (ctl []) 0 0x100000000 64 ∧
    (ctl []).plainDown (0x500000000 - 8) 8 = false ∧ (ctl []).plainDown 0x100000000 64 = false := by
  unfold AccessOk; decide +kernel

/-- AccessRefused: a misaligned address, and the first byte beyond the plain range; the last record, ledger entry and context of the system area. -/
theorem wit_accessRefused : ¬ AccessOk (ctl []) 0 0x100000001 2 ∧ ¬ AccessOk (ctl []) 0 0x500000000 64 ∧
    (basketDpa 1048575, ledgerDpa 8191 63, ctxDpa 3 4095) = (0x0FFFFF00, 0x107FFFF0, 0x12FFF800) := by unfold AccessOk; decide +kernel

/-- BranchForms: the first and the last instruction of a program of four words, from byte 8. -/
theorem wit_branch : let k := { ctl [] with progs := [(0, ⟨[0, 0, 0, 0], false⟩)] }
    0 < k.progBytes thread ∧ ((0 : Nat) : Int) = thread.pc + 4 * (-2 : BitVec 24).toInt ∧ 12 < k.progBytes thread ∧ ((12 : Nat) : Int) = thread.pc + 4 * (1 : BitVec 19).toInt ∧
    4 < k.progBytes thread ∧ 4 = (thread.sReg (1 : BitVec 5).toNat).toNat / 4 * 4 := by decide +kernel

/-- An operation issued and not started. -/
def waitingOp : Op := { id := 0, eng := 5, op := 0, tag := 3, pre := 0, cls := 3, bsk := none, desc := 0, started := false, done := none }

/-- A completion held with tag 3. -/
def heldCpl : Cpl := ⟨.badDesc, 5, 3, none, 0, 0, 0⟩

/-- WaitForms: the oldest of tag 3 stands second. -/
theorem wit_wait_held : let th := { thread with held := [{ heldCpl with tag := 4 }, heldCpl] }
    Issues (dat th) 0 0 th ∧ th.held = [{ heldCpl with tag := 4 }] ++ heldCpl :: [] ∧ heldCpl.tag = fld (th.sReg (2 : BitVec 5).toNat) 0 16 ∧
    (∀ x ∈ [{ heldCpl with tag := 4 }], x.tag ≠ heldCpl.tag) := by unfold Issues; decide +kernel

theorem wit_wait_any : let th := { thread with held := [heldCpl] }
    Issues (dat th) 0 0 th ∧ th.held = [] ++ heldCpl :: [] ∧ th.ops = [] := by unfold Issues; decide +kernel

/-- WaitForms: an operation outstanding with the tag waited for. -/
theorem wit_wait_unmet : let th := { thread with ops := [waitingOp] }
    Issues (dat th) 0 0 th ∧ th.run = .inSlot 0 0 ∧ th.rt = false ∧ waitingOp ∈ th.ops ∧ waitingOp.tag = fld (th.sReg (2 : BitVec 5).toNat) 0 16 ∧
    (∀ x ∈ th.held, x.tag ≠ waitingOp.tag) ∧ th.held = [] := by unfold Issues; decide +kernel

/-- ThreadEnds: status OK, and 0xFF, which R80 does not list. -/
theorem wit_threadEnds : let d := dat thread
    Issues d 0 0 thread ∧ thread.ops = [] ∧ (∀ x ∈ d.adp.pins, x.1 ≠ 0) ∧ Tab.get? d.fyl.owed 0 = none ∧ fld (thread.sReg (0 : BitVec 5).toNat) 0 8 = Status.ok.code ∧
    fld ({ thread with s := [(1, 0xFF#64)] }.sReg (1 : BitVec 5).toNat) 0 8 = 0xFF ∧ Status.ofCode? 0xFF = none := by unfold Issues; decide +kernel

theorem wit_threadEnds_outstanding : let th := { thread with ops := [waitingOp] }
    Issues (dat th) 0 0 th ∧ th.ops ≠ [] := by unfold Issues; decide +kernel

/-- UndefinedEncodingFaults: MAJOR 0 and MAJOR 0x3F. -/
theorem wit_undefined : let d := dat thread
    d.thr 0 = some thread ∧ thread.running = true ∧ fld (0 : BitVec 32) 26 6 = 0 ∧ 0x21 ≤ fld (0xFC000000 : BitVec 32) 26 6 ∧ thread.ops = [] ∧
    (∀ x ∈ d.adp.pins, x.1 ≠ 0) ∧ Tab.get? d.fyl.owed 0 = none ∧ d.cntVal (cntAddr 0x10 0 2) < 2 ^ 64 - 1 := by decide +kernel

/-- Words that give partition 0 the first 8 flag cells. -/
def flagWords : List (Nat × List (Nat × Nat × Nat)) := [(0x0640040, [(16, 17, 8)])]

/-- FlagForms: cell 5, with each condition met by a value. -/
theorem wit_flags : let k := ctl flagWords
    Issues (dat thread) 0 0 thread ∧ (thread.sReg (1 : BitVec 5).toNat).toNat < (k.frange 0).2 ∧
    k.down.contains (64 * (((k.frange 0).1 + (thread.sReg (1 : BitVec 5).toNat).toNat) % 4) + 63) = false ∧ (3#64 - 3#64).toInt = 0 ∧ (3#64 - 4#64).toInt < 0 ∧ 3#64 ≠ 4#64 := by
  unfold Issues; decide +kernel

/-- FlagForms: thread 1 waits for cell 5 to hold 3, which thread 0 stores. -/
theorem wit_flag_wake : let w := { thread with run := .waiting, wait := some (.flag 5 0 3#64 4) }
    let d := { dat thread with fyl := { Data.reset.fyl with threads := [(0, thread), (1, w)] } }
    Issues d 0 0 thread ∧ d.thr 1 = some w ∧ w.wait = some (.flag (((ctl flagWords).frange 0).1 + (thread.sReg (1 : BitVec 5).toNat).toNat) 0 3#64 4) ∧
    flagCond 0 (thread.sReg (2 : BitVec 5).toNat) 3#64 = true ∧ w.run = .waiting := by unfold Issues; decide +kernel

/-- Channel 1 of partition 0, enabled. -/
def chanWords : List (Nat × List (Nat × Nat × Nat)) := [(chCfg 1, [(0, 1, 1)]), (chCfg 2, []), (chCfg 31, [(0, 1, 1), (1, 4, 1)])]

/-- MailboxForms: an enabled channel of the partition, full and empty; the register pair s2 and s3. -/
theorem wit_mailbox : let k := ctl chanWords
    let th := { thread with s := [(1, 1#64), (2, 3#64)] }
    Issues (dat th) 0 0 th ∧ fld (th.sReg (1 : BitVec 5).toNat) 0 6 = 1 ∧ k.chPart 1 = th.part ∧ k.chOn 1 = true ∧ (2 : BitVec 5).toNat % 2 = 0 ∧
    (2 : BitVec 5).toNat < 31 ∧ ((dat th).chan 1).outFull = false ∧ ((dat th).chan 1).inFull = false ∧
    (({ dat th with mbx := ⟨[(1, { chanReset with inFull := true, outFull := true, dbK := 3#32 })], [], [], []⟩ } : Data).chan 1).dbK &&&
      (th.sReg (2 : BitVec 5).toNat).setWidth 32 ≠ 0#32 := by unfold Issues; decide +kernel

/-- MailboxForms: channels 0, 31 of partition 1, 32 and 63 are foreign; channel 2 is not enabled. -/
theorem wit_mailbox_refused : let k := ctl chanWords
    k.chPart 31 ≠ thread.part ∧ k.chPart 2 = thread.part ∧ k.chOn 2 = false := by decide +kernel

/-- A ring of partition 0 on tile 0 of 4 entries, fed by threads. -/
def ringWords (p : Nat) (producer : Nat) : List (Nat × List (Nat × Nat × Nat)) :=
  [(ldef (16 * p) 0, [(0, 1, 1), (1, 1, producer), (6, 42, 0x104000000 / 64)]), (ldef (16 * p) 1, [(4, 44, 0x104001000 / 16), (48, 16, 0xFFFF)]), (ldef (16 * p) 2, [(0, 17, 4)])]

/-- ThreadLaunchQueues: three of four entries used. -/
theorem wit_threadLaunch : let k := ctl (ringWords 0 1)
    let d := (dat thread).setRing 0 ⟨3, 0, 0, 0⟩
    Issues d 0 0 thread ∧ k.ringOn 0 = true ∧ k.ringThreads 0 = true ∧ ((d.ring 0).prod + 2 ^ 32 - (d.ring 0).cprod) % 2 ^ 32 ≠ k.ringSize 0 := by
  unfold Issues; decide +kernel

/-! ### Baskets and engine issues -/

/-- A Basket of partition 0 of model 3, in a state. -/
def basket (x : BState) : Basket :=
  { Basket.freed 0 with
    state := x
    anchor := true
    model := 3 }

/-- The data plane with thread 0, and Basket 5. -/
def datB (th : Thread) (x : Basket) : Data := { dat th with bsk := ⟨[(5, x)], [], [], []⟩ }

/-- BasketWords: word 9 of Basket 5, all of it and none of it program-written in the state; s1 holds the ID. -/
theorem wit_basketWords : let k := ctl []
    let d := datB thread (basket .prefill)
    let x := d.basket 5
    Issues d 0 0 thread ∧ thread.pc % 8 = 0 ∧ fld (thread.sReg (1 : BitVec 5).toNat) 0 20 = 5 ∧ k.bskPart 5 = some thread.part ∧ x.lost = false ∧ x.state ≠ .free ∧
    x.state ≠ .orphaned ∧ thread.sReg (2 : BitVec 5).toNat ≠ 0#64 ∧ thread.sReg (2 : BitVec 5).toNat &&& ~~~ x.writeMask 9 = 0#64 := by unfold Issues; decide +kernel

/-- IssueQueues: an earlier operation of the engine that has not started; 31 entries reserved, and 32. -/
theorem wit_issueQueues : let th := { thread with ops := [waitingOp], held := List.replicate 30 heldCpl }
    Issues (dat th) 0 0 th ∧ th.reserved = 31 ∧ (dat th).heldPart th.part = false ∧ (∃ o ∈ th.ops, o.eng = 5 ∧ o.started = false ∧ o.done = none) := by
  unfold Issues; decide +kernel

theorem wit_issueQueues_full : let th := { thread with ops := [waitingOp], held := List.replicate 31 heldCpl }
    Issues (dat th) 0 0 th ∧ th.reserved = 32 ∧ th.ops ≠ [] ∧ th.run = .inSlot 0 0 ∧ th.rt = false := by unfold Issues; decide +kernel

/-- IssueQueues: the kinds of the rows that a descriptor's KIND selects, at both ends. -/
theorem wit_issueKinds : df (dsc [(0, 4, 3, 3)]) 0 4 3 = 3 ∧ df (dsc [(0, 0, 1, 1)]) 0 0 1 = 1 ∧ df (dsc [(0, 0, 2, 3)]) 0 0 2 = 3 ∧ df (dsc []) 0 0 2 = 0 := by
  decide +kernel

/-- The premises that the operations on Basket 5 share. -/
abbrev bskPrem (k : Ctl) (th : Thread) (d : Data) (opc : Nat) : Prop :=
  Issues d 0 0 th ∧ Prompt k d th (newOp k th 10 opc (some 5) 1 0) ∧ descOk (th.dReg 0) [(0, 0, 20)] = true ∧ df (th.dReg 0) 0 0 20 = 5 ∧
  k.bskPart 5 = some th.part ∧ k.up (5 % 4) 21 = true ∧ (d.basket 5).lost = false

/-- The issue of an operation on Basket 5. -/
def onFive : Thread := issuer [(0, 0, 20, 5)]

theorem wit_bsk_prefill : let d := datB onFive (basket .admitted)
    bskPrem (ctl []) onFive d 13 ∧ (d.basket 5).receiver = false ∧ (d.basket 5).state = .admitted ∧ (basket .inPrefix).state = .inPrefix := by
  unfold bskPrem Issues Prompt; decide +kernel

theorem wit_bsk_park : let d := datB onFive (basket .decoding)
    bskPrem (ctl []) onFive d 3 ∧ (d.basket 5).state = .decoding ∧ (d.basket 5).parks = [] ∧ (d.basket 5).budPark = false ∧ anyOp d 5 Op.decode = false := by
  unfold bskPrem Issues Prompt; decide +kernel

theorem wit_bsk_resume : let d := datB onFive (basket .parked)
    bskPrem (ctl []) onFive d 4 ∧ (d.basket 5).state = .parked := by unfold bskPrem Issues Prompt; decide +kernel

theorem wit_bsk_unhold : let d := datB onFive { basket .anchor with held := true }
    bskPrem (ctl []) onFive d 5 ∧ (d.basket 5).state = .anchor ∧ (d.basket 5).held = true := by unfold bskPrem Issues Prompt; decide +kernel

/-- A model of one layer of pages of 16 tokens, one head of 64 BF16 values, in the plain tier: number 3 of partition 0. -/
def modelWords : List (Nat × List (Nat × Nat × Nat)) :=
  [(0x0000040, [(0, 3, 4)]), (mdefKey 3 0, [(0, 1, 1), (6, 5, 1), (13, 9, 1)]), (mdefKey 3 1, [(0, 1, 1), (10, 38, 0x110000000 / 1024)]),
   (mdefKey 3 2, [(0, 32, 1024)]), (mdefKey 3 3, [(6, 42, 0x118000000 / 64)])]

/-- BasketQueriesAndTimers: admission of an origin with tenant 15 and no adapter, which takes Basket 4, ID 0 being taken. -/
theorem wit_admit : let k := ctl modelWords
    let th := issuer [(0, 1, 16, 15), (0, 17, 12, 3), (8, 0, 32, 1), (12, 0, 32, 0xFFFF), (24, 0, 32, 0xFFFFFFFF)]
    let d := { dat th with bsk := ⟨[(0, basket .prefill)], [], [], []⟩ }
    Issues d 0 0 th ∧ Prompt k d th (newOp k th 10 0 none 1 0) ∧ admitBad k d th.part (th.dReg 0) = false ∧ admitPerm k th.part (th.dReg 0) = false ∧
    df (th.dReg 0) 12 0 16 = 0xFFFF ∧ admitId k d th.part = some 4 := by unfold Issues Prompt; decide +kernel

theorem wit_release : let d := datB onFive (basket .parked)
    bskPrem (ctl modelWords) onFive d 1 ∧ (d.basket 5).state ≠ .free ∧ (d.basket 5).state ≠ .handing ∧ (d.basket 5).state ≠ .releasing ∧
    bskPrem (ctl modelWords) onFive (datB onFive { basket .releasing with releases := [(1, 4)] }) 1 := by unfold bskPrem Issues Prompt; decide +kernel

/-- BasketQueriesAndTimers: with no command waiting, a release of two operations of thread 0. -/
theorem wit_releasesEnd : let th := { thread with ops := [{ waitingOp with started := true }, { waitingOp with id := 4, started := true }] }
    let d := datB th { basket .releasing with releases := [(0, 0), (0, 4)] }
    (st (ctl []) d).pending = [] ∧ d.adp.commits = [] ∧ d.mat.evicts = [] ∧ (∀ e ∈ d.fyl.threads, ∀ o ∈ e.2.ops, o.started = true) ∧
    (∀ e ∈ d.bsk.tab, e.2.state = .releasing → e.1 = 5) ∧ (d.basket 5).state = .releasing ∧ (d.basket 5).lost = false ∧ (d.basket 5).releases = [(0, 0), (0, 4)] ∧
    d.thr 0 = some th ∧ (∃ o ∈ th.ops, o.id = 4 ∧ o.done = none) := by decide +kernel

theorem wit_query_local : let d := datB onFive (basket .free)
    bskPrem (ctl []) onFive d 2 ∧ df (onFive.dReg 0) 0 20 1 = 0 ∧ descOk (onFive.dReg 0) [(0, 0, 21), (4, 0, 32), (8, 0, 14)] = true := by
  unfold bskPrem Issues Prompt; decide +kernel

/-- An END record, and a push that has sent it. -/
def endRec : EndRec := ⟨1, 16, 1, 0⟩
def pushCtx : PushCtx := { ctx0 false with layers := [(0, { layer0 with next := 16, fin := true })], pages := 1, endRec := some endRec }

/-- BasketQueriesAndTimers: HANDOFF_TMO at its tick, with a re-offer left and without. -/
theorem wit_handoffTmo : let k := ctl [(0x1100040, [(0, 16, 10), (16, 4, 3)])]
    let x := { basket .handing with retries := 2, deadline := some 500000000 }
    let d := { datB thread x with spl := { (dat thread).spl with ctxs := [(5, pushCtx)] } }
    (d.basket 5).deadline = some 500000000 ∧ 500000000 ≤ k.ticks ∧ (d.basket 5).state = .handing ∧ d.ctx 5 = some pushCtx ∧ (d.basket 5).retries < k.retryMax ∧
    k.retryMax ≤ ({ x with retries := 3 } : Basket).retries := by decide +kernel

/-- BasketQueriesAndTimers: a receiver whose time is over. -/
theorem wit_receiverTmo : let x := { basket .admitted with receiver := true, anchor := false, deadline := some 500000000 }
    let d := datB thread x
    (d.basket 5).deadline = some 500000000 ∧ 500000000 ≤ (ctl []).ticks ∧ (d.basket 5).receiver = true ∧ (d.basket 5).state = .admitted ∧
    ({ x with state := .pushing } : Basket).state = .pushing := by decide +kernel

/-- QP 3 of partition 0, READY, with peer node 8 and peer QP 2. -/
def qpUp : Qp :=
  { qpReset with
    state := .ready
    incarn := 1
    peerNode := 8
    peerQp := 2
    peerIncarn := 1
    rqDepth := 4
    links := [(0, 0)]
    rate := 100 }

/-- The data plane with thread 0 and a message waiting on QP 3 for an engine. -/
def datM (th : Thread) (consumer : Nat) (m : List Byte) : Data :=
  { dat th with ttx := { (dat th).ttx with
    qps := [(3, qpUp)]
    inbox := [⟨3, consumer, 0, 0, 1, m⟩] } }

/-- A receiver that awaits its push from Basket 7 of node 8 on QP 3. -/
def receiver (x : BState) : Basket :=
  { basket x with
    anchor := false
    receiver := true
    epoch := 1
    peerBasket := 7
    peerNode := 8
    qp := 3
    nodeKnown := true
    qpKnown := true
    basketKnown := true
    layersIn := 1 }

/-- HandoffMessages: an offer whose check passes, to the receiver, Basket 5. -/
theorem wit_offer : let k := ctl modelWords
    let m := splHdr 0x04 0 0 7 5 1 ++ bytesLE 2 1 ++ bytesLE 2 0 ++ bytesLE 4 16 ++ bytesLE 4 1 ++ bytesLE 4 0 ++ bytesLE 8 0 ++ bytesLE 8 0
    let d := { datM thread 1 m with bsk := ⟨[(5, receiver .pushing)], [], [], []⟩, spl := { (dat thread).spl with ctxs := [(5, { pushCtx with endRec := none })] } }
    let x := d.basket (msgRecv m)
    d.peekSpool 3 0x04 = some m ∧ x.receiver = true ∧ x.state = .pushing ∧ peerMatch d 3 (msgSend m) x = true ∧ x.epoch = BitVec.ofNat 32 (msgEpoch m) ∧
    endCheck k d (msgRecv m) (endRecOf m) = true ∧ (d.ledger 3).length < 64 := by decide +kernel

/-- An origin that is HANDING Basket 5 to Basket 9 of node 8. -/
def origin : Basket :=
  { receiver .handing with
    receiver := false
    peerBasket := 9
    anchor := false }

/-- HandoffMessages: COMMIT, ANCHORED, REFUSE and UNKNOWN to the origin. -/
theorem wit_replies : ∀ ty ∈ [0x05, 0x06, 0x08, 0x09],
    let m := splHdr ty 0x19 0 5 9 1
    let d := { datM thread 1 m with bsk := ⟨[(5, origin)], [], [], []⟩, spl := { (dat thread).spl with ctxs := [(5, pushCtx)] } }
    d.peekSpool 3 ty = some m ∧ replyMatch d 3 m = true ∧ (d.basket (msgSend m)).state = .handing := by decide +kernel

/-- HandoffMessages: the `push.end` that waits for the answer to the offer of Basket 5: operation 0 of thread 0. -/
theorem wit_offerEnds : let c : PushCtx := { pushCtx with endOp := some (0, 0) }
    let d := { dat { thread with ops := [{ waitingOp with started := true }] } with
      bsk := ⟨[(5, origin)], [], [], []⟩
      spl := { (dat thread).spl with ctxs := [(5, c)] } }
    d.ctx 5 = some c ∧ c.endOp = some (0, 0) ∧ (∃ th o, d.thr 0 = some th ∧ o ∈ th.ops ∧ o.id = 0 ∧ o.done = none) := by
  exact ⟨rfl, rfl, _, _, rfl, List.mem_singleton.mpr rfl, rfl, rfl⟩

/-- HandoffMessages: a query of a Basket of the QP's partition, and of one of partition 1. -/
theorem wit_query_remote : ∀ b ∈ [5, 1024],
    let m := splHdr 0x0A 0 0 0xFFFFF b 1
    let d := datM thread 1 m
    d.peekSpool 3 0x0A = some m ∧ (d.qp 3).state = .ready ∧ (b = 5 → (ctl []).bskPart (msgRecv m) = some (d.qp 3).part) ∧
    (b = 1024 → ¬ (ctl []).bskPart (msgRecv m) = some (d.qp 3).part) := by decide +kernel

/-- HandoffMessages: an answer to operation 0 of thread 0. -/
theorem wit_answer : let m := splHdr 0x0B 0 0 0xFFFFF 9 1 ++ bytesLE 4 33
    let th := { thread with ops := [{ waitingOp with eng := 10, op := 2, started := true }] }
    let d := { datM th 1 m with spl := { (dat th).spl with queries := [(0, 0, 3, 9, 1)] } }
    d.peekSpool 3 0x0B = some m ∧ d.spl.queries.find? (fun x => x.2.2.1 == 3 && x.2.2.2.1 == msgRecv m && x.2.2.2.2 == msgEpoch m) = some (0, 0, 3, msgRecv m, msgEpoch m) ∧
    d.thr 0 = some th ∧ (∃ o ∈ th.ops, o.id = 0 ∧ o.done = none) ∧ Status.ofCode? (msgStatus m) = some .ok := by decide +kernel

/-! ### Scheduling, traffic and budgets -/

/-- ThreadSlots: a launch entry in slot 1 of the ring of partition 0, tile 0; frame 0 is taken. -/
theorem wit_launchTake : let k := { ctl (ringWords 0 0) with progs := [(0, ⟨[0#32], false⟩)] }
    let d := (dat thread).setRing 0 ⟨2, 1, 0, 0⟩
    let x : Desc := BitVec.ofNat 512 (d.rd (k.ringBase 0 + 64 * ((d.ring 0).cons % Nat.max 1 (k.ringSize 0))) 64)
    k.kDown = false ∧ k.up 0 0 = true ∧ k.ringOn 0 = true ∧ (d.ring 0).cons ≠ (d.ring 0).prod ∧ df x 0 56 8 = 0 ∧ Tab.has k.progs (df x 0 0 16) = true ∧
    k.bskPart (df x 0 16 20) = some 0 ∧ Tab.freeIn d.fyl.threads 0 4096 = some 1 := by decide +kernel

/-- ThreadSlots: a thread at the end of its slice, one that leaves its slot to wait, and one that is ready behind a free slot. -/
theorem wit_slots : let k := ctl [(0x1000040, [(0, 16, 1)])]
    let a := { thread with issued := 64, slice := 1 }
    let b := { thread with run := .leaving 0 0, wait := some .issue }
    let c := { thread with run := .ready }
    let d := { dat c with fyl := { (dat c).fyl with readyQ := [0] } }
    (dat a).thr 0 = some a ∧ a.running = true ∧ a.run = .inSlot 0 0 ∧ a.rt = false ∧ 64 * a.slice ≤ a.issued ∧
    k.up 0 0 = true ∧ slotOf (dat b) 0 0 0 = some (0, b) ∧ b.run = .leaving 0 0 ∧ (dat b).fyl.readyQ = [] ∧ b.wait.isSome = true ∧
    d.thr 0 = some c ∧ slotOf d 0 3 7 = none ∧ k.coreUp 0 3 = true ∧ k.slotRt 7 = false ∧ d.fyl.readyQ = [0] ∧ c.cls < 8 ∧
    (capGrant k d 0 c.cls c.part false).2 = true := by decide +kernel

/-- CompletionPosts: a finished operation, and a thread that waits for its tag. -/
theorem wit_completionPost : let o := { waitingOp with started := true, done := some heldCpl }
    let a := { thread with ops := [o] }
    let b := { a with run := .waiting, wait := some (.tag 3 0 true 1) }
    (dat a).thr 0 = some a ∧ a.ops.find? (fun x => x.id == 0) = some o ∧ o.done = some heldCpl ∧ a.ending = none ∧ AllDone (dat a) ∧ (dat a).adp.commits = [] ∧
    (∀ x ∈ (dat a).spl.ctxs, x.2.endOp = none) ∧ a.wait = none ∧ (dat b).thr 0 = some b ∧ AllDone (dat b) ∧ b.wait = some (.tag heldCpl.tag 0 true 1) ∧ b.run = .waiting ∧
    (∀ x ∈ b.held, x.tag ≠ heldCpl.tag) := by unfold AllDone; decide +kernel

/-- PinsAndReclaim: the last pin of a frame whose references are gone, and one of two pins. -/
theorem wit_pinDrop : let a := 0x118000000
    let d := { (dat thread).wr a 8 (2 ^ 16 + 2 ^ 48) with kvw := { (dat thread).kvw with pins := [(0, 7, a)] } }
    let e := (dat thread).wr a 8 (2 ^ 17)
    d.live 0 7 = false ∧ d.kvw.pins.filter (fun x => x.1 == 0 && x.2.1 == 7) = [(0, 7, a)] ∧ refcnt d a = 0 ∧ pinCnt d a = 1 ∧ frecState d a = 1 ∧ 1 < pinCnt e a := by
  decide +kernel

theorem wit_sweeps : let k := ctl [(0x1200040, [(0, 16, 100)])]
    let d := { dat thread with kvw := { (dat thread).kvw with sweep := some ⟨15, [(0, 7)], true⟩ } }
    d.kvw.nextSweep ≤ k.ticks ∧ (dat thread).kvw.sweep = none ∧ d.kvw.sweep = some ⟨15, [(0, 7)], true⟩ ∧ d.live 0 7 = false ∧ d.kvw.owedSweeps = 0 := by decide +kernel

/-- Meters: partition 1 has 16 tenants at 0x510000000 and 8 accounts at 0x511000000. -/
def tableWords : List (Nat × List (Nat × Nat × Nat)) :=
  [(0x1D41040, [(6, 42, 0x510000000 / 64)]), (0x1D41048, [(0, 17, 16)]), (0x1D41080, [(6, 42, 0x511000000 / 64)]), (0x1D41088, [(0, 21, 8)])]

/-- A thread of partition 1 on Basket 1,025. -/
def thread1 (l : List (Nat × Nat × Nat × Nat)) : Thread :=
  { issuer l with
    part := 1
    bsk := some 1025 }

/-- The data plane with a meter entry of tenant 0 and class 3 whose tokens are `tc` and `tp`, colour-aware, with both actions. -/
def metered (th : Thread) (tc tp : Nat) : Data :=
  (((dat th).wr (0x510000000 + 192 + 16) 1 (3 + 4 + 16)).wr (0x510000000 + 192 + 8) 8 (1000 + 2000 * 2 ^ 32)).wr (0x510000000 + 192 + 24) 16
    (tc + tp * 2 ^ 32 + 1000000000 * 2 ^ 64)

/-- Meters: a `tq.send` of 100 bytes at the head of its queue, green, yellow by its tokens, and red by its pre-colour. -/
theorem wit_meters : let k := ctl tableWords
    let o := { waitingOp with eng := 6, op := 3, desc := dsc [(16, 0, 25, 100)] }
    let th := { thread1 [] with ops := [o] }
    let a := 0x510000000 + 192
    let g := metered th 5 5
    let y := metered th 0 5
    g.thr 0 = some th ∧ th.ops.find? (fun x => x.id == 0) = some o ∧ metering k g th o = .entry a ∧ atHead g 0 th o = true ∧ o.metered = false ∧
    (∀ h ∈ g.trf.meterHeld, ¬ (h.thread = 0 ∧ h.opId = 0)) ∧ bitsOf (g.rd (a + 16) 1) 1 1 = 1 ∧ ¬ 2 ≤ o.pre ∧ 0 < (meterGrow g a k.ns).1 ∧ 0 < (meterGrow g a k.ns).2.1 ∧
    (meterGrow y a k.ns).1 ≤ 0 ∧ 0 < (meterGrow y a k.ns).2.1 ∧ 2 ≤ ({ o with pre := 2 } : Op).pre := by decide +kernel

/-- Meters: a held operation whose tokens are there again. -/
theorem wit_meter_again : let k := ctl tableWords
    let d := { metered (thread1 []) 0 1 with trf := { (dat thread).trf with meterHeld := [⟨0, 0, 6, 100, 0x510000000 + 192, 0, false⟩] } }
    ∃ h, d.trf.meterHeld.find? (fun h => h.thread == 0 && h.opId == 0) = some h ∧ 0 < (meterGrow d h.entry k.ns).2.1 :=
  ⟨⟨0, 0, 6, 100, 0x510000000 + 192, 0, false⟩, by decide +kernel⟩

/-- Meters: `trf.mset` with equal rates for the last tenant, and `trf.mget`. -/
theorem wit_mset : let k := ctl tableWords
    let th := thread1 [(0, 0, 32, 7), (4, 0, 32, 7), (8, 0, 32, 1000), (12, 0, 32, 2000), (16, 0, 6, 0x25), (17, 0, 3, 1), (20, 0, 16, 15), (22, 0, 3, 7)]
    let x := th.dReg 0
    Issues (dat th) 0 0 th ∧ df x 20 0 16 < (k.mtab th.part).2 ∧ Prompt k (dat th) th (newOp k th 11 3 none 1 0) ∧
    descOk x [(0, 0, 128), (16, 0, 6), (17, 0, 3), (20, 0, 16), (22, 0, 3)] = true ∧ df x 0 0 32 ≤ df x 4 0 32 ∧ df x 16 2 2 < 2 ∧ df x 16 4 2 < 3 ∧ df x 17 0 3 ≠ 0 := by
  unfold Issues Prompt; decide +kernel

theorem wit_mget : let k := ctl tableWords
    let th := thread1 [(20, 0, 16, 15), (22, 0, 3, 7), (24, 0, 48, 0x520000000)]
    let x := th.dReg 0
    Issues (dat th) 0 0 th ∧ df x 20 0 16 < (k.mtab th.part).2 ∧ Prompt k (dat th) th (newOp k th 11 4 none 1 0) ∧
    descOk x [(20, 0, 16), (22, 0, 3), (24, 0, 48)] = true ∧ df x 24 0 48 % 64 = 0 ∧ k.dpaCheck th.part (df x 24 0 48) 64 false = none := by
  unfold Issues Prompt; decide +kernel

/-- Accounts: account 7 of partition 1: a balance of 600, CAP 1,000, WINDOW 1,000 µs, prices 256 and 128, DEFER, VALID, evaluated at `last`. -/
def account (th : Thread) (refill last : Nat) : Data :=
  { (((dat th).wr (0x511000000 + 448) 24 (600 + refill * 2 ^ 64 + 1000 * 2 ^ 128)).wr (0x511000000 + 448 + 24) 12 (1000 + 256 * 2 ^ 32 + 128 * 2 ^ 48 + 2 ^ 64)).wr
      (0x511000000 + 448 + 40) 8 last with
    bsk := ⟨[(1025, { basket .decoding with part := 1, budget := 7 })], [], [], []⟩ }

theorem wit_budSet : let k := ctl tableWords
    let th := thread1 [(0, 0, 32, 7), (8, 0, 48, 1000), (16, 0, 48, 1000), (24, 0, 24, 1000), (28, 0, 16, 256), (30, 0, 16, 128), (32, 0, 3, 5), (36, 0, 1, 1)]
    let x := th.dReg 0
    let d := account th 0 0
    Issues d 0 0 th ∧ 7 < (k.btab th.part).2 ∧ (∀ c ∈ d.trf.charges, ¬ (c.part = th.part ∧ c.acct = 7)) ∧ Prompt k d th (newOp k th 11 1 none 1 0) ∧
    descOk x [(0, 0, 32), (8, 0, 48), (16, 0, 48), (24, 0, 24), (28, 0, 16), (30, 0, 16), (32, 0, 3), (34, 0, 16), (36, 0, 1)] = true ∧ df x 32 1 2 < 3 ∧
    1000 ≤ df x 24 0 24 ∧ df x 24 0 24 ≤ 10000000 ∧ df x 8 0 48 ≤ df x 16 0 48 := by unfold Issues Prompt; decide +kernel

theorem wit_budQuery : let k := ctl tableWords
    let th := thread1 [(0, 0, 32, 7), (40, 0, 48, 0x520000000)]
    let x := th.dReg 0
    let d := account th 0 0
    let a := k.acct th.part 7
    Issues d 0 0 th ∧ df x 0 0 32 < (k.btab th.part).2 ∧ Prompt k d th (newOp k th 11 2 none 1 0) ∧ descOk x [(0, 0, 32), (40, 0, 48)] = true ∧ df x 40 0 48 % 64 = 0 ∧
    k.dpaCheck th.part (df x 40 0 48) 64 false = none ∧
    acctFieldsOk (bitsOf (d.rd (a + 8) 8) 0 48) (acctCap d a) (bitsOf (d.rd (a + 24) 4) 0 24) (acctPolicy d a) = true := by unfold Issues Prompt; decide +kernel

/-- Accounts: a charge of one and a half tokens, which the account can pay. -/
theorem wit_budCharge : let k := ctl tableWords
    let th := thread1 [(0, 0, 20, 1025), (8, 0, 32, 1), (12, 0, 32, 1)]
    let d := account th 0 1000000000
    let e := k.acct th.part 7
    Issues d 0 0 th ∧ Prompt k d th (newOp k th 11 0 (some 1025) 1 0) ∧ descOk (th.dReg 0) [(0, 0, 20), (8, 0, 32), (12, 0, 32)] = true ∧ k.bskPart 1025 = some th.part ∧
    (d.basket 1025).lost = false ∧ (d.basket 1025).state ≠ .releasing ∧ (d.basket 1025).budget = 7 ∧ acctOn k d th.part 7 = true ∧ (∀ c ∈ d.trf.charges, ¬ (c.part = th.part ∧ c.acct = 7)) ∧
    d.rd (e + 28) 2 * df (th.dReg 0) 8 0 32 + d.rd (e + 30) 2 * df (th.dReg 0) 12 0 32 = 384 ∧ (384 : Int) ≤ acctBal (acctEval k d e) e := by
  unfold Issues Prompt; decide +kernel

/-- Accounts: a waiting charge of 1,200, above the balance and above CAP, which the balance meets after a window's refill. -/
theorem wit_budWindow : let k := ctl tableWords
    let c : Charge := ⟨1, 7, 0, 0, 1025, 1200⟩
    let d := { account thread 400 999000000 with trf := { (dat thread).trf with charges := [c] } }
    let a := k.acct 1 7
    let d1 := acctEval k d a
    d.trf.charges = [c] ∧ acctOn k d 1 7 = true ∧ acctPolicy d1 a = 0 ∧ (Nat.min c.cost (acctCap d1 a) : Int) ≤ acctBal d1 a := by decide +kernel

/-- RegulatorsAndWindsock. -/
theorem wit_refill : let d := dat thread
    d.trf.refillAt ≤ (ctl []).ticks ∧ AllDone d ∧ d.bdl.jobs = [] ∧ (ctl [(0x1E00040, [(12, 1, 1)])]).fld 0x1E00040 12 1 = 1 ∧ d.trf.sampleAt ≤ (ctl []).ns := by
  unfold AllDone; decide +kernel

/-! ### Pages and adapters -/

/-- Writes the page tables of Basket `b` from table unit `u` on, with its layer 0 mapping page `p` by entry `e`. -/
def mapAs (d : Data) (b u p e : Nat) : Data :=
  let at_ := fun (i : Nat) => 0x120000000 + 4096 * (u + i)
  (((d.wr (at_ 0) 8 (1 + at_ 1)).wr (at_ 1) 8 (1 + at_ 2)).wr (at_ 2 + 8 * p) 8 e).onBasket b (fun x => { x with ptRoot := at_ 0, pages := 1 })

/-- Frame `f` of the pool of model 3. -/
def frame (f : Nat) : Nat := 0x110000000 + 4096 * f

/-- The record of frame `f`, IN_USE with one reference. -/
def useFrame (d : Data) (f : Nat) : Data := d.wr (0x118000000 + 8 * f) 8 (1 + 2 ^ 48)

/-- The data plane with thread 0 and Basket 5, whose page 0 of layer 0 is frame 0. -/
def datP (th : Thread) (x : Basket) : Data := mapAs (useFrame (datB th x) 0) 5 0 0 (pte false false 1 (frame 0))

/-- Windows of partition 0 on half 0, of 4 slots of 4 KiB in plain HBM: 2 IN for data, 4 OUT for data, 6 IN for queries. -/
def winWords : List (Nat × List (Nat × Nat × Nat)) :=
  [(wdef 2 0, [(0, 1, 1), (12, 12, 4), (24, 20, 4), (44, 16, 7)]), (wdef 2 1, [(0, 48, 0x130000000)]),
   (wdef 4 0, [(0, 1, 1), (1, 1, 1), (12, 12, 4), (24, 20, 4)]), (wdef 4 1, [(0, 48, 0x131000000)]),
   (wdef 6 0, [(0, 1, 1), (2, 1, 1), (12, 12, 4), (24, 20, 4)]), (wdef 6 1, [(0, 48, 0x132000000)])]

/-- PageOperations: page 0 of Basket 5 mapped into page 511 of Basket 6, whose last-level table exists. -/
theorem wit_kvwMap : ∀ sh ∈ [true, false],
    let k := ctl modelWords
    let th := issuer [(0, 0, 20, 6), (4, 0, 20, 5), (16, 8, 9, 1), (24, 0, 24, 511), (28, 0, 13, 1)]
    let d := (mapAs ((datP th (basket .prefill)).setBasket 6 (basket .prefill)) 6 3 0 0).wr 0x120002000 8 (pte sh false 1 (frame 0))
    let x := th.dReg 0
    let y := d.basket 6
    let e := pageEntry k d 5 0 0
    let r := k.frecOf y.model (pteFrame e)
    let w1 := (d.basket 5).ptRoot
    let w2 := bitsOf (d.rd w1 8) 12 36 * 4096
    l3At d 5 0 0 = some 0x120002000 ∧ (∀ v ∈ [w1, w2, 0x120002000], (v + 8 ≤ 0x120005000 + 4088 ∨ 0x120005000 + 4088 + 8 ≤ v) ∧ (v + 8 ≤ r ∨ r + 2 ≤ v)) ∧
    pteShared e = sh ∧ Issues d 0 0 th ∧ k.bskPart 6 = some th.part ∧ k.up (6 % 4) 18 = true ∧ y.lost = false ∧ Prompt k d th (newOp k th 9 0 (some 6) 1 0) ∧
    descOk x [(0, 0, 21), (4, 0, 20), (8, 0, 58), (16, 0, 17), (20, 0, 24), (24, 0, 24), (28, 0, 13)] = true ∧ df x 0 20 1 = 0 ∧ df x 16 8 9 = 1 ∧ df x 28 0 13 = 1 ∧
    y.mapTarget = none ∧ k.bskPart (df x 4 0 20) = some th.part ∧ (d.basket 5).opCheck = none ∧ (d.basket 5).anchor = true ∧ (d.basket 5).model = y.model ∧
    df x 16 0 8 < k.mdlLayers y.model ∧ k.isReel y.model 0 = false ∧ mapOpen k d 6 0 511 = true ∧ df x 20 0 24 < pageMax ∧ pteValid e = true ∧ pteTent e = false ∧
    l3At d 6 0 511 = some (0x120005000 + 4088) ∧ refcnt d r < 65535 ∧ r + 2 ≤ 0x120005000 + 4088 := by
  unfold Issues Prompt; decide +kernel

/-- PageOperations: the one page of a Reel layer unmapped. -/
theorem wit_kvwUnmap : let k := ctl (modelWords ++ [(mdefKey 3 0, [(0, 1, 1), (3, 3, 1), (6, 5, 1), (13, 9, 1), (22, 8, 1), (38, 20, 16)])])
    let d := { datP onFive (basket .prefill) with kvw := { (dat onFive).kvw with reelTop := [(layerKey 5 0, 1)] } }
    let x := onFive.dReg 0
    Issues d 0 0 onFive ∧ Prompt k d onFive (newOp k onFive 9 1 (some 5) 1 0) ∧ descOk x [(0, 0, 20), (4, 0, 8), (8, 0, 24)] = true ∧ (d.basket 5).opCheck = none ∧
    df x 4 0 8 < k.mdlLayers 3 ∧ df x 8 0 24 < pageMax ∧ k.isReel 3 0 = true ∧ (layerPages k d 5 0).filter (fun q => decide (0 ≤ q)) = [0] ∧ mapped k d 5 0 0 = true := by
  unfold Issues Prompt; decide +kernel

/-- PageOperations: one position appended at the last position of page 0. -/
theorem wit_kvAppend : let k := ctl (modelWords ++ winWords)
    let th := issuer [(0, 0, 20, 5), (4, 0, 32, 15), (8, 0, 7, 1), (24, 0, 16, 2)]
    let d := datP th { basket .anchor with seqLen := 15 }
    let x := th.dReg 0
    let y := d.basket 5
    let size := 4 * 1 * k.mdlKh y.model * k.mdlD y.model
    Issues d 0 0 th ∧ k.bskPart 5 = some th.part ∧ k.up 1 18 = true ∧ y.lost = false ∧ Prompt k d th (newOp k th 9 2 (some 5) 1 0) ∧
    descOk x [(0, 0, 29), (4, 0, 32), (8, 0, 7), (16, 0, 48), (24, 0, 16)] = true ∧ df x 8 0 7 = 1 ∧ k.genRole = true ∧ k.winOn 2 = true ∧ k.winPart 2 = th.part ∧ k.winOut 2 = false ∧
    k.up 1 11 = true ∧ winOff k d 2 = none ∧ y.state = .anchor ∧ y.decodeCheck k = none ∧ df x 0 28 1 = 0 ∧ df x 4 0 32 = y.seqLen ∧ y.tailLen = 0 ∧
    df x 0 20 8 < k.mdlLayers y.model ∧ 15 + 1 ≤ pageMax * k.mdlT y.model ∧ size ≤ k.winSlots 2 * k.winSlotBytes 2 ∧ size ≤ k.winSlotBytes 2 ∧
    d.bad (k.winAddr 2) size = false ∧ d.flaws = [] ∧ 15 % k.mdlT y.model + 1 ≤ k.mdlT y.model ∧ pteValid (pageEntry k d 5 0 (15 / k.mdlT y.model)) = true ∧
    pteShared (pageEntry k d 5 0 (15 / k.mdlT y.model)) = false ∧ 0 + 1 = k.mdlLayers y.model := by unfold Issues Prompt; decide +kernel

/-- PageOperations: a tail of 4 positions of which 3 are accepted besides the first. -/
theorem wit_specCommit : let k := ctl modelWords
    let th := issuer [(0, 0, 20, 5), (0, 20, 7, 3)]
    let d := datP th { basket .speculating with seqLen := 8, tailLen := 4 }
    let x := th.dReg 0
    let y := d.basket 5
    Issues d 0 0 th ∧ k.bskPart 5 = some th.part ∧ k.up 1 18 = true ∧ y.lost = false ∧ Prompt k d th (newOp k th 10 12 (some 5) 1 0) ∧
    descOk x [(0, 0, 20), (0, 20, 7)] = true ∧ k.up 1 21 = true ∧ y.anchor = true ∧ y.held = false ∧ y.state = .speculating ∧ df x 0 20 7 < 64 ∧ df x 0 20 7 < y.tailLen ∧
    (∀ e ∈ d.fyl.threads, ∀ op ∈ e.2.ops, op.bsk ≠ some 5 ∧ 5 ∉ deltaNames d e.1 op) := by unfold Issues Prompt; decide +kernel

/-- An adapter table of partition 0: the directory at 0x140000000, 4 records at 0x140100000. -/
def adpWords : List (Nat × List (Nat × Nat × Nat)) :=
  modelWords ++ [(0x1140080, [(12, 36, 0x140000000 / 4096)]), (0x1140088, [(6, 42, 0x140100000 / 64)]), (0x1140090, [(0, 17, 4)])]

/-- A library object at 0x141000000 of one segment of two zero bytes, of ELEM 0. -/
def libObject (d : Data) (last : Nat) : Data :=
  (d.wrBytes 0x141000000 (envPack ⟨false, 0, []⟩ 0 0 true [0, 0]).1).wr 0x141000000 8 (1 + last * 2 ^ 23)

/-- AdapterVersions: version 2 of ID 7, rank 1, one projection of 512 by 32, with version 1 in record 0. -/
theorem wit_adpPublish : let k := ctl adpWords
    let th := issuer [(0, 0, 16, 7), (0, 16, 16, 2), (4, 0, 12, 3), (16, 0, 48, 0x141000000), (32, 0, 16, 512), (34, 0, 16, 32)]
    let d := (libObject (dat th) 4096).wr 0x140000070 4 (2 ^ 31) |>.wr 0x140100000 8 (7 + 2 ^ 16 + 2 ^ 32)
    let x := th.dReg 0
    let dims := [(512, 32)]
    Issues d 0 0 th ∧ k.up 0 21 = true ∧ k.adpCount th.part ≠ 0 ∧ Prompt k d th (newOp k th 10 6 none 1 0) ∧
    descOk x [(0, 0, 32), (4, 0, 15), (6, 0, 8), (8, 0, 32), (16, 0, 48), (32, 0, 64), (40, 0, 64)] = true ∧
    (List.range (df x 4 12 2 + 1)).map (fun j => (df x (32 + 4 * j) 0 16, df x (34 + 4 * j) 0 16)) = dims ∧
    (∀ y ∈ dims, y.1 % 512 = 0 ∧ 512 ≤ y.1 ∧ y.1 ≤ 16384 ∧ y.2 % 32 = 0 ∧ 32 ≤ y.2 ∧ y.2 ≤ 16384) ∧ k.role ≠ 0 ∧ k.dpaCheck th.part 0x141000000 8 false = none ∧
    k.mdlOn 3 = true ∧ k.mdlPart 3 = th.part ∧ d.bad 0x141000000 8 = false ∧
    (let want := k.mdlLayers 3 * layerSegs 1 dims
     k.dpaCheck th.part 0x141000000 (8 + 4 * (want + 1)) false = none ∧ k.dpaCheck th.part 0x141000000 (segStart d 0x141000000 want) false = none ∧
     d.bad 0x141000000 (8 + 4 * (want + 1)) = false) ∧ objHeader (d.rd 0x141000000 8) = some (k.mdlLayers 3 * layerSegs 1 dims, 4096, df x 4 14 1) ∧
    (∀ v ∈ liveVersions k d th.part 7, bitsOf (d.rd v 8) 16 16 < 2) ∧ liveVersions k d th.part 7 = [0x140100000] ∧
    (List.range (k.adpCount th.part)).find? (fun i => avState d (k.adpRecs th.part + 64 * i) == 0) = some 1 ∧ k.adpDir th.part + 16 * 7 + 16 ≤ k.adpRecs th.part + 64 := by
  unfold Issues Prompt; decide +kernel

/-- A thread that issues on handle (7, 1), and record 0 as that version: PUBLISHED, rank 1, one projection of 512 by 32, `n` pins. -/
def handleOps (l : List (Nat × Nat × Nat × Nat)) : Thread := issuer ([(0, 0, 32, 7 + 2 ^ 16)] ++ l)
def version (d : Data) (n : Nat) : Data :=
  ((((d.wr 0x140000070 4 (2 ^ 31)).wr 0x140100000 8 (7 + 2 ^ 16 + 2 ^ 32 + 3 * 2 ^ 45)).wr 0x140100008 4 n).wr 0x140100010 8 0x141000000).wr 0x140100020 4 (512 + 32 * 2 ^ 16)

/-- AdapterVersions: a pin, the drop of one of two pins, the retiring of a pinned version. -/
theorem wit_adpPins : let k := ctl adpWords
    let th := handleOps []
    let d := { version (dat th) 2 with adp := { (dat th).adp with pins := [(0, 0, 7 + 2 ^ 16)] } }
    let x := th.dReg 0
    let a := 0x140100000
    Issues d 0 0 th ∧ k.up 0 21 = true ∧ k.adpCount th.part ≠ 0 ∧ Prompt k d th (newOp k th 10 7 none 1 0) ∧ Prompt k d th (newOp k th 10 8 none 1 0) ∧
    Prompt k d th (newOp k th 10 9 none 1 0) ∧ descOk x [(0, 0, 32)] = true ∧ descOk x [(0, 0, 32), (4, 0, 1)] = true ∧ df x 4 0 1 = 0 ∧
    adpFind k d th.part (df x 0 0 32) = some (a, 0) ∧ (d.adp.pins.filter (fun y => y.1 == 0)).length < 8 ∧ (0, th.part, df x 0 0 32) ∈ d.adp.pins ∧ 1 < avPins d a ∧
    avState d a = 1 := by unfold Issues Prompt; decide +kernel

theorem wit_adpFetch : let k := ctl adpWords
    let th := handleOps [(4, 0, 14, 3), (8, 0, 48, 0x141000000), (16, 0, 40, 8192)]
    let d := { dat th with ttx := { (dat th).ttx with qps := [(3, qpUp)] } }
    let x := th.dReg 0
    Issues d 0 0 th ∧ k.up 0 21 = true ∧ k.adpCount th.part ≠ 0 ∧ Prompt k d th (newOp k th 10 10 none 1 0) ∧
    descOk x [(0, 0, 32), (4, 0, 14), (8, 0, 48), (16, 0, 40)] = true ∧ df x 8 0 48 % 8 = 0 ∧ k.role ≠ 0 ∧ k.role ≠ 3 ∧ k.qpPart (df x 4 0 14) = some th.part ∧
    k.dpaCheck th.part (df x 8 0 48) (df x 16 0 40) false = none ∧ (d.qp (df x 4 0 14)).state = .ready := by unfold Issues Prompt; decide +kernel

/-- No pool meets a range where none of the pools of the words in force does. -/
theorem meetsPool_false {k : Ctl} {o n : Nat} (h : ∀ e ∈ k.shell.cfg, e.1 % 2 ^ 26 = 0x1200100 →
    (k.mdlTier (e.1 / 2 ^ 26) == 0 && overlaps o n (k.mdlPool (e.1 / 2 ^ 26)) (k.mdlFrames (e.1 / 2 ^ 26) * k.frameBytes (e.1 / 2 ^ 26))) = false) :
    k.meetsPool o n = false := by
  simp only [Ctl.meetsPool, List.any_eq_false, Bool.and_assoc]
  intro m _ c
  obtain ⟨hm, hc⟩ := Bool.and_eq_true_iff.1 c
  have hr : fld (resetWord 0x1200100) 0 1 = 0 := by decide +kernel
  have hf : k.fld (objKey 0x1200100 m) 0 1 = 1 := by simpa [mdefKey] using (Bool.and_eq_true_iff.1 hm).2
  obtain ⟨e, he, hk⟩ := cfg_key (k := k) (a := 0x1200100) (m := m) (lo := 0) (w := 1) (by rw [hr, hf]; decide)
  have h1 : e.1 % 2 ^ 26 = 0x1200100 := by rw [hk, objKey]; omega
  have h2 : e.1 / 2 ^ 26 = m := by rw [hk, objKey]; omega
  have := h e he h1
  rw [h2, hc] at this
  exact Bool.noConfusion this

theorem wit_adpPlacePools : (ctl adpWords).meetsPool 0x7FFC00 1024 = false := meetsPool_false (by decide +kernel)

/-- AdapterVersions: the version placed from bank 0 and bank 1 on, at the end of the partition's window. -/
theorem wit_adpPlace : let k := ctl adpWords
    let th := handleOps [(6, 0, 11, 1), (8, 0, 28, 0x7FFC00), (12, 0, 4, 12)]
    let d := libObject (version (dat th) 0) 2
    let x := th.dReg 0
    let a := 0x140100000
    Issues d 0 0 th ∧ k.up 0 21 = true ∧ k.adpCount th.part ≠ 0 ∧ Prompt k d th (newOp k th 10 11 none 1 0) ∧
    descOk x [(0, 0, 32), (4, 0, 11), (6, 0, 11), (8, 0, 28), (12, 0, 4)] = true ∧ 1 ≤ df x 12 0 4 ∧ df x 12 0 4 ≤ 12 ∧ df x 8 0 28 % 1024 = 0 ∧ k.genRole = true ∧
    k.up 0 11 = true ∧ (∀ i, i < 4 → k.up i 10 = true) ∧ adpFind k d th.part (df x 0 0 32) = some (a, 0) ∧ avState d a = 1 ∧ avPlaced d a = false ∧ avProj d a = 1 ∧
    avRank d a = 1 ∧ avKin d a 0 = 512 ∧ avNout d a 0 = 32 ∧ k.mdlLayers (avModel d a) = 1 ∧ inside 0x7FFC00 1024 (k.sailBase th.part) (k.sailSize th.part) = true ∧
    banksMeet 0 1 1 1 = false ∧ 0x7FFC00 + 1024 ≤ bankBytes ∧ objHeader (d.rd (avObj d a) 8) = some (1, 2, 0) ∧
    (expand k d th.part (avObj d a) 1 2 0 1 0).2 = none ∧ d.flaws = [] ∧ a + 64 ≤ plainTop := by unfold Issues Prompt; decide +kernel

/-- AdapterVersions: a fetch request at a cache node, and at another. -/
theorem wit_fetchServe : let k := ctl (adpWords ++ [(0x0000040, [(0, 3, 3)])])
    let m := bytesLE 4 1 ++ bytesLE 4 (7 + 2 ^ 16) ++ bytesLE 8 4096
    let d := libObject (version (datM thread 2 m) 0) 2
    d.peekMsg 3 2 (fun m => mfld m.bytes 0 1 == 1) = some ⟨3, 2, 0, 0, 1, m⟩ ∧ (d.qp 3).state = .ready ∧ (ctl adpWords).cacheRole = false ∧ k.cacheRole = true ∧
    adpFind k d (d.qp 3).part (mfld m 4 4) = some (0x140100000, 0) ∧ objHeader (d.rd (avObj d 0x140100000) 8) = some (1, 2, 0) ∧
    8 * d.rd (avObj d 0x140100000 + 8 + 4 * 1) 4 ≤ mfld m 8 8 ∧ d.bad (avObj d 0x140100000) (8 * d.rd (avObj d 0x140100000 + 8 + 4 * 1) 4) = false := by decide +kernel

/-! ### The Spools -/

/-- QP 3 on the data plane. -/
def withQp (d : Data) : Data := { d with ttx := { d.ttx with qps := [(3, qpUp)] } }

/-- A thread on Basket 5 with an issue. -/
abbrev spoolPrem (k : Ctl) (d : Data) (th : Thread) (opc : Nat) : Prop :=
  Issues d 0 0 th ∧ th.bsk = some 5 ∧ Prompt k d th (newOp k th 1 opc (some 5) 1 0) ∧ k.bskPart 5 = some th.part ∧ k.promptRole = true ∧ k.up 1 19 = true ∧ k.up 1 18 = true ∧
  (d.basket 5).lost = false ∧ (d.basket 5).receiver = false

/-- SpoolIssues: a layer push of one page. -/
theorem wit_pushLayer : let k := ctl modelWords
    let th := issuer [(0, 8, 1, 1), (0, 10, 4, 12), (8, 0, 21, 16)]
    let d := withQp (datP th { basket .prefill with peerBasket := 9, peerNode := 8, qp := 3, nodeKnown := true, qpKnown := true, basketKnown := true })
    let x := th.dReg 0
    let y := d.basket 5
    spoolPrem k d th 0 ∧ descOk x [(0, 0, 19), (4, 0, 32), (8, 0, 21), (12, 0, 21), (16, 0, 24)] = true ∧ df x 0 9 1 = 0 ∧ df x 0 14 1 = 0 ∧ 1 ≤ df x 0 10 4 ∧
    df x 0 10 4 ≤ 12 ∧ df x 12 0 21 = 0 ∧ df x 4 0 32 = 0 ∧ df x 8 0 21 = 16 ∧ 16 % k.mdlT y.model = 0 ∧ 16 ≤ pageMax * k.mdlT y.model ∧ k.up 1 11 = true ∧
    y.state = .prefill ∧ y.nodeKnown = true ∧ y.qpKnown = true ∧ y.basketKnown = true ∧ (d.qp y.qp).state = .ready ∧ d.ctx 5 = none ∧ ctxFree d 5 = true ∧
    df x 0 0 8 < k.mdlLayers y.model ∧ k.isReel y.model 0 = false ∧ 16 / k.mdlT y.model = 1 ∧ mapped k d 5 0 0 = true ∧ pteShared (pageEntry k d 5 0 0) = false ∧
    d.bad (pageFrame k d 5 0 0) (k.pageBytes y.model) = false ∧ d.flaws = [] := by unfold spoolPrem Issues Prompt; decide +kernel

/-- SpoolIssues: `push.end` of a push to a peer, and of a local one. -/
theorem wit_pushEnd : ∀ lp ∈ [true, false],
    let k := ctl modelWords
    let th := issuer [(0, 0, 1, if lp then 1 else 0)]
    let c := { pushCtx with localPush := lp, endRec := none }
    let d := { withQp (datB th { basket .pushing with peerBasket := 9, peerNode := 8, qp := 3, nodeKnown := true, qpKnown := true, basketKnown := true }) with
      spl := { (dat th).spl with ctxs := [(5, c)] } }
    let y := d.basket 5
    spoolPrem k d th 1 ∧ descOk (th.dReg 0) [(0, 0, 1)] = true ∧ y.state = .pushing ∧ d.ctx 5 = some c ∧ c.endOp = none ∧ c.ops = [] ∧ c.endRec = none ∧ c.failed = none ∧
    (∀ l, l < k.mdlLayers y.model → (c.layer l).fin = true ∧ (c.layer l).next = (c.layer 0).next) ∧ c.localPush = lp ∧
    (df (th.dReg 0) 0 0 1 = 1 ↔ lp = true) ∧ (d.qp y.qp).state = .ready := by unfold spoolPrem Issues Prompt; decide +kernel

/-- SpoolIssues: one entry pulled into the last page. -/
theorem wit_pullPages : let k := ctl modelWords
    let th := issuer [(0, 0, 48, 0x142000000), (8, 0, 13, 1), (10, 0, 14, 3), (12, 0, 24, 262143), (17, 0, 9, 1)]
    let d := withQp (datB th (basket .admitted))
    let x := th.dReg 0
    spoolPrem k d th 2 ∧ descOk x [(0, 0, 48), (8, 0, 13), (10, 0, 14), (12, 0, 24), (16, 0, 8), (17, 0, 9)] = true ∧ df x 8 0 13 = 1 ∧ df x 17 0 9 = 1 ∧
    k.qpPart (df x 10 0 14) = some th.part ∧ k.dpaCheck th.part (df x 0 0 48) 8 false = none ∧ (d.basket 5).state = .admitted ∧
    df x 16 0 8 + df x 17 0 9 ≤ k.mdlLayers (d.basket 5).model ∧ mapOpen k d 5 0 262143 = true ∧ (d.qp 3).state = .ready ∧ d.bad (df x 0 0 48) 8 = false := by
  unfold spoolPrem Issues Prompt; decide +kernel

/-- SpoolIssues: one full page offered. -/
theorem wit_pushPrefix : let k := ctl modelWords
    let th := issuer [(0, 0, 48, 0x142000000), (8, 0, 13, 1), (10, 0, 14, 3)]
    let d := withQp (mapAs (useFrame (datB th { basket .prefill with seqLen := 16 }) 0) 5 0 0 (pte true false 1 (frame 0)))
    let x := th.dReg 0
    let pages := (List.range (k.mdlLayers 3)).flatMap (fun l => (List.range 1).map (fun i => (l, 0 + i)))
    let shared := (pages.filter (fun y => pteShared (pageEntry k d 5 y.1 y.2))).map (fun y => pageFrame k d 5 y.1 y.2)
    spoolPrem k d th 4 ∧ descOk x [(0, 0, 48), (8, 0, 13), (10, 0, 14), (12, 0, 24)] = true ∧ df x 8 0 13 = 1 ∧ k.qpPart (df x 10 0 14) = some th.part ∧
    k.dpaCheck th.part (df x 0 0 48) 8 false = none ∧ (d.basket 5).state = .prefill ∧ df x 12 0 24 + 1 ≤ pageMax ∧ k.mdlLayers (d.basket 5).model = 1 ∧ pageFull k d 5 0 0 = true ∧
    (d.qp 3).state = .ready ∧ d.bad (df x 0 0 48) 8 = false ∧ d.flaws = [] ∧ (∀ y ∈ pages, d.bad (pageFrame k d 5 y.1 y.2) (k.pageBytes 3) = false) ∧ shared = [frame 0] ∧
    pinFull k d 3 shared = false ∧ d.offerOf 3 5 = none := by unfold spoolPrem Issues Prompt; decide +kernel

/-- SpoolIssues: one page fed into the last slot of window 4, which is granted. -/
theorem wit_feedLayer : let k := ctl (modelWords ++ winWords)
    let th := issuer [(1, 0, 4, 12), (8, 0, 13, 1), (10, 0, 16, 4), (12, 0, 8, 3), (14, 0, 16, 0xFFFF)]
    let d := { datP th (basket .prefill) with bdl := { (dat th).bdl with wins := [(4, { winReset with grants := [3] })] } }
    let x := th.dReg 0
    let sh := k.shape 3
    spoolPrem k d th 3 ∧ descOk x [(0, 0, 8), (1, 0, 4), (4, 0, 24), (8, 0, 13), (10, 0, 16), (12, 0, 8), (14, 0, 16)] = true ∧ df x 1 0 4 = 12 ∧ df x 8 0 13 = 1 ∧
    k.winOn 4 = true ∧ k.winPart 4 = th.part ∧ k.winOut 4 = true ∧ k.winQuery 4 = false ∧ k.winRemote 4 = false ∧ k.up (k.winHalf 4 / 2) 16 = true ∧ k.up 1 11 = true ∧
    (d.basket 5).state = .prefill ∧ df x 4 0 24 + 1 ≤ pageMax ∧ df x 0 0 8 < k.mdlLayers 3 ∧ df x 12 0 8 < k.winSlots 4 ∧ 4 * 1 * sh.t * sh.kh * sh.dim ≤ k.winSlotBytes 4 ∧ 3 ∈ (d.win 4).grants ∧
    df x 14 0 16 = 0xFFFF ∧ pteValid (pageEntry k d 5 0 0) = true ∧ pteTent (pageEntry k d 5 0 0) = false ∧ pteShared (pageEntry k d 5 0 0) = false ∧
    d.bad (pteFrame (pageEntry k d 5 0 0)) (k.pageBytes 3) = false ∧ d.flaws = [] := by unfold spoolPrem Issues Prompt; decide +kernel

/-- A run of one page of Basket 5's layer push to Basket 9, without its data. -/
def run0 : RunTx :=
  { qp := 3, cls := 1, owner := .push 5 0, type := 0x01, sendB := 5, recvB := 9, epoch := 1, spool := 1, layer := 0, first := true, last := true, final := true,
    coded := false, table := 0, posFirst := 0, ntok := 16, pageFirst := 0, frames := [], bytes := 4096, part := 0, model := 3, asked := false, units := 0 }

/-- SpoolTraffic: a run that needs no credit. -/
theorem wit_runSend : let k := ctl modelWords
    let d := { withQp (dat thread) with spl := { (dat thread).spl with sendq := [run0] } }
    (d.qp 3).state = .ready ∧ runPick k d 1 = some run0 ∧ (List.range 4).findSome? (fun i => (runPick k d i).filter (fun r => r.qp == 3)) = some run0 ∧
    (capGrant k d (84 + run0.from) run0.cls (d.qp 3).part false).2 = true ∧ run0.owner = .push 5 0 := by decide +kernel

/-- SpoolTraffic: a Spool with a run of a prompt Basket and, behind it, one of generation, both ready. -/
theorem wit_runPrompt : let k := ctl modelWords
    let d := { withQp (datB thread (basket .prefill)) with spl := { (dat thread).spl with sendq := [run0, { run0 with sendB := 9, owner := .push 9 0 }] } }
    ∃ r, runPick k d 1 = some r ∧ run0.prompt k d = true ∧ ({ run0 with sendB := 9, owner := .push 9 0 } : RunTx).prompt k d = false := by decide +kernel

/-- SpoolTraffic: a CREDIT of each KIND, a request within CREDIT_MAX. -/
theorem wit_credit : ∀ kind ∈ [0, 1],
    let k := ctl [(0x1300040, [(0, 14, 64)])]
    let m := splHdr 0x03 0 0 5 9 1 ++ bytesLE 2 64 ++ bytesLE 1 kind
    let d := datM thread 1 m
    d.peekSpool 3 0x03 = some m ∧ mfld m 18 1 % 2 = kind ∧ d.spl.waiting = [] ∧ mfld m 16 2 ≤ mayGive k d (4 * 3 + msgRecv m % 4) (mfld m 16 2) := by decide +kernel

/-- The header of a run: its fields in order. -/
def runMsg (type sendB recvB epoch pages flags first pos ntok page check : Nat) (body : List Byte) : List Byte :=
  splHdr type 0 0 sendB recvB epoch ++ bytesLE 1 0 ++ bytesLE 1 flags ++ bytesLE 1 pages ++ bytesLE 1 first ++ bytesLE 4 pos ++ bytesLE 4 ntok ++ bytesLE 4 page ++
    bytesLE 4 body.length ++ bytesLE 4 check ++ bytesLE 8 0 ++ body

/-- SpoolTraffic: the last run of a layer push, a header only, at the receiver, whose first run it is. -/
theorem wit_layer : let k := ctl modelWords
    let m := runMsg 0x01 7 5 1 0 11 1 0 0 0 0 []
    let d := { datM thread 1 m with bsk := ⟨[(5, { receiver .admitted with layersIn := 0 })], [], [], []⟩ }
    let x := d.basket 5
    d.peekSpool 3 0x01 = some m ∧ msgRecv m = 5 ∧ k.genRole = true ∧ x.receiver = true ∧ x.state = .admitted ∧ peerMatch d 3 (msgSend m) x = true ∧
    x.epoch = BitVec.ofNat 32 (msgEpoch m) ∧ ctxFree d 5 = true ∧ layerCheck k d 5 m ((d.ctx 5).getD (ctx0 false)) = none ∧
    (∀ y ∈ d.spl.refused, y.of 3 m = false) ∧ d.flaws = [] ∧ runRaw k m x.part (k.pageBytes x.model) = some [] ∧
    (landRun k (countRun k (takeMsg k d 3) 1 x.part m) 5 0 false [] (rhPage m)).2 = true ∧ d.spl.waiting = [] := by decide +kernel

/-- SpoolTraffic: LANDED of the first of two runs. -/
theorem wit_landed : let m := splHdr 0x02 0 0 5 9 1 ++ bytesLE 4 1 ++ bytesLE 2 4
    let o : PushOp := ⟨0, 1, 0, 0, 32, 2, 0, 0, none, none⟩
    let c := { ctx0 false with ops := [o] }
    let d := { datM thread 1 m with spl := { (dat thread).spl with ctxs := [(5, c)], flight := [{ run0 with units := 4 }] } }
    d.peekSpool 3 0x02 = some m ∧
    d.spl.flight.find? (fun r => r.qp == 3 && r.sendB == msgSend m && r.recvB == msgRecv m && r.epoch == msgEpoch m) = some { run0 with units := 4 } ∧
    ({ run0 with units := 4 } : RunTx).owner = .push 5 0 ∧ d.ctx 5 = some c ∧ c.ops.find? (fun o => o.layer == 0) = some o ∧ msgStatus m = 0 ∧ 1 < o.open_ ∧ o.fail = none := by
  decide +kernel

theorem wit_promptStarved : let d := { dat thread with spl := { (dat thread).spl with promptSince := some 495000000 } }
    d.spl.promptSince = some 495000000 ∧ (ctl modelWords).role = 4 ∧ 495000000 + 5000000 ≤ (ctl modelWords).ticks := by decide +kernel

/-- The words of a cache node with a record pool for two records and prefix bank 0. -/
def cacheWords : List (Nat × List (Nat × Nat × Nat)) :=
  modelWords ++ [(0x0000040, [(0, 3, 3)]), (0x1700100, [(0, 2, 1)]), (0x1340040, [(6, 42, 0x143000000 / 64)]), (0x1340048, [(0, 6, 2), (32, 32, 2)])]

/-- A prefix record at 0x143000000 of hash 77, model 3 and one layer in frame 0. -/
def prefixRec (d : Data) : Data :=
  ((d.wr 0x143000000 8 77).wr 0x143000008 8 (3 + 2 ^ 16 + 2 ^ 32)).wr 0x143000040 8 (pte false false 1 (frame 0))

/-- SpoolTraffic: a pull of one entry at the cache node. -/
theorem wit_pullReq : let k := ctl cacheWords
    let m := pullReqMsg 5 3 0 1 0 [0x143000000 / 64 + 2 ^ 42]
    let d := useFrame (prefixRec (datM thread 1 m)) 0
    let es := (List.range (mfld m 22 2)).map (fun i => mfld m (32 + 8 * i) 8)
    let r := serveList k d 0 (mfld m 16 2) (mfld m 18 2) (mfld m 20 2) es
    d.peekSpool 3 0x10 = some m ∧ (d.qp 3).state = .ready ∧ (d.qp 3).part = 0 ∧ k.cacheRole = true ∧ r.1 = [0x143000000] ∧ 0 < mfld m 20 2 ∧
    pinFull k d 3 [pteFrame (recEntry d 0x143000000 0)] = false ∧ (∀ x ∈ d.spl.serves, x.id ≠ d.spl.nextId) := by decide +kernel

/-- A pull of one entry of one layer into page 0 of Basket 5. -/
def pull0 : PullOp := ⟨0, 0, 5, 3, 0, 0, 1, 1, [], none⟩

set_option maxRecDepth 20000 in
/-- SpoolTraffic: the pull's page lands. -/
theorem wit_pullData : let k := ctl (modelWords ++ [(0x1240040, [(12, 36, 0x120000000 / 4096)]), (0x1240048, [(0, 32, 8)]), (mdefKey 3 0, [(0, 1, 1), (3, 3, 5), (6, 5, 1), (13, 9, 1)])])
    let body := List.replicate 1088 0#8
    let m := runMsg 0x11 5 9 1 1 1 1 0 16 0 (checkSum 0 0 [body] % 2 ^ 32) body
    let d := { datM thread 1 m with bsk := ⟨[(5, basket .inPrefix)], [], [], []⟩, spl := { (dat thread).spl with pulls := [pull0] } }
    let x := d.basket 5
    d.peekSpool 3 0x11 = some m ∧ d.spl.pulls.find? (fun o => o.qp == 3 && o.bsk == 5 && decide (o.layer0 ≤ 0) && decide (0 < o.layer0 + o.layers) &&
      decide (o.page ≤ rhPage m) && decide (rhPage m < o.page + o.count)) = some pull0 ∧ msgSend m = 5 ∧ rhLayer m = 0 ∧ runSizeOk m (k.pageBytes x.model) = true ∧
    rhFlag m 3 = false ∧ rhPage m + rhPages m ≤ pull0.page + pull0.count ∧ mapOpen k d 5 0 0 = true ∧ runRaw k m x.part (k.pageBytes x.model) = some [body] ∧
    d.flaws = [] ∧ (landRun k (countRun k (takeMsg k d 3) 1 x.part m) 5 0 true [body] (rhPage m)).2 = true ∧ d.spl.waiting = [] := by decide +kernel

/-- SpoolTraffic: the end of the pull once its page has landed. -/
theorem wit_pullEnd : let m := splHdr 0x12 0 0 5 0xFFFFF 0 ++ bytesLE 4 1 ++ bytesLE 4 0 ++ bytesLE 4 0
    let o := { pull0 with landed := [0] }
    let th := { thread with ops := [{ waitingOp with eng := 1, op := 2, started := true }] }
    let d := { datM th 1 m with spl := { (dat th).spl with pulls := [o] } }
    d.peekSpool 3 0x12 = some m ∧ d.spl.pulls.find? (fun o => o.qp == 3 && o.bsk == msgSend m && o.page == mfld m 20 4 && o.layer0 == mfld m 24 4) = some o ∧
    o.whole = o.count ∧ mfld m 16 4 = o.count ∧ (∀ x ∈ o.landed, x % 2 ^ 13 < o.count) ∧ d.thr 0 = some th ∧ (∃ op ∈ th.ops, op.id = o.opId ∧ op.done = none) := by decide +kernel

/-- SpoolTraffic: an offer of an absent hash at the cache node. -/
theorem wit_offerQ : let k := ctl cacheWords
    let m := offerQMsg 5 3 [78]
    let d := datM thread 1 m
    let hs := (List.range (mfld m 18 2)).map (fun i => mfld m (24 + 8 * i) 8)
    d.peekSpool 3 0x18 = some m ∧ (d.qp 3).state = .ready ∧ offerCheck k (d.qp 3).part (mfld m 16 2) = none ∧ d.spl.offerServes = [] ∧
    (List.range hs.length).filter (fun i => (findPrefix k (lookAll k 3 0 hs (takeMsg k d 3)) (hs.getD i 0) 3 0).isNone) = [0] := by decide +kernel

/-- An offer of page 0 of Basket 5. -/
def offer0 : OfferOp := ⟨4, 0, 0, 5, 3, 0, 1, [78], none, false⟩

theorem wit_offerA : let m := splHdr 0x19 0 0 5 0xFFFFF 0 ++ bytesLE 1 1
    let d := { datM thread 1 m with spl := { (dat thread).spl with offers := [offer0] } }
    d.peekSpool 3 0x19 = some m ∧ d.offerOf 3 (msgSend m) = some offer0 ∧ msgStatus m = 0 := by decide +kernel

set_option maxRecDepth 20000 in
/-- SpoolTraffic: the first layer of an offered page of a model of two layers. -/
theorem wit_prefixData : let k := ctl (cacheWords ++ [(mdefKey 3 0, [(0, 1, 1), (3, 3, 5), (6, 5, 1), (13, 9, 2)])])
    let body := List.replicate 1088 0#8
    let m := runMsg 0x1A 5 0xFFFFF 0 1 1 1 0 16 0 (checkSum 0 0 [body] % 2 ^ 32) body
    let o : OfferServe := ⟨3, 5, 0, 3, [78], [0], [], 0, 0, .ok⟩
    let d := { datM thread 1 m with spl := { (dat thread).spl with offerServes := [o] } }
    d.peekSpool 3 0x1A = some m ∧ d.spl.offerServes.find? (fun o => o.qp == 3 && o.sendB == msgSend m) = some o ∧ runSizeOk m (k.pageBytes o.model) = true ∧
    rhPages m = 1 ∧ o.left.head? = some (rhPage m) ∧ rhLayer m = o.frames.length ∧ runRaw k m o.part (k.pageBytes o.model) = some [body] ∧
    (poolFrame k (countRun k (takeMsg k d 3) 3 o.part m) o.model).2 = some (frame 0) ∧ rhLayer m + 1 < k.mdlLayers o.model ∧ d.spl.waiting = [] := by decide +kernel

theorem wit_prefixDone : let m := splHdr 0x1B 0 0 5 0xFFFFF 0 ++ bytesLE 4 1 ++ bytesLE 4 0
    let th := { thread with ops := [{ waitingOp with eng := 1, op := 4, started := true }] }
    let d := { datM th 1 m with spl := { (dat th).spl with offers := [offer0] } }
    (∀ y ∈ d.spl.offers, y.waits = false) ∧ d.peekSpool 3 0x1B = some m ∧ d.offerOf 3 (msgSend m) = some offer0 ∧ d.thr 0 = some th ∧ (∃ op ∈ th.ops, op.id = offer0.opId ∧ op.done = none) ∧
    Status.ofCode? (msgStatus m) = some .ok := by decide +kernel

/-! ### The Match Array -/

/-- RULE bank 9 of partition 0, one unit wide. -/
def ruleWords : List (Nat × List (Nat × Nat × Nat)) := [(0x1700100 + 8 * 9, [(0, 2, 2)])]

/-- A rule of priority `p` that any key matches, with association `a`. -/
def rule (p a : Nat) : MatEntry := ⟨0, 0, 0, p, a⟩

/-- The data plane with entries in bank 9. -/
def datR (th : Thread) (l : Tab MatEntry) : Data := { dat th with mat := { (dat th).mat with banks := [(9, l)] } }

/-- MatchRules: a search with two hits and with none. -/
theorem wit_matSearch : let k := ctl ruleWords
    let th := issuer [(40, 9, 1, 1), (45, 0, 8, 0xFF), (48, 0, 48, 0x144000000)]
    let d := datR th [(3, rule 5 11), (7, rule 9 12)]
    let x := th.dReg 0
    let key : BitVec 320 := x.setWidth 320
    let hits := fun (l : Tab MatEntry) => l.filter (fun y => (y.2.tag ^^^ BitVec.ofNat 8 (df x 44 0 8)) &&& BitVec.ofNat 8 (df x 45 0 8) == 0#8 &&
      (y.2.key ^^^ key) &&& y.2.care &&& unitMask (k.bankWidth 9) == 0#320)
    Issues d 0 0 th ∧ Prompt k d th (newOp k th 5 0 none 1 0) ∧ descOk x [(0, 0, 368), (48, 0, 48)] = true ∧ df x 48 0 48 % 16 = 0 ∧
    (List.range 32).filter (fun b => bitAt x (320 + b)) = [9] ∧ k.bankRule 9 th.part = true ∧ k.dpaCheck th.part (df x 48 0 48) 16 false = none ∧ k.up 1 17 = true ∧
    k.bank 9 13 4 ≤ ones8 (BitVec.ofNat 8 (df x 45 0 8)) ∧ key &&& ~~~ unitMask (k.bankWidth 9) = 0#320 ∧ d.stsBit 0x17000C0 9 = false ∧ d.mat.bad = [] ∧
    hits (d.bankTab 9) = [(3, rule 5 11), (7, rule 9 12)] ∧ hits ((dat th).bankTab 9) = [] := by unfold Issues Prompt; decide +kernel

/-- The image of a rule of priority 5 at 0x144000000. -/
def image (d : Data) : Data := d.wr (0x144000000 + 82) 2 5

/-- MatchRules: the rule of priority 5 inserted between two others, deleted, and its bank spread. -/
theorem wit_matRules : let k := ctl ruleWords
    let th := issuer [(0, 0, 48, 0x144000000), (8, 0, 5, 9)]
    let d := image (datR th [(3, rule 5 11), (7, rule 9 12)])
    let e := imageAt d 0x144000000 (k.bankWidth 9)
    Issues d 0 0 th ∧ Prompt k d th (newOp k th 5 1 none 1 0) ∧ Prompt k d th (newOp k th 5 2 none 1 0) ∧ Prompt k d th (newOp k th 5 3 none 1 0) ∧
    df (th.dReg 0) 8 5 1 = 0 ∧ descOk (th.dReg 0) [(0, 0, 48), (8, 0, 6)] = true ∧ k.bankRule 9 th.part = true ∧ k.up (9 / 8) 17 = true ∧
    k.dpaCheck th.part 0x144000000 96 false = none ∧ d.bad 0x144000000 96 = false ∧ imageOk d 0x144000000 (k.bankWidth 9) = true ∧
    ((d.bankTab 9).map (fun y => y.1)).Pairwise (fun i j => i < j) ∧ ((d.bankTab 9).map (fun y => y.2.prio)).Pairwise (fun i j => i ≤ j) ∧
    (ruleInsert (k.bankSlots 9) (d.bankTab 9) e).isSome = true ∧
    (d.bankTab 9).find? (fun y => y.2.key == e.key && y.2.care == e.care && y.2.prio == e.prio) = some (3, rule 5 11) ∧
    (∀ y ∈ (image (datR th [(7, rule 9 12)])).bankTab 9, ¬ (y.2.key = e.key ∧ y.2.care = e.care ∧ y.2.prio = e.prio)) := by unfold Issues Prompt; decide +kernel

/-- MatchRules: the hash of one page of 16 tokens. -/
theorem wit_matHash : let k := { ctl [] with sec := { (ctl []).sec with prefixKeys := [(0, 77)] } }
    let th := issuer [(0, 0, 48, 0x144000000), (8, 0, 48, 0x144001000), (16, 0, 19, 16)]
    let d := dat th
    let x := th.dReg 0
    Issues d 0 0 th ∧ Prompt k d th (newOp k th 5 4 none 1 0) ∧ descOk x [(0, 0, 48), (8, 0, 48), (16, 0, 19), (20, 0, 3), (24, 0, 64), (32, 0, 32), (36, 0, 12)] = true ∧
    df x 20 0 2 = 0 ∧ df x 16 0 19 = 16 ∧ k.dpaCheck th.part (df x 0 0 48) 64 false = none ∧ k.dpaCheck th.part (df x 8 0 48) 8 false = none ∧ k.up 0 17 = true ∧
    Tab.get? k.sec.prefixKeys th.part = some 77 ∧ d.bad (df x 0 0 48) 64 = false := by unfold Issues Prompt; decide +kernel

/-- MatchRules: a deleted record whose lease is over; the last row of the last bank; a forwarded lookup at a cache node. -/
theorem wit_matEvents : let k := ctl (cacheWords ++ [(0x1700100 + 8 * 31, [(0, 2, 2)])])
    let th := { thread with ops := [waitingOp] }
    let m := lookupMsg 3 [77]
    let d := { prefixRec (datM th 4 m) with mat := { (dat th).mat with dels := [⟨0x143000000, some (0, 0)⟩] } }
    d.mat.evicts = [] ∧ leaseOver k d 0x143000000 = true ∧ d.thr 0 = some th ∧ waitingOp ∈ th.ops ∧ waitingOp.done = none ∧ k.bank 31 0 2 = 2 ∧
    8192 * 31 + Tab.getD d.mat.scrub 31 0 ∉ d.mat.bad ∧ d.peekMsg 3 4 (fun m => mfld m.bytes 0 2 == 1) = some ⟨3, 4, 0, 0, 1, m⟩ ∧ (d.qp 3).state = .ready ∧
    k.cacheRole = true ∧ (msgWords m (mfld m 4 4)).all k.homeUp = true ∧ (ctl []).cacheRole = false := by decide +kernel

/-- PrefixIndex: the record of hash 77 inserted. -/
theorem wit_prefixInsert : let k := ctl (cacheWords ++ [(0x1740040, [(0, 19, 1)])])
    let th := issuer [(0, 0, 48, 0x144000000), (8, 5, 1, 1)]
    let d := ((prefixRec (dat th)).wr 0x144000000 10 (77 + 3 * 2 ^ 64)).wr (0x144000000 + 40) 10 (2 ^ 80 - 1) |>.wr (0x144000000 + 88) 8 0x143000000
    let e := imageAt d 0x144000000 1
    let rc := e.assoc
    Issues d 0 0 th ∧ k.up 0 17 = true ∧ Prompt k d th (newOp k th 5 1 none 1 0) ∧ df (th.dReg 0) 8 5 1 = 1 ∧ descOk (th.dReg 0) [(0, 0, 48), (8, 0, 6)] = true ∧
    k.indexRole = true ∧ k.dpaCheck th.part 0x144000000 96 false = none ∧ d.bad 0x144000000 96 = false ∧ imageOk d 0x144000000 1 = true ∧ rc = 0x143000000 ∧
    k.dpaCheck th.part rc 72 false = none ∧ d.bad rc 64 = false ∧ recLayers d rc = 1 ∧ d.rd rc 8 = fld e.key 0 64 ∧ recModel d rc = fld e.key 64 12 ∧ recPart d rc = th.part ∧
    findPrefix k d 77 3 th.part = none ∧ k.homeBank 77 = some 0 ∧ k.up (0 / 8) 17 = true ∧ (prefixEntries k d th.part).length < k.fld 0x1740040 0 19 ∧
    freeUp (usedSlots (d.bankTab 0)) 0 8192 = some 0 ∧ (∀ f ∈ recFrames d rc, refcnt d (k.frecOf 3 f) < 65535 ∧ k.frecOf 3 f + 2 ≤ rc) := by unfold Issues Prompt; decide +kernel

/-- The index with the record of hash 77. -/
def indexed (d : Data) : Data :=
  { prefixRec d with mat := { d.mat with banks := [(0, [(0, ⟨prefixKey 77 3 0, BitVec.ofNat 320 (2 ^ 80 - 1), 0, 0, 0x143000000⟩)])] } }

/-- PrefixIndex: a run of one hash. -/
theorem wit_matRun : let k := ctl cacheWords
    let th := issuer [(0, 0, 48, 0x144000000), (8, 0, 48, 0x144001000), (18, 0, 13, 1), (20, 0, 13, 3)]
    let d := (indexed (dat th)).wr 0x144000000 8 77
    let x := th.dReg 0
    Issues d 0 0 th ∧ k.up 0 17 = true ∧ Prompt k d th (newOp k th 5 5 none 1 0) ∧ descOk x [(0, 0, 48), (8, 0, 48), (16, 0, 12), (18, 0, 13), (20, 0, 13)] = true ∧
    df x 18 0 13 = 1 ∧ df x 16 0 12 = 0 ∧ df x 20 12 1 = 0 ∧ k.indexRole = true ∧ k.dpaCheck th.part (df x 0 0 48) 8 false = none ∧
    k.dpaCheck th.part (df x 8 0 48) 8 false = none ∧ d.bad (df x 0 0 48) 8 = false ∧ d.rd (df x 0 0 48) 8 = 77 ∧ k.homeBank 77 = some 0 ∧ k.up (0 / 8) 17 = true ∧
    (findPrefix k d 77 3 th.part).map (fun y => (y.1, y.2.1, y.2.2.assoc)) = some (0, 0, 0x143000000) ∧ d.mat.bad = [] ∧ (0x143000000 : Nat) + 64 ≤ df x 8 0 48 := by
  unfold Issues Prompt; decide +kernel

/-- PrefixIndex: the eviction of the one record, of any tier and model. -/
theorem wit_tieEvict : let k := ctl cacheWords
    let th := issuer [(0, 0, 2, 2), (0, 14, 1, 1), (12, 0, 19, 1)]
    let d := indexed (dat th)
    let x := th.dReg 0
    Issues d 0 0 th ∧ k.up 0 17 = true ∧ Prompt k d th (newOp k th 5 6 none 1 0) ∧ descOk x [(0, 0, 15), (4, 0, 24), (8, 0, 32), (12, 0, 19)] = true ∧ df x 0 0 2 = 2 ∧
    df x 12 0 19 = 1 ∧ df x 0 14 1 = 1 ∧ k.role = 3 ∧ d.mat.evicts = [] ∧ d.mat.dels = [] ∧ (prefixEntries k d th.part).map (fun y => (y.1, y.2.1, y.2.2.assoc)) =
      [(0, 0, 0x143000000)] ∧ df x 4 0 24 = 0 ∧ df x 8 0 32 * 10 ^ 9 ≤ k.ns - d.rd (0x143000000 + 16) 8 ∧ leaseOver k d 0x143000000 = true ∧
    Tab.get? (d.bankTab 0) 0 = ((prefixEntries k d th.part).head?).map (fun y => y.2.2) ∧ d.adp.commits = [] ∧ (∀ e ∈ d.bsk.tab, e.2.state ≠ .releasing) ∧
    (∀ e ∈ d.fyl.threads, ∀ x ∈ e.2.ops, x.started = true) := by
  unfold Issues Prompt; decide +kernel

/-! ### The Sail stacks -/

/-- An open stream of thread 0's operation 0 with one row of 64 values: from a Sail command or `n` of them. -/
def stream0 (n : Nat) : MStream :=
  { thread := 0, opId := 0, part := 0, ordered := false, pfmt := false, dim := 64, ofp32 := true, rows := 1, sources := n, peers := 0, shards := 1, area := 0x145000000,
    stride := 0, toPeer := false, peerIndex := 0, qp := 3, rEngine := 0, rStream := 0, mtag := 9, dests := [(4, 3, 0, 0xFFFF)], deadline := 500000001, marks := 0,
    aborted := false, base := 0, qh := none, acc := [], staged := [], bad := [], came := [], ending := false, retryAt := none }

/-- Its operation. -/
def streamOp : Op := { waitingOp with eng := 3, started := true, metered := true }

/-- Streams on the data plane. -/
def withStream (d : Data) (n : Nat) (m : MStream) : Data := { d with mrg := { d.mrg with streams := [(n, m)] } }

/-- SailCommands: a FILL of the last 32 bytes of the partition's window, a RESULT_FLUSH of one row to a stream, and a fence, each in the banks 2,047 and 0. -/
theorem wit_sailCmd : ∀ y ∈ [(5, [(16, 0, 28, 0x7FFFE0), (20, 0, 28, 32)]), (7, [(18, 0, 13, 264), (48, 0, 16, 1023), (60, 0, 1, 1)]), (8, [])],
    let k := ctl []
    let th := { issuer ([(0, 0, 4, y.1), (0, 4, 11, 2047), (0, 15, 12, 2), (0, 27, 11, 1)] ++ y.2) with ops := [streamOp] }
    let d := withStream (dat th) 1023 (stream0 1)
    let x := th.dReg 0
    Issues d 0 0 th ∧ Prompt k d th (newOp k th 2 (if y.1 = 8 then 1 else 0) none 1 0) ∧ cmdBad (y.1 == 8) x = false ∧ df x 0 0 4 = y.1 ∧
    (∀ r ∈ cmdRanges x, k.inWindow th.part r = true) ∧ df x 8 48 14 = 0 ∧ d.bad (df x 8 0 48) 0 = false ∧ cmdVconv x = false ∧
    (cmdSends x = true → df x 60 0 1 = 1 ∧ d.mstream 1023 = some (stream0 1) ∧ 64 * df x 48 0 4 + df x 48 4 12 = 1023 ∧
      cmdSent x = (stream0 1).rows * (stream0 1).rowBytes ∧ k.up (1023 / 64 / 4) (4 + 1023 / 64 % 4) = true) ∧ (y.1 = 5 → df x 20 0 28 ≠ 0) ∧ (y.1 = 7 → df x 18 0 13 ≠ 0) ∧
    selBanks x = [2047, 0] ∧ (∀ g ∈ selBanks x, k.up (g % 4) 10 = true ∧ stackFull d (selBanks x) (g % 4) = false ∧ (d.sunit g).lost = false) ∧ d.sissue d.sal.nextId = none := by
  unfold Issues Prompt; decide +kernel

/-- SailCommands: one query over page 0 of Basket 5 in the last bank, to stream 1023. -/
theorem wit_sailAttn : let k := ctl (winWords ++ [(0x0000040, [(0, 3, 4)]), (mdefKey 3 0, [(0, 1, 1), (6, 5, 1), (13, 9, 1)]), (mdefKey 3 1, []), (mdefKey 3 2, [(0, 32, 16)]),
      (mdefKey 3 3, [(6, 42, 0x118000000 / 64)])])
    let th := { issuer [(0, 0, 20, 5), (4, 0, 32, 15), (8, 0, 7, 1), (9, 0, 5, 1), (10, 0, 4, 15), (10, 4, 6, 63), (24, 0, 16, 6), (32, 0, 32, 0xFFFFFFFF)] with
      ops := [streamOp] }
    let d := withStream (mapAs (datB th { basket .anchor with seqLen := 16 }) 5 0 0 (pte false false 0 (bankDpa 3 511 0))) 1023 (stream0 1)
    let x := th.dReg 0
    let y := d.basket 5
    let sh := k.shape y.model
    let a := attendOf k y.model 0 x
    let e := pageEntry k d 5 0 0
    Issues d 0 0 th ∧ Prompt k d th (newOp k th 2 2 (some 5) 1 0) ∧
    descOk x [(0, 0, 29), (4, 0, 32), (8, 0, 7), (9, 0, 5), (10, 0, 10), (12, 0, 32), (16, 0, 48), (24, 0, 16), (28, 0, 32), (32, 0, 32)] = true ∧ df x 8 0 7 = 1 ∧
    k.genRole = true ∧ df x 9 0 5 = 1 ∧ k.bskPart 5 = some th.part ∧ y.lost = false ∧ y.state = .anchor ∧ y.decodeCheck k = none ∧ k.winOn 6 = true ∧ k.winPart 6 = th.part ∧
    k.winOut 6 = false ∧ k.winQuery 6 = true ∧ winOff k d 6 = none ∧ d.mstream 1023 = some (stream0 1) ∧ sh.kh * 1 = (stream0 1).rows ∧ k.up 1 18 = true ∧
    64 * df x 10 0 4 + df x 10 4 6 = 1023 ∧ k.up (1023 / 64 / 4) (4 + 1023 / 64 % 4) = true ∧ (∀ i, i < 4 → k.up i 10 = true) ∧ k.mdlTier 3 = 0 ∧
    df x 0 20 8 < k.mdlLayers 3 ∧ k.inSlot 6 (df x 16 0 48) (2 * sh.kh * 1 * sh.dim) = true ∧ 0 < sh.kh ∧ sh.kh * 1 * (sh.dim + 1) ≤ 7168 ∧ 0 < sh.t ∧ sh.t ≤ 64 ∧
    a.lo 0 ≤ a.hi 0 ∧ a.hi 0 / sh.t = 0 ∧ a.lo 0 / sh.t = 0 ∧ a.hi 0 < pageMax * sh.t ∧ mapped k d 5 0 0 = true ∧ pteShared e = false ∧
    d.bad (k.winAddr 6 + df x 16 0 48) (2 * sh.kh * 1 * sh.dim) = false ∧ dpaBank (pageFrame k d 5 0 0) = 2047 ∧ stackFull d [2047] 3 = false ∧ (d.sunit 2047).lost = false ∧
    d.sissue d.sal.nextId = none := by unfold Issues Prompt; decide +kernel

/-- A command of operation 0's issue 0, and that issue. -/
def sailCmd0 (op : Nat) (l : List (Nat × Nat × Nat × Nat)) : SCmd := ⟨0, 0, op, 1, dsc ([(0, 0, 4, op)] ++ l), [], [], none, none, none⟩
def sailIss0 : SIssue := ⟨0, 0, 0, 0, 1, 1, 1, [], 0xFFFFF, none, [], [], [], 0, none⟩

/-- SailUnits: a unit of the last bank starts a command of partition 1 after one of partition 0; it admits it. -/
theorem wit_unitCommand : let u := { unitReset with queue := [sailCmd0 5 [(20, 0, 28, 32)]], part := some 1, ran := some 0 }
    let d := { dat thread with sal := { (dat thread).sal with units := [(2047, u)] } }
    d.sunit 2047 = u ∧ u.cur = none ∧ u.queue = sailCmd0 5 [(20, 0, 28, 32)] :: [] ∧ (sailCmd0 5 [(20, 0, 28, 32)]).need = none ∧
    (sailCmd0 5 [(20, 0, 28, 32)]).vec = none ∧ (ctl []).up (2047 % 4) 10 = true ∧ u.ran = some 0 ∧ 0 ≠ (sailCmd0 5 [(20, 0, 28, 32)]).part ∧
    (capGrant (ctl []) d 83 ((sailCmd0 5 [(20, 0, 28, 32)]).cls d) 1 false).2 = true := by decide +kernel

/-- SailUnits: the last stroke of a FILL and of a RESULT_FLUSH to memory. -/
theorem wit_strokeEnd : ∀ c ∈ [sailCmd0 5 [(20, 0, 28, 32)], sailCmd0 7 [(18, 0, 13, 8), (48, 0, 48, 0x145000000)]],
    let u := { unitReset with cur := some c, left := 10, since := 499999990 }
    let th := { thread with ops := [{ waitingOp with eng := 2, started := true }] }
    let d := { dat th with sal := { (dat th).sal with units := [(2047, u)], issues := [sailIss0] } }
    d.sunit 2047 = u ∧ u.since ≤ (ctl []).ticks ∧ u.left ≤ (ctl []).ticks - u.since ∧ d.sissue c.iss = some sailIss0 ∧ sailIss0.left = 1 ∧ sailIss0.res = [] ∧
    sailIss0.stream = none ∧ sailIss0.out = none ∧ sailIss0.op ≠ 8 ∧ rowsOut d c.iss = false ∧ d.thr 0 = some th ∧ (∃ op ∈ th.ops, op.id = sailIss0.opId ∧ op.done = none) ∧
    (c.op = 5 → df c.desc 20 0 28 = 32) ∧ (c.op = 7 → df c.desc 60 0 1 = 0 ∧ d.bad (resultBase 2047 + df c.desc 16 0 12) (df c.desc 18 0 13) = false) := by decide +kernel

/-- SailUnits: a stroke that ends at STROKE_MAX; a refresh that is due while a command runs, and while none does. -/
theorem wit_strokeMax : let c := sailCmd0 5 [(20, 0, 28, 32)]
    let u := { unitReset with cur := some c, left := 5000, since := 500000000 - strokeMax (ctl []) (dat thread) 3 }
    let d := { dat thread with sal := { (dat thread).sal with units := [(2047, u)] } }
    d.sunit 2047 = u ∧ u.cur = some c ∧ u.since ≤ (ctl []).ticks ∧ (ctl []).ticks - u.since < u.left ∧ strokeMax (ctl []) d 3 ≤ (ctl []).ticks - u.since ∧
    u.due ≤ (ctl []).ticks ∧ (ctl []).up 3 10 = true ∧ unitReset.cur = none ∧ unitReset.queue = [] ∧ unitReset.lost = false := by decide +kernel

/-! ### The Merge engines and the codec -/

set_option synthInstance.maxSize 1024 in
/-- MergeStreams: stream 1023 opened, ordered, for a slot of window 4, and unordered for a peer. -/
theorem wit_mrgOpen : ∀ peer ∈ [true, false],
    let k := ctl (winWords ++ [(0x0000040, [(0, 3, 4)])])
    let th := issuer ([(0, 0, 4, 15), (0, 4, 6, 63), (2, 0, 13, 1), (4, 0, 5, 16)] ++
      if peer then [(20, 3, 1, 1), (22, 0, 14, 3)] else [(0, 10, 1, 1), (6, 0, 13, 1), (8, 0, 48, 0x145000000), (20, 0, 3, 1), (24, 0, 16, 4), (24, 16, 8, 3), (24, 48, 16, 0xFFFF)])
    let d := withQp (dat th)
    let x := th.dReg 0
    Issues d 0 0 th ∧ Prompt k d th (newOp k th 3 0 none 1 0) ∧ descOk x [(0, 0, 15), (2, 0, 13), (4, 0, 5), (5, 0, 4), (6, 0, 13), (8, 0, 48), (16, 0, 24), (20, 0, 4), (21, 0, 4),
      (22, 0, 14), (24, 0, 64), (32, 0, 64), (40, 0, 64), (48, 0, 64), (56, 0, 16)] = true ∧ df x 0 12 2 = 0 ∧ df x 2 0 13 = 1 ∧ df x 4 0 5 = 16 ∧
    (peer = true → df x 20 3 1 = 1 ∧ k.genRole = true ∧ df x 5 0 4 = 0 ∧ k.qpPart (df x 22 0 14) = some th.part ∧ df x 0 10 1 = 0) ∧
    (peer = false → df x 20 3 1 = 0 ∧ df x 20 0 3 = 1 ∧ df x 24 0 16 = 4 ∧ k.winOn 4 = true ∧ k.winPart 4 = th.part ∧ k.winOut 4 = true ∧ k.winQuery 4 = false ∧
      winOff k d 4 = none ∧ df x 24 16 8 < k.winSlots 4 ∧ df x 24 24 24 < k.winSlotBytes 4 ∧ df x 24 24 24 + 128 ≤ k.winSlotBytes 4 ∧ df x 0 10 1 = 1 ∧ df x 6 0 13 = 1 ∧
      df x 8 0 48 % 64 = 0 ∧ k.dpaCheck th.part (df x 8 0 48) (8 + 4 * 64) false = none) ∧ k.up 3 7 = true ∧ d.mstream 1023 = none ∧ d.mrg.streams = [] ∧
    slotsUsed d 15 + 1 ≤ 4096 := by unfold Issues Prompt; decide +kernel

/-- A row of 64 values with its maximum and its sum. -/
def row0 : List Byte := bytesLE 4 0x3F800000 ++ bytesLE 4 0x3F800000 ++ List.replicate 256 0#8

/-- Thread 0 with the stream's operation, stream 1023, and what is on its way there. -/
def streaming (m : MStream) (w : List WItem) : Data :=
  let d := withStream (withQp (dat { thread with ops := [streamOp] })) 1023 m
  { d with mrg := { d.mrg with wire := [(1023, w)] } }

/-- MergeStreams: a row for each kind of stream; a marker that is not the last, and the last with an abort. -/
theorem wit_mrgRows : ∀ ord ∈ [true, false],
    let m := { stream0 1 with ordered := ord }
    let d := streaming m [.row 0 0 0 row0 false]
    d.mstream 1023 = some m ∧ d.wireOf 1023 = .row 0 0 0 row0 false :: [] ∧ m.ending = false ∧ 0 < m.rows ∧ m.rowBytes ≤ row0.length ∧ d.sal.issues = [] ∧ m.ordered = ord ∧ 0 < m.shards ∧
    mateOf [] 0 = none ∧ mateOf [.row 0 0 0 row0 false] 0 = some (0, 0, row0) := by decide +kernel

theorem wit_mrgMarks : ∀ n ∈ [0, 3],
    let m := { stream0 1 with marks := n }
    let d := streaming m [.mark (n == 3)]
    d.mstream 1023 = some m ∧ d.wireOf 1023 = .mark (n == 3) :: [] ∧ m.ending = false ∧ m.aborted = false ∧ (n = 0 → m.marks + 1 < 4 * m.sources) ∧
    (n = 3 → 4 * m.sources ≤ m.marks + 1) := by decide +kernel

/-- MergeStreams: a stream at its deadline; a retry before it; a peer's contribution to an ordered stream. -/
theorem wit_mrgEvents : let k := ctl [(0x0000040, [(0, 3, 4)])]
    let m := { stream0 1 with deadline := 500000000 }
    let r := { stream0 1 with ending := true, retryAt := some 500000000 }
    let o := { stream0 1 with ordered := true }
    let c := peerMsg { stream0 1 with rEngine := 15, rStream := 63 }
    let d := { streaming o [] with ttx := { (streaming o []).ttx with inbox := [⟨3, 3, 0, 0, 1, c⟩] } }
    (streaming m []).mstream 1023 = some m ∧ m.deadline ≤ k.ticks ∧ m.ending = false ∧ m.aborted = false ∧ m.complete = false ∧ (streaming r []).mstream 1023 = some r ∧
    r.retryAt = some 500000000 ∧ 500000000 ≤ k.ticks ∧ k.ticks < r.deadline ∧ ((streaming r []).qp r.qp).state = .ready ∧ d.mstream 1023 = some o ∧
    d.peekMsg 3 3 (fun _ => true) = some ⟨3, 3, 0, 0, 1, c⟩ ∧ mfld c 0 2 % 16 = 15 ∧ mfld c 0 2 / 16 % 64 = 63 ∧ k.up (15 / 4) (4 + 15 % 4) = true ∧ (d.qp 3).part = o.part ∧
    mfld c 2 2 = o.mtag ∧ mfld c 6 2 = o.dim ∧ mfld c 8 8 = o.rows ∧ o.toPeer = false ∧ o.ending = false ∧ o.ordered = true ∧ k.genRole = true := by decide +kernel

/-- MergeStreams: a complete stream with a poisoned row; one for a peer; one for the last slot of window 4, which is granted. -/
theorem wit_streamFinish : let k := ctl winWords
    let m := { stream0 1 with marks := 4, acc := [(0, 0x3F800000, 0x3F800000, List.replicate 64 0)] }
    let d := { streaming m [] with bdl := { (dat thread).bdl with wins := [(4, { winReset with grants := [3] })] } }
    let bytes := (List.range m.rows).flatMap (fun r => (m.normal r).1.flatMap (fun c => bytesLE (if m.ofp32 then 4 else 2) c))
    d.mstream 1023 = some m ∧ m.complete = true ∧ m.ending = false ∧ m.aborted = false ∧ (d.op 0 0).map (fun o => o.metered) = some true ∧ ({ m with bad := [0] } : MStream).bad = [0] ∧ m.ordered = false ∧ m.bad = [] ∧
    (d.qp m.qp).state = .ready ∧ m.toPeer = false ∧ m.dests = [(4, 3, 0, 0xFFFF)] ∧ m.stride = 0 ∧ k.winRemote 4 = false ∧ 3 ∈ (d.win 4).grants ∧ 0 < m.rows ∧
    m.rows * m.dim * 4 ≤ k.winSlotBytes 4 ∧ bytes.length ≤ k.winSlotBytes 4 := by decide +kernel

/-- EnvelopeOperations: one segment of 8 bytes packed. -/
theorem wit_envPack : let k := ctl []
    let th := issuer [(0, 0, 48, 0x146000000), (8, 0, 48, 0x147000000), (16, 0, 35, 8), (24, 8, 4, 12), (28, 0, 40, 8 + 8 + 4104)]
    let d := dat th
    let x := th.dReg 0
    Issues d 0 0 th ∧ k.up 0 11 = true ∧ Prompt k d th (newOp k th 4 0 none 1 0) ∧ descOk x [(0, 0, 48), (8, 0, 48), (16, 0, 35), (24, 0, 12), (28, 0, 40)] = true ∧
    df x 24 0 3 = 0 ∧ df x 24 8 4 = 12 ∧ df x 8 0 48 % 8 = 0 ∧ df x 16 0 35 = 8 ∧ 8 % elemSize 0 = 0 ∧ 8 + 4 * (1 + 1) + 4104 * 1 ≤ df x 28 0 40 ∧
    readCheck k d th.part (df x 0 0 48) 8 true = none ∧ k.dpaCheck th.part (df x 8 0 48) (df x 28 0 40) false = none ∧ d.bad (df x 0 0 48) 8 = false := by
  unfold Issues Prompt; decide +kernel

set_option synthInstance.maxSize 1024 in
/-- EnvelopeOperations: the one segment of an object unpacked, to memory and to the granted slots of window 4. -/
theorem wit_envUnpack : ∀ kind ∈ [0, 1],
    let k := ctl winWords
    let th := issuer [(0, 0, 48, 0x141000000), (8, 0, 48, if kind = 0 then 0x147000000 else 4096), (20, 0, 23, 1), (24, 0, 4, 12), (24, 4, 2, kind), (24, 16, 16, 0xFFFF),
      (28, 0, 16, 4)]
    let d := { libObject (dat th) 2 with bdl := { (dat th).bdl with wins := [(4, { winReset with grants := [0, 1, 2, 3] })] } }
    let x := th.dReg 0
    let r := expand k d th.part (df x 0 0 48) 1 2 0 1 0
    Issues d 0 0 th ∧ k.up 0 11 = true ∧ Prompt k d th (newOp k th 4 1 none 1 0) ∧
    descOk x [(0, 0, 48), (8, 0, 48), (16, 0, 23), (20, 0, 23), (24, 0, 6), (24, 16, 16), (28, 0, 16)] = true ∧ df x 24 0 4 = 12 ∧ df x 24 4 2 = kind ∧ df x 0 0 48 % 8 = 0 ∧
    df x 20 0 23 = 1 ∧ df x 16 0 23 = 0 ∧ df x 24 16 16 = 0xFFFF ∧ k.dpaCheck th.part (df x 0 0 48) 8 false = none ∧ d.bad (df x 0 0 48) 8 = false ∧
    objHeader (d.rd (df x 0 0 48) 8) = some (1, 2, 0) ∧ (kind = 0 → k.dpaCheck th.part (df x 8 0 48) 2 true = none) ∧
    (kind = 1 → k.winCheck th.part 4 true false = none ∧ winOff k d 4 = none ∧ k.winRemote 4 = false ∧ df x 8 0 48 + 2 ≤ k.winSlots 4 * k.winSlotBytes 4 ∧
      0 < k.winSlotBytes 4 ∧ (∀ i, i < k.winSlots 4 → i ∈ (d.win 4).grants)) ∧ r.2 = none ∧ (r.1.flatMap (fun z => z.1)).length ≤ 2 := by unfold Issues Prompt; decide +kernel

/-! ### The transport -/

/-- Node 1 with its address, and port 15 in four links. -/
def netWords : List (Nat × List (Nat × Nat × Nat)) :=
  [(0x1B00040, [(0, 16, 1), (16, 1, 1), (17, 1, 1)]), (ttpCfg 15, [(0, 4, 3), (8, 14, 1600), (24, 8, 1), (48, 8, 150)])]

/-- QP 3, whose path is link 3 of port 15, and the data plane with that link up. -/
def qpNet : Qp := { qpUp with links := [(15, 3)] }
def datN (th : Thread) (q : Qp) : Data :=
  { dat th with
    ttx := { (dat th).ttx with qps := [(3, q)] }
    links := [(63, { linkReset with state := .up })] }

theorem wit_qpCreate : let k := ctl netWords
    let th := issuer [(0, 0, 7, 64)]
    let d := dat th
    Issues d 0 0 th ∧ Prompt k d th (newOp k th 6 0 none 1 0) ∧ descOk (th.dReg 0) [(0, 0, 7)] = true ∧ df (th.dReg 0) 0 0 7 = 64 ∧ k.nodeOn = true ∧
    lowestQp d (k.qpBase th.part) (k.qpCount th.part) = some 0 := by unfold Issues Prompt; decide +kernel

/-- TransportOperations: a connect over IPv6 without a key, and over IPv4 with one. -/
theorem wit_qpConnect : ∀ v4 ∈ [0, 1],
    let k := { ctl (netWords ++ [(0x1B00040, [(0, 16, 1), (16, 3, 7)])]) with sec := { (ctl []).sec with qpKeys := [(255, 77)] } }
    let th := issuer [(0, 0, 14, 3), (2, 0, 16, 8), (4, 0, 14, 2), (6, 2, 1, v4), (6, 3, 1, v4), (7, 0, 3, 1), (8, 0, 4, 15), (8, 4, 2, 3), (16, 0, 32, 7), (32, 0, 16, 255)]
    let d := datN th { qpReset with state := .init }
    let x := th.dReg 0
    Issues d 0 0 th ∧ Prompt k d th (newOp k th 6 1 none 1 0) ∧ descOk x [(0, 0, 14), (2, 0, 16), (4, 0, 14), (6, 0, 4), (7, 0, 3), (8, 0, 6), (10, 0, 6), (12, 0, 6), (14, 0, 6),
      (16, 0, 128), (32, 0, 16)] = true ∧ df x 7 0 3 = 1 ∧ (List.range 1).map (fun i => (df x (8 + 2 * i) 0 4, df x (8 + 2 * i) 4 2)) = [(15, 3)] ∧
    3 < modeLinks (k.portMode 15) ∧ 1024 * 2 ^ df x 6 0 2 + 138 ≤ k.fld (ttpCfg 15) 8 14 ∧ k.qpPart 3 = some th.part ∧ (d.qp 3).state = .init ∧ df x 6 2 1 = v4 ∧
    df x 6 3 1 = v4 ∧ k.nodeOn = true ∧ k.fld 0x1B00040 17 1 = 1 ∧ k.fld 0x1B00040 18 1 = 1 ∧ df x 32 0 16 < 256 ∧ Tab.has k.sec.qpKeys (256 * th.part + df x 32 0 16) = true := by
  unfold Issues Prompt; decide +kernel

/-- TransportOperations: the QP's own operations, each with 8 bytes. -/
theorem wit_tq : let k := ctl netWords
    let th := issuer [(0, 0, 14, 3), (8, 0, 48, 0x144000000), (16, 0, 25, 8)]
    let d := datN th qpNet
    let x := th.dReg 0
    Issues d 0 0 th ∧ (∀ o ∈ [3, 5, 6, 7], Prompt k d th (newOp k th 6 o none 1 0)) ∧ k.qpPart 3 = some th.part ∧ (d.qp 3).state = .ready ∧ descOk x tqFields = true ∧
    readCheck k d th.part (df x 8 0 48) (df x 16 0 25) false = none ∧ df x 16 0 25 = 8 ∧ bitsOf (df x 20 0 32) 31 1 = 0 ∧
    k.dpaCheck th.part (df x 8 0 48) 8 false = none ∧ df x 24 0 3 = 0 ∧ df x 20 31 1 = 0 := by unfold Issues Prompt; decide +kernel

/-- TransportOperations: a receive in the last slot; the QP destroyed. -/
theorem wit_recvDestroy : let k := ctl netWords
    let th := issuer [(0, 0, 14, 3), (8, 0, 48, 0x144000000), (16, 0, 25, 8), (20, 0, 6, 3), (22, 0, 16, 1)]
    let th' := issuer [(0, 0, 14, 3)]
    let d := datN th qpNet
    let d' := datN th' qpNet
    let x := th.dReg 0
    Issues d 0 0 th ∧ Prompt k d th (newOp k th 6 4 none 1 0) ∧ k.qpPart 3 = some th.part ∧ (d.qp 3).state = .ready ∧
    descOk x [(0, 0, 14), (8, 0, 48), (16, 0, 25), (20, 0, 6), (22, 0, 16)] = true ∧ df x 16 0 25 = 8 ∧ k.dpaCheck th.part (df x 8 0 48) 8 false = none ∧
    df x 20 0 6 < (d.qp 3).rqDepth ∧ Tab.get? (d.qp 3).slots (df x 20 0 6) = none ∧ Issues d' 0 0 th' ∧ Prompt k d' th' (newOp k th' 6 2 none 1 0) ∧
    descOk (th'.dReg 0) [(0, 0, 14)] = true ∧ (d'.qp 3).state ≠ .free ∧ (d'.qp 3).txq = [] ∧ (d'.qp 3).slots = [] ∧ (d'.qp 3).connOp = none ∧ d'.noRiders 3 := by
  unfold Issues Prompt Data.noRiders; decide +kernel

/-- TransportOperations: a region of one page that the partition has lent to Tether. -/
theorem wit_tqReg : let k := ctl (netWords ++ [(objKey 0x1800100 63, [(0, 1, 1), (12, 36, 0x144000)]), (objKey 0x1800108 63, [(0, 36, 1)])])
    let th := issuer [(0, 0, 48, 0x144000000), (8, 0, 48, 4096), (16, 0, 4, 15)]
    let d := dat th
    Issues d 0 0 th ∧ Prompt k d th (newOp k th 6 8 none 1 0) ∧ descOk (th.dReg 0) [(0, 0, 48), (8, 0, 48), (16, 0, 4)] = true ∧ k.tierOf 0x144000000 4096 ≠ .unmapped ∧
    k.tierOf 0x144000000 4096 ≠ .aperture ∧ k.tetherLent th.part 0x144000000 4096 = true ∧
    (List.range 16384).find? (fun i => (d.region i).state == .free) = some 0 := by unfold Issues Prompt; decide +kernel

/-- A valid region of one page with every right, at 0x144000000: number 5. -/
def region0 : Region := { regionReset with state := .valid, base := 0x144000000, size := 4096, access := 15, gen := 1 }
def withRegion (d : Data) (r : Region) : Data := { d with ttx := { d.ttx with regions := [(5, r)] } }

theorem wit_tqRevoke : ∀ l ∈ [[], [3]],
    let k := ctl netWords
    let th := issuer [(0, 0, 32, 5 + 2 ^ 14)]
    let d := withRegion (dat th) { region0 with openOps := l }
    let r := d.region 5
    Issues d 0 0 th ∧ Prompt k d th (newOp k th 6 9 none 1 0) ∧ descOk (th.dReg 0) [(0, 0, 32)] = true ∧ df (th.dReg 0) 0 31 1 = 0 ∧ df (th.dReg 0) 0 0 14 = 5 ∧
    r.state = .valid ∧ r.gen = df (th.dReg 0) 0 14 17 ∧ r.part = th.part ∧ r.revokes = [] ∧ r.openOps = l := by unfold Issues Prompt; decide +kernel

/-- A whole packet from QP 2 of node 8 to QP 3, and one that carries bytes. -/
def pkt0 (opc : Nat) (e : Ext) (l : List Byte) : Packet :=
  { opcode := opc, cls := 1, sec := false, srcNode := 8, dstNode := 1, dstQp := 3, srcQp := 2, part := 0, ackReq := false, first := true, last := true, retx := false,
    incarn := 1, psn := 0, txTime := 0, v4 := false, addr := 0, ext := e, data := l }

/-- A thread whose operation 0 is outstanding. -/
def pending : Thread := { thread with ops := [{ waitingOp with started := true }] }

/-- TransportOperations: the answers of a connect, and its time limit. -/
theorem wit_connect : let k := ctl netWords
    let d := datN pending { qpNet with state := .connecting, connOp := some (0, 0), connDue := 500000000, connAt := 500000000 }
    let pkt := fun (opc : Nat) => pkt0 opc (.conn 2 1 0 false 0x31) []
    (d.qp 3).state = .connecting ∧ (d.qp 3).connOp = some (0, 0) ∧ d.thr 0 = some pending ∧ (∃ o ∈ pending.ops, o.id = 0 ∧ o.done = none) ∧ (d.qp 3).peerNode = 8 ∧
    (d.qp 3).peerQp = 2 ∧ (∀ opc ∈ [0x20, 0x21, 0x22, 0x23], Arrives k d 15 3 opc (pkt opc)) ∧ k.qpPart 3 = some (pkt 0x20).part ∧ (d.qp 3).payload = 0 ∧ (d.qp 3).sec = false ∧
    (Status.ofCode? 0x31).isSome = true ∧ (d.qp 3).connDue ≤ k.ticks ∧ (d.qp 3).connAt ≤ k.ticks ∧ k.nodeOn = true ∧ Data.pathOf k d 3 = some (15, 3) := by unfold Arrives; decide +kernel

/-- An operation of the QP that has sent its 8 bytes in one packet, and that packet. -/
def sentOp (opc psn : Nat) : TxOp :=
  { id := 0, opc := opc, consumer := 0, cls := 1, src := some 0x144000000, inl := [], len := 8, target := 5 + 2 ^ 14, off := 8, fin := false, o1 := 0, o2 := 0, gop := .none,
    owner := .thr 0 0 0x145000000, sent := 8, firstPsn := some psn, lastPsn := some psn, fail := none, got := 0, at_ := 0 }
def sentPkt (opc psn : Nat) : SentPkt := ⟨{ pkt0 opc .none [] with psn := psn }, 0, 0, 500000000, 0, false, false⟩

/-- TransportOperations: a CLOSE from the peer while an operation waits. -/
theorem wit_close : let k := ctl netWords
    let d := datN pending { qpNet with txq := [sentOp 2 7] }
    let pkt := pkt0 0x24 .none []
    Arrives k d 15 3 0x24 pkt ∧ pkt.dstQp = 3 ∧ fromPeer d pkt = true ∧ (d.qp 3).txq = [sentOp 2 7] ∧ (sentOp 2 7).owner = .thr 0 0 0x145000000 ∧ (d.qp 3).slots = [] ∧
    (d.qp 3).connOp = none ∧ d.noRiders 3 := by unfold Arrives Data.noRiders; decide +kernel

/-- Packets: the next packet of QP 3, of each kind that a target takes: the last bytes of a region, a message that fills its receive buffer, an atomic, an engine's message. -/
theorem wit_dataPacket : let k := ctl netWords
    let d := withRegion (datN pending { qpNet with slots := [(3, ⟨true, 1, 0x144000000, 8, 0, 0, 0, 0⟩)] }) region0
    let l := bytesLE 8 7
    let key := 5 + 2 ^ 14
    d.flaws = [] ∧ (∀ pkt ∈ [pkt0 2 (.write key 4088 8 false) l, pkt0 1 (.msg 0 8 0) l, pkt0 3 (.atomic key 4088 1 0) [], pkt0 4 (.atomic key 4088 0 1) [], pkt0 5 (.msg 3 8 0) l],
      ArrivesNext k d 15 3 false pkt ∧ pkt.first = true ∧ pkt.last = true ∧ pkt.dstQp = 3) ∧ l.length = 8 ∧ bitsOf key 31 1 = 0 ∧
    keyCheck d (d.qp 3).part key 0 4088 8 = none ∧ keyCheck d (d.qp 3).part key 1 4088 8 = none ∧ d.bad ((d.region 5).base + 4088) 8 = false ∧
    oldestSlot (d.qp 3) = some (3, ⟨true, 1, 0x144000000, 8, 0, 0, 0, 0⟩) ∧ Tab.get? (d.qp 3).slots 3 = some ⟨true, 1, 0x144000000, 8, 0, 0, 0, 0⟩ := by
  unfold ArrivesNext; decide +kernel

/-- Packets: a packet of another incarnation; a duplicate at the far end of the window; an ACK that is due. -/
theorem wit_packetsAside : let k := ctl netWords
    let d := datN thread { qpNet with ackDue := some 500000000 }
    let old := { pkt0 1 (.msg 0 0 0) [] with incarn := 2 }
    let dup := { pkt0 1 (.msg 0 0 0) [] with psn := 2 ^ 23 }
    k.nodeOn = true ∧ Data.carries k d (15, 3) = true ∧ old.opcode ∈ [1, 2, 3, 4, 5, 0x32, 0x33, 0x34] ∧ old.incarn ≠ (d.qp 3).incarn ∧ dup.incarn = (d.qp 3).incarn ∧
    dup.srcNode = (d.qp 3).peerNode ∧ (d.qp 3).sec = dup.sec ∧ dup.sec = false ∧ 2 ^ 23 ≤ psnSub dup.psn (d.qp 3).epsn ∧ (d.qp 3).ackDue = some 500000000 ∧
    (d.qp 3).state = .ready ∧ 500000000 ≤ k.ticks ∧ Data.pathOf k d 3 = some (15, 3) := by decide +kernel

set_option synthInstance.maxSize 1024 in
/-- Packets: the first packet of a WRITE. -/
theorem wit_packetTransmit : let k := ctl netWords
    let o := { sentOp 2 7 with sent := 0, firstPsn := none, lastPsn := none }
    let d := datN pending { qpNet with txq := [o] }
    Data.pathOf k d 3 = some (15, 3) ∧ (match nextTx k d 3 with | some (.op z) => decide (z = o) | _ => false) = true ∧ arbiterPicks k d (15, 3) 3 o.cls = true ∧ o.opc = 2 ∧ o.src = some 0x144000000 ∧
    d.bad (0x144000000 + o.sent) (Nat.min (d.qp 3).payBytes (o.len - o.sent)) = false ∧ (d.qp 3).sec = false ∧ k.nodeOn = true ∧
    d.flaws = [] ∧ (capGrant k d (16 + (4 * 15 + 3)) o.cls (d.qp 3).part false).2 = true := by decide +kernel

set_option synthInstance.maxSize 1024 in
/-- Packets: the answers to the one packet not acknowledged, the last PSN of the window, and its timer. -/
theorem wit_answers : ∀ opc ∈ [2, 3],
    let k := ctl netWords
    let o := sentOp opc (2 ^ 24 - 1)
    let u := sentPkt opc (2 ^ 24 - 1)
    let d := datN pending { qpNet with txq := [o], unacked := [u] }
    let ans := fun (c : Nat) (e : Ext) => pkt0 c e []
    (d.qp 3).state = .ready ∧ (d.qp 3).txq = [o] ∧ (d.qp 3).unacked = [u] ∧ u.opId = o.id ∧ o.fail = none ∧ o.firstPsn ≠ none ∧ o.len ≤ o.sent ∧ u.sacked = false ∧
    u.pkt.psn < 2 ^ 24 ∧ d.thr 0 = some pending ∧ d.fab.groups = [] ∧ (d.qp 3).peerNode = 8 ∧ (d.qp 3).incarn = 1 ∧
    (opc = 2 → Arrives k d 15 3 0x10 (ans 0x10 (.ack u.pkt.psn 0 0 0)) ∧ answered u.pkt.opcode = false) ∧
    (opc = 3 → Arrives k d 15 3 0x12 (ans 0x12 (.resp u.pkt.psn 0 5)) ∧ isAtomic u.pkt.opcode = true) ∧
    Arrives k d 15 3 0x11 (ans 0x11 (.nak u.pkt.psn 0x31)) ∧ (Status.ofCode? 0x31).isSome = true ∧ Status.ofCode? 0x31 ≠ some .deadTarget ∧ u.due ≤ k.ticks ∧ u.k < k.ttxRetry ∧
    k.ttxRetry ≤ ({ u with k := 15 } : SentPkt).k ∧ (d.qp 3).slots = [] ∧ (d.qp 3).connOp = none ∧ d.noRiders 3 := by unfold Arrives Data.noRiders; decide +kernel

/-- LinkStates: link 3 of port 15 in each state that an event leaves. -/
theorem wit_links : let k := { ctl netWords with tim := { (ctl []).tim with inputs := 7 } }
    let d := fun (x : LState) => { datN thread qpNet with links := [(63, { linkReset with state := x })] }
    (∀ x ∈ [LState.acquire, .hold, .calibrate, .up], ((d x).link 15 3).state = x) ∧ ((d .acquire).link 15 3).remote = false ∧ k.ethRef 15 = true ∧ k.macUp 15 3 = true ∧
    ((d .acquire).link 15 3).since ≤ k.ticks ∧ ((d .calibrate).link 15 3).since ≤ k.ticks ∧ ((d .acquire).link 15 3).since + 50000000 ≤ k.ticks ∧
    ((d .hold).link 15 3).since + 50000000 ≤ k.ticks ∧ ((d .hold).link 15 3).since + 500 * k.fld (ttpCfg 15) 24 8 ≤ k.ticks ∧
    (0 : BitVec 8).toNat + 100 < k.fld (ttpCfg 15) 48 8 ∧ k.fld (ttpCfg 15) 48 8 + 10 ≤ (60 : BitVec 8).toNat + 100 ∧ 1600 ≤ k.fld (ttpCfg 15) 8 14 := by decide +kernel

/-! ### The fabric -/

/-- Node 1's route to node 8 is QP 3; group 15 of partition 0 with rank `r` of `n`, whose ranks 0 and 1 are nodes 8 and 9, or 1 and 8 where `r` is 0. -/
def fabWords (r n : Nat) : List (Nat × List (Nat × Nat × Nat)) :=
  netWords ++ [(0x1C40040, [(0, 1, 1), (14, 34, 0x148000000 / 16384)]), (gdef 15 0, [(0, 1, 1), (5, 13, r), (18, 14, n)]), (gdef 15 1, [(6, 42, 0x149000000 / 64)])]
def datF (th : Thread) (q : Qp) (r : Nat) : Data :=
  (((datN th q).wr 0x148000010 2 (3 + 2 ^ 15)).wr 0x149000000 2 (if r = 0 then 1 else 8)).wr 0x149000020 2 (if r = 0 then 8 else 9)

/-- Fabric: an access of 8 bytes to node 8. -/
theorem wit_fabAccess : let k := ctl (fabWords 1 2)
    let th := issuer [(0, 0, 48, 8), (0, 48, 16, 8), (8, 0, 48, 0x144000000), (16, 0, 25, 8)]
    let d := datF th qpNet 1
    let x := th.dReg 0
    Issues d 0 0 th ∧ (∀ o ∈ [0, 1, 2, 3], Prompt k d th (newOp k th 7 o none 1 0)) ∧ df x 0 48 16 = 8 ∧ 8 ≠ k.node ∧ th.part ∉ d.fab.teardown ∧ routeQp k d th.part 8 = some 3 ∧
    (d.qp 3).state = .ready ∧ (d.qp 3).peerNode = 8 ∧ (d.qp 3).part = th.part ∧ descOk x [(0, 0, 64), (8, 0, 48), (16, 0, 25), (20, 0, 64), (28, 0, 64)] = true ∧
    df x 16 0 25 = 8 ∧ k.dpaCheck th.part (df x 8 0 48) 8 false = none ∧ readCheck k d th.part (df x 8 0 48) 8 false = none ∧ df x 0 0 48 % 8 = 0 := by
  unfold Issues Prompt; decide +kernel

/-- Fabric: each group operation at the only member, and at one below rank 0. -/
theorem wit_gop : ∀ c ∈ [(0, 0), (1, 0), (2, 0), (0, 1), (1, 1), (2, 1)],
    let kind := c.1
    let r := c.2
    let k := ctl (fabWords r (r + 1))
    let th := issuer [(0, 0, 4, 15), (0, 4, 3, kind), (8, 0, 48, 0x144000000)]
    let d := datF th qpNet r
    let x := th.dReg 0
    Issues d 0 0 th ∧ Prompt k d th (newOp k th 7 4 none 1 0) ∧ descOk x [(0, 0, 7), (2, 0, 13), (4, 0, 13), (8, 0, 48)] = true ∧ df x 4 0 13 = 0 ∧ k.grpOn 15 = true ∧
    k.grpPart 15 = th.part ∧ d.fab.teardown = [] ∧ (d.grp 15).broken = false ∧ df x 0 4 3 = kind ∧ (d.grp 15).op = none ∧ (d.grp 15).msgs = [] ∧ k.grpRank 15 = r ∧
    childrenOf (k.grpN 15) r = [] ∧ df x 2 0 13 = 0 ∧ 0 < k.grpN 15 ∧ k.dpaCheck th.part (df x 8 0 48) 0 false = none ∧ k.dpaCheck th.part (df x 8 0 48) 8 false = none ∧
    drained d th.part = true ∧ (r = 1 → routeQp k d th.part (grpNode k d 15 (parentOf r)) = some 3 ∧ (d.qp 3).peerNode = grpNode k d 15 (parentOf r) ∧ (d.qp 3).state = .ready) := by
  unfold Issues Prompt; decide +kernel

/-- Fabric: the end of a hold; a heartbeat interval without a watch and with one; a reset asked of rank 0. -/
theorem wit_fabDuties : let k := ctl (fabWords 1 2 ++ [(0x1C00080, [(6, 42, 0x14A000000 / 64), (48, 7, 1)]), (0x1C00040, [(4, 4, 3), (8, 4, 3)])])
    let th := issuer [(0, 0, 4, 15), (0, 4, 3, 3)]
    let hb := issuer [(0, 0, 1, 1)]
    let rs := issuer [(0, 0, 4, 15)]
    let fb := (datF th qpNet 1).fab
    let d := { datF th qpNet 1 with fab := { fb with holds := [(0, 15, 600000000)] } }
    let e := { (datF hb qpNet 1).wr 0x14A000000 2 8 with fab := { fb with hbDone := [0, 1], seen := [16, 17] } }
    Issues d 0 0 th ∧ df (th.dReg 0) 0 4 3 = 3 ∧ th.reserved < 32 ∧ th.ops = [] ∧ d.fab.holds.any (fun h => h.2.1 == 15) = true ∧
    descOk (th.dReg 0) [(0, 0, 7), (2, 0, 13), (4, 0, 13), (8, 0, 48)] = true ∧ k.grpOn 15 = true ∧ k.grpPart 15 = th.part ∧ (d.grp 15).broken = false ∧ df (th.dReg 0) 2 0 13 < k.grpN 15 ∧ Issues e 0 0 hb ∧
    hb.part = 0 ∧ df (hb.dReg 0) 0 0 1 = 1 ∧ descOk (hb.dReg 0) [(0, 0, 1)] = true ∧ Prompt k e hb (newOp k hb 7 6 none 1 0) ∧ (ctl (fabWords 1 2)).watch = [] ∧
    k.watch = [0x14A000000] ∧ watchDead e 0x14A000000 = false ∧ e.fab.hbDone.contains 1 = true ∧ e.fab.seen.contains (2 * watchNode e 0x14A000000 + 1) = true ∧
    watchT e 0x14A000000 < k.fld 0x1C00040 4 4 ∧ watchM e 0x14A000000 < k.fld 0x1C00040 8 4 ∧ Issues (datF rs qpNet 1) 0 0 rs ∧
    Prompt k (datF rs qpNet 1) rs (newOp k rs 7 5 none 1 0) ∧ descOk (rs.dReg 0) [(0, 0, 4)] = true ∧ (datF rs qpNet 1).fab.resetOps = [] ∧ k.grpRank 15 ≠ 0 := by
  unfold Issues Prompt; decide +kernel

/-- A barrier of group 15 of thread 0's operation 0, `entered` or not, and the group with it. -/
def gop0 (kind : Nat) (entered : Bool) : Gop := ⟨0, 0, 1, kind, 0, 8, 0x144000000, 500000000, entered⟩
def inGroup (d : Data) (o : Gop) : Data := { d with fab := { d.fab with groups := [(15, { grpReset with op := some o })] } }

set_option synthInstance.maxSize 1024 in
/-- Fabric: a load's request; the tree's answer to a broadcast, and its question to rank 0 of two. -/
theorem wit_fabPackets : let k := ctl (fabWords 1 2)
    let k0 := ctl (fabWords 0 2)
    let d := withRegion (datF pending qpNet 1) region0
    let g := inGroup (datF pending qpNet 1) (gop0 1 true)
    let g0 := inGroup (datF pending qpNet 0) (gop0 0 false)
    let ld := pkt0 0x30 (.fload 0x144000FF8 8) []
    let dn := pkt0 0x3A (.gop 15 0 1 0 8 0) (bytesLE 8 7)
    let up := pkt0 0x39 (.gop 15 0 0 0 8 0) []
    ArrivesNext k d 15 3 false ld ∧ d.flaws = [] ∧ fabRegion d (d.qp 3).part 2 0x144000FF8 8 = (5, none) ∧ d.bad 0x144000FF8 8 = false ∧ ArrivesNext k g 15 3 false dn ∧
    (g.grp 15).op = some (gop0 1 true) ∧ k.grpOn 15 = true ∧ k.grpPart 15 = (g.qp 3).part ∧ (g.grp 15).seq = 0 ∧ (Status.ofCode? 0) = some .ok ∧ g.thr 0 = some pending ∧
    k.grpRank 15 ≠ 0 ∧ childrenOf (k.grpN 15) (k.grpRank 15) = [] ∧ grpNode k g 15 (parentOf (k.grpRank 15)) = (g.qp 3).peerNode ∧ (gop0 1 true).kind = 1 ∧
    k.grpRank 15 ≠ (gop0 1 true).root ∧ dn.data.length = (gop0 1 true).len ∧ ArrivesNext k0 g0 15 3 false up ∧ (g0.grp 15).op = some (gop0 0 false) ∧ k0.grpRank 15 = 0 ∧
    k0.grpN 15 = 2 ∧ grpNode k0 g0 15 1 = (g0.qp 3).peerNode ∧ (gop0 0 false).entered = false ∧ (gop0 0 false).kind = 0 ∧ (gop0 0 false).root = 0 ∧ (gop0 0 false).len = 8 ∧
    (g0.grp 15).msgs = [] := by unfold ArrivesNext; decide +kernel

/-- Fabric: the data of a load, the whole of it in one packet. -/
theorem wit_floadResp : let k := ctl (fabWords 1 2)
    let o := { sentOp 0x30 7 with owner := .fab 0 0 0x144000000, off := 0 }
    let u := sentPkt 0x30 7
    let d := datF pending { qpNet with txq := [o], unacked := [u] } 1
    let pkt := pkt0 0x31 (.floadResp 7 0) (bytesLE 8 9)
    Arrives k d 15 3 0x31 pkt ∧ fromPeer d pkt = true ∧ (d.qp 3).txq = [o] ∧ o.opc = 0x30 ∧ o.firstPsn = some 7 ∧ o.fail = none ∧ o.sent = o.len ∧ pkt.data.length = o.len ∧
    0 < o.len ∧ o.len ≤ (d.qp 3).payBytes ∧ o.got = 0 ∧ (d.qp 3).unacked = [u] ∧ u.pkt.psn = 7 ∧ d.thr 0 = some pending ∧ d.fab.groups = [] := by unfold Arrives; decide +kernel

/-- Fabric: a group operation's time limit, a hold's, a reset, its acknowledgement, and the teardown of a partition's accesses. -/
theorem wit_fabEvents : let k := ctl (fabWords 1 2)
    let g := inGroup (datF pending qpNet 1) (gop0 0 true)
    let h := { datF pending qpNet 1 with fab := { g.fab with groups := [], holds := [(0, 15, 500000000)] } }
    let r := { datF pending qpNet 1 with fab := { h.fab with resetOps := [⟨0, 0, 15, 600000000⟩] } }
    let th := { thread with ops := [{ waitingOp with eng := 7, started := true }] }
    let t := { datF th qpNet 1 with fab := { h.fab with deadPend := [(0, 8)] } }
    (g.grp 15).op = some (gop0 0 true) ∧ (gop0 0 true).deadline ≤ k.ticks ∧ g.thr 0 = some pending ∧ Tab.get? g.fab.resets 15 = none ∧ g.fab.resetOps = [] ∧
    h.fab.holds = [(0, 15, 500000000)] ∧ 500000000 ≤ k.ticks ∧ k.done = true ∧ k.pwr.state = .run ∧ k.grpOn 15 = true ∧ g.fab.resetOps.any (fun o => o.group == 15) = false ∧
    r.fab.resetOps = [⟨0, 0, 15, 600000000⟩] ∧ Tab.get? r.fab.resets 15 = none ∧ grpNode k r 15 0 = 8 ∧ r.thr 0 = some pending ∧ t.fab.deadPend = [(0, 8)] ∧
    t.fab.groups = [] ∧ t.thr 0 = some th ∧ th.part = 0 ∧ (∃ o ∈ th.ops, o.eng = 7 ∧ o.op < 5 ∧ o.done = none ∧ landedPages t 0 o.id = 0) ∧ t.fyl.threads = [(0, th)] := by decide +kernel

/-- Fabric: heartbeats of a watched node in this Kratal's group; an election and a re-pointing at their limits. -/
theorem wit_fabWatch : let k := ctl (fabWords 1 2 ++ [(0x1C00080, [(6, 42, 0x14A000000 / 64), (48, 7, 1)])])
    let d := (datF thread qpNet 1).wr 0x14A000000 2 8
    let e := { d with fab := { d.fab with elects := [⟨8, 0, 500000000⟩], dones := [8], repoints := [⟨8, 0, 0, 3, 500000000⟩] } }
    watchOf k d 8 = some 0x14A000000 ∧ watchDead d 0x14A000000 = false ∧ Arrives k d 15 3 0x38 (pkt0 0x38 .none []) ∧ fromPeer d (pkt0 0x38 .none []) = true ∧
    (pkt0 0x38 .none []).srcNode = 8 ∧ (groupWatch k d).any (fun a => watchNode d a == 8) = true ∧ e.fab.elects = [⟨8, 0, 500000000⟩] ∧ 500000000 ≤ k.ticks ∧ 8 ∈ e.fab.dones ∧
    e.fab.repoints = [⟨8, 0, 0, 3, 500000000⟩] ∧ ({ (⟨8, 0, 0, 3, 500000000⟩ : Repoint) with tries := 2 } : Repoint).tries < 3 := by unfold Arrives; decide +kernel

/-! ### Ballast -/

/-- One GiB of Ballast map, of which partition 0 has the first units. -/
def blsWords : List (Nat × List (Nat × Nat × Nat)) := [(0x1800040, [(0, 7, 1)]), (0x1940040, [(16, 15, 1)])]

/-- Channel 7: 8 dies of 256 units, formatted, with an open stripe of SLC rows of 8 units that has its first slot free. -/
def chan7 : FChan :=
  { fchanReset with
    found := ⟨[0, 1, 2, 3, 4, 5, 6, 7], 1, 4, 16, 256, 0, 0, 0, 1, 1600⟩
    header := some ⟨1, 1048576, 8, 8, false⟩
    single := some ⟨1, [0, 256, 512, 768, 1024, 1280, 1536, 1792], false, 0, 0, none⟩ }
def datL (th : Thread) (x : FChan) : Data := { dat th with bls := { (dat th).bls with chans := [(7, x)] } }

/-- Ballast: unit 7, on channel 7, unmapped; written; and mapped, to be trimmed. -/
theorem wit_blsUnit : let k := { ctl blsWords with sec := { (ctl []).sec with blsKeys := [(0, 5)] } }
    let th := issuer [(0, 0, 48, 0x144000000), (8, 0, 36, 7), (16, 0, 17, 1)]
    let tr := issuer [(8, 0, 36, 7), (16, 0, 17, 1)]
    let d := datL th chan7
    let e := (datL tr chan7).wr (mapAt 7) 4 (2 ^ 31 + 12)
    let x := th.dReg 0
    Issues d 0 0 th ∧ df x 16 0 17 = 1 ∧ Data.mayGrant k d th.part 3 = true ∧ (∀ o ∈ [0, 1], Prompt k d th (newOp k th 8 o none 1 0)) ∧
    firstOf (blsChecks k d th x false false) = none ∧ firstOf (blsChecks k d th x false true) = none ∧ (readUnit k d 7).2.isSome = true ∧
    (readUnit k { d with bls := { d.bls with chans := [(7, { chan7 with lost := true })] } } 7).2 = none ∧ (k.blsRange th.part).1 + df x 8 0 36 = 7 ∧ tierState k d = 3 ∧
    d.header = some ⟨1, 1048576, 8, 8, false⟩ ∧ d.bad (df x 0 0 48) 16384 = false ∧ chanOk k d 7 = true ∧ df x 20 0 1 = 0 ∧ 4 * 8 ≤ chan7.free ∧
    (∃ st ∈ chan7.single, st.native = false ∧ st.pos + 1 < chan7.rowSlots st ∧ chan7.slotAt st st.pos < 2 ^ 31 ∧ chan7.failing st = none ∧
      (chan7.wearOf (chan7.slotAt st st.pos)).dead = false) ∧ chan7.dead = [] ∧ chan7.header = d.header ∧ Tab.has k.sec.blsKeys th.part = true ∧
    Issues e 0 0 tr ∧ Prompt k e tr (newOp k tr 8 2 none 1 0) ∧ firstOf (blsChecks k e tr (tr.dReg 0) true false) = none ∧ tierState k e ≠ 4 ∧ mapSlot e 7 = some 12 := by
  unfold Issues Prompt; decide +kernel

/-- Ballast: a flush; a format by partition 0; maintenance of no channel and a patrol of one slot of channel 7. -/
theorem wit_blsTier : let k := ctl blsWords
    let fl := issuer []
    let fm := issuer [(0, 0, 34, 8), (8, 0, 6, 8), (9, 0, 6, 4)]
    let mt := issuer [(0, 0, 2, 2), (1, 0, 8, 128), (4, 0, 32, 1)]
    let z : FSlot := ⟨7, 0, 0, 1, 1, 0, [], 0⟩
    let d := datL mt { chan7 with slots := [(12, z)] }
    Issues (datL fl chan7) 0 0 fl ∧ Prompt k (datL fl chan7) fl (newOp k fl 8 3 none 1 0) ∧ fl.dReg 0 = 0#512 ∧ tierCheck k (datL fl chan7) = none ∧
    (∀ i, i < 4 → k.up i 20 = true) ∧ Issues (datL fm chan7) 0 0 fm ∧ Prompt k (datL fm chan7) fm (newOp k fm 8 4 none 1 0) ∧
    descOk (fm.dReg 0) [(0, 0, 34), (8, 0, 6), (9, 0, 6)] = true ∧ fm.part = 0 ∧ tierState k (datL fm chan7) = 3 ∧ 8 ≤ k.mapGib * 2 ^ 28 ∧ chan7.present = true ∧
    chan7.lost = false ∧ 8 ≤ chan7.found.dies - chan7.dead.length ∧ chan7.req 8 8 4 + 8 ≤ chan7.good ∧ Issues d 0 0 mt ∧ Prompt k d mt (newOp k mt 8 5 none 1 0) ∧
    descOk (mt.dReg 0) [(0, 0, 2), (1, 0, 8), (4, 0, 32)] = true ∧ tierCheck k d = none ∧ tierState k d ≠ 4 ∧ df (mt.dReg 0) 0 0 2 = 2 ∧ df (mt.dReg 0) 1 0 8 = 2 ^ 7 ∧
    df (mt.dReg 0) 4 0 32 = 1 ∧ chanOk k d 7 = true ∧ k.up (7 / 2) 20 = true ∧ (d.chan8 7).slots.find? (fun e => decide ((d.chan8 7).cursor ≤ e.1)) = some (12, z) := by
  unfold Issues Prompt; decide +kernel

/-- Ballast: a journal and an open row that are due; a die that is lost and leaves too few units. -/
theorem wit_blsEvents : let st : FStripe := ⟨1, [0, 256], false, 0, 1, some 0⟩
    let x := { chan7 with journal := [(0, some 12)], jSince := some 0, single := some st, header := some ⟨1, 2 ^ 34, 8, 8, false⟩ }
    let d := datL thread x
    (d.chan8 7).jSince = some 0 ∧ 0 + 25000000 ≤ (ctl []).ticks ∧ x.open_ false = some st ∧ st.native = false ∧ st.since = some 0 ∧ st.pos ≠ 0 ∧ st.units.length ≤ 65 ∧
    0 < x.found.p ∧ 0 < x.found.q ∧ ({ d.bls with rebuilding := true } : Bls).rebuilding = true ∧ x.found.ids.contains 7 = true ∧ x.dead.contains 7 = false ∧
    x.header = some ⟨1, 2 ^ 34, 8, 8, false⟩ ∧ ({ x with dead := [7] } : FChan).good ≤ x.req (2 ^ 34) 8 8 ∧ x.fails = [] := by decide +kernel

/-! ### Bridle and the host's end -/

/-- No window covers a range where none of the windows of the words in force does. -/
theorem apWindow_none {k : Ctl} {h off n : Nat} (hx : ∀ e ∈ k.shell.cfg, e.1 % 2 ^ 26 = 0x1F10200 → let w := e.1 / 2 ^ 26
    (!k.winOut w && k.winHalf w == h && inside off n (k.winApoff w) (k.winSlots w * k.winSlotBytes w)) = false) : k.apWindow h off n = none := by
  simp only [Ctl.apWindow, List.find?_eq_none, Bool.and_assoc]
  intro w _ c
  obtain ⟨hm, hc⟩ := Bool.and_eq_true_iff.1 c
  have hr : fld (resetWord 0x1F10200) 0 1 = 0 := by decide +kernel
  have hf : k.fld (objKey 0x1F10200 w) 0 1 = 1 := by simpa [wdef] using (Bool.and_eq_true_iff.1 hm).2
  obtain ⟨e, he, hk⟩ := cfg_key (k := k) (a := 0x1F10200) (m := w) (lo := 0) (w := 1) (by rw [hr, hf]; decide)
  have h1 : e.1 % 2 ^ 26 = 0x1F10200 := by rw [hk, objKey]; omega
  have h2 : e.1 / 2 ^ 26 = w := by rw [hk, objKey]; omega
  have := hx e he h1
  simp only [h2, Bool.and_assoc] at this
  rw [hc] at this
  exact Bool.noConfusion this

/-- Port 0 a device with CXL on half 0, port 3 with a root port on half 7; windows 2 and 6 of `winWords` at 1 MiB and 2 MiB of the aperture. -/
def portWords : List (Nat × List (Nat × Nat × Nat)) :=
  winWords ++ [(wdef 2 2, [(10, 26, 1024)]), (wdef 6 2, [(10, 26, 2048)]), (0x1F10040, [(1, 2, 2), (3, 1, 1), (7, 3, 6)]), (0x1F13040, [(0, 1, 1), (4, 2, 1), (7, 3, 6)])]

/-- The data plane with the halves 0 and 7 up, and window states. -/
def datW (th : Thread) (l : Tab Win) : Data :=
  { dat th with bdl := { (dat th).bdl with
    halves := [(0, { halfReset with up := true, gen := 6, width := 16 }), (7, { halfReset with up := true, gen := 6, width := 8 })]
    wins := l } }

/-- WindowsWritten: the last bytes of window 2; PROD at its credit and beyond; the last slot of window 4. -/
theorem wit_windows : let k := ctl portWords
    let d := datW thread [(2, { winReset with creditDue := true })]
    halfUp k d 0 = true ∧ k.pwr.state = .run ∧ k.apWindow 0 (2 ^ 20 + 16376) 8 = some 2 ∧ (d.win 2).prod = (d.win 2).rel ∧ k.winOn 2 = true ∧ k.winHalf 2 = 0 ∧
    k.winOut 2 = false ∧ ((4 : BitVec 32).toNat + 2 ^ 32 - (d.win 2).prod % 2 ^ 32) % 2 ^ 32 ≤ ((d.win 2).rel + k.winSlots 2 + 2 ^ 32 - (d.win 2).prod % 2 ^ 32) % 2 ^ 32 ∧
    ((d.win 2).rel + k.winSlots 2 + 2 ^ 32 - (d.win 2).prod % 2 ^ 32) % 2 ^ 32 < ((5 : BitVec 32).toNat + 2 ^ 32 - (d.win 2).prod % 2 ^ 32) % 2 ^ 32 ∧
    k.winOn 4 = true ∧ k.winHalf 4 = 0 ∧ k.winOut 4 = true ∧ (3 : BitVec 32).toNat < k.winSlots 4 ∧ d.bdl.jobs = [] ∧ (d.win 4).grants.contains 3 = false ∧
    (d.win 2).creditDue = true ∧ Data.mayGrant k d (k.winPart 2) 2 = true := by decide +kernel

theorem wit_windowsApart : (ctl portWords).apWindow 0 (64 * 2) 4 = none ∧ (ctl portWords).apWindow 0 (64 * 4 + 8) 4 = none ∧ (ctl portWords).apWindow 0 (64 * 4 + 12) 4 = none :=
  ⟨apWindow_none (by decide +kernel), apWindow_none (by decide +kernel), apWindow_none (by decide +kernel)⟩

set_option synthInstance.maxSize 1024 in
/-- WindowsWritten: an output that has waited GRANT_TMO; the one slot held released. -/
theorem wit_windowOps : let k := ctl portWords
    let th := issuer [(0, 0, 10, 2)]
    let j : OutJob := ⟨0, 0, 0, [(4, [], 0xFFFF)], .ok, 0, 0, some 0, 0⟩
    let d := { datW pending [] with bdl := { (datW pending []).bdl with jobs := [j] } }
    let e := datW th [(2, { winReset with prod := 1 })]
    let x := th.dReg 0
    d.bdl.jobs.find? (fun j => j.thread == 0 && j.opId == 0) = some j ∧ j.since = some 0 ∧ j.dests = (4, [], 0xFFFF) :: [] ∧
    k.grantTmo (k.winHalf 4 / 2) ≤ j.waited + (k.ticks - 0) ∧ d.thr 0 = some pending ∧ landedPages d 0 0 = 0 ∧ Issues e 0 0 th ∧ Prompt k e th (newOp k th 1 5 none 1 0) ∧
    descOk x [(0, 0, 10), (2, 0, 12)] = true ∧ df x 0 0 16 = 2 ∧ k.winOn 2 = true ∧ k.winPart 2 = th.part ∧ k.winOut 2 = false ∧ winOff k e 2 = none ∧
    (e.win 2).heldCount (k.winSlots 2) (df x 2 0 12) = some 0 := by unfold Issues Prompt; decide +kernel

/-- BridlePorts: a configuration request of half 7 and its completion; PTM; a line of CXL memory; a half trained; the last MSI-X vector. -/
theorem wit_bridle : let k := ctl (portWords ++ [(0x1F10100, [(0, 6, 63), (6, 1, 1)]), (objKey 0x1800100 63, [(0, 1, 1), (1, 2, 1), (12, 36, 0x144000)]),
      (objKey 0x1800108 63, [(0, 36, 1)])])
    let d := datW thread []
    let q : CfgReq := ⟨7, 0, 0, false, 500000000⟩
    let e := { d with bdl := { d.bdl with cfgReq := [(3, q)] }, mbx := { d.mbx with msixPend := [64 * 7 + 63] } }
    Tab.has d.bdl.cfgReq 3 = false ∧ k.halfMode (2 * 3 + fld ((2 : BitVec 64) ^ 28) 28 1) = 1 ∧ halfUp k d 7 = true ∧ Tab.get? e.bdl.cfgReq 3 = some q ∧ k.halfMode 7 = 1 ∧
    halfUp k d 0 = true ∧ k.halfMode 0 = 2 ∧ k.halfCxl 0 = true ∧ k.pwr.state = .run ∧ cxlFind k 0 (upTo 8) (4095 / 64 * 64) = some (63, 0x144000FC0) ∧
    d.bdl.cxlDead.contains 63 = false ∧ (∀ r ∈ [0, 2], Data.mayGrant k d (k.lend 63).2.2.1 r = true) ∧
    k.cells.contains (1024 * (64 * (7 / 2) + 16) + 7 % 2) = false ∧ (d.half 7).up = true ∧ k.up (7 / 2) 16 = true ∧ bitsOf k.tim.inputs (3 + 7 / 2) 1 = 1 ∧ k.bifurcated 3 = true ∧ 3 ≤ k.maxGen 3 ∧
    ((dat thread).half 7).up = false ∧ e.mbx.msixPend.contains (64 * 7 + 63) = true ∧ (e.half 7).up = true := by decide +kernel

/-- HostMailbox: the last channel of the mailbox, empty and full; a ring of partition 0 at its limits. -/
theorem wit_hostMailbox : let k := ctl (chanWords ++ ringWords 0 0)
    let d := (dat thread).setRing 0 ⟨0, 0, 1, 0⟩
    k.pathMay (.session 1) 1 = true ∧ k.pathMay (.half 0) 0 = true ∧ k.kDown = false ∧ k.chPart 31 = 1 ∧ k.chOn 31 = true ∧ (d.chan 31).inFull = false ∧ d.fyl.mbxWait = [] ∧
    ({ d.chan 31 with inFull := true } : Chan).inFull = true ∧ (∀ e ∈ d.fyl.threads, e.2.wait = none) ∧ ringNo false 0 0 = 0 ∧ k.ringOn 0 = true ∧ k.ringThreads 0 = false ∧
    ((4 : BitVec 32).toNat + 2 ^ 32 - (d.ring 0).prod) % 2 ^ 32 ≤ ((d.ring 0).ccons + k.ringSize 0 + 2 ^ 32 - (d.ring 0).prod) % 2 ^ 32 ∧
    ((1 : BitVec 32).toNat + 2 ^ 32 - (d.ring 0).ccons) % 2 ^ 32 ≤ ((d.ring 0).cprod + 2 ^ 32 - (d.ring 0).ccons) % 2 ^ 32 := by decide +kernel

/-! ### Sessions and registers -/

/-- The control plane of an owned device with session 1 of a role on channel 33. -/
def ctlS (role owner : Nat) (l : List (Nat × List (Nat × Nat × Nat))) : Ctl :=
  { ctl l with sec := { (ctl l).sec with
    owner := owner
    operators := [(0, 5)]
    sessions := [(1, ⟨33, role, 0, 0, 500000000⟩)] } }

/-- SessionsOpen: a session asked for on another channel, and finished in time and too late; the eighth failure; an idle session; END. -/
theorem wit_sessionsOpen : let k := ctlS 1 1 [(0x0800040, [(0, 16, 50)])]
    let g := fun (t : Nat) => { k with sec := { k.sec with begun := [(34, ⟨1, 0, t⟩)], fails := 7 } }
    k.serves 34 = true ∧ k.sec.lockUntil ≤ k.ticks ∧ (∀ e ∈ k.sec.sessions, e.2.chan ≠ 34) ∧ k.sec.sessions.length + k.begunOthers 34 < 8 ∧
    Tab.get? (g 0).sec.begun 34 = some ⟨1, 0, 0⟩ ∧ (g 0).ticks ≤ 0 + 5000000000 ∧ (g 0).sec.hasKey 1 0 = true ∧ (g 0).sec.sessions.length < 8 ∧ 8 ≤ (g 0).sec.fails + 1 ∧
    (let late := { g 0 with ticks := 5000000001 }; (0 : Nat) + 5000000000 < late.ticks ∧ late.serves 34 = true) ∧
    (let idle := { k with ticks := 500000000 + 50 * 500000000 }; (500000000 : Nat) + idle.fld 0x0800040 0 16 * 500000000 ≤ idle.ticks) ∧
    Ctl.mayCommand k ⟨33, 1, 0, true⟩ 0x03 ⟨33, 1, 0, 0, 500000000⟩ := by unfold Ctl.mayCommand; decide +kernel

/-- SessionCommandsRefused: no session of the number; a TAG that fails; a SEQ that is spent; an opcode of another role. -/
theorem wit_sessionRefused : let k := ctlS 1 1 []
    k.serves 33 = true ∧ Tab.get? k.sec.sessions 2 = none ∧ Tab.get? k.sec.sessions 1 = some ⟨33, 1, 0, 0, 500000000⟩ ∧
    0 < ({ (⟨33, 1, 0, 0, 500000000⟩ : Session) with seq := 1 } : Session).seq ∧ mayIssue k.sec.recovery 1 0x60 = false ∧ (ctlS 1 0 []).admits 33 0x11 = false := by decide +kernel

/-- What an operator's session may write: every register word but GLB_ROLE and those of the installer. -/
theorem operator_writes {owner a : Nat} {l : List (Nat × List (Nat × Nat × Nat))} (h : a ≠ 0x0000040) (hw : (winOf a != 0x05 && winOf a != 0x08 && a != 0x0200080) = true) :
    (ctlS 1 owner l).pathWrites (.session 1) a := by
  refine ⟨h, fun v m => ?_⟩
  have hr : (ctlS 1 owner l).roleOf 1 = 1 := rfl
  simp only [Ctl.mayWrite, hr, h, if_false]
  exact hw

/-- What a maker's session may write after FA_UNLOCK. -/
theorem maker_writes {a : Nat} {l : List (Nat × List (Nat × Nat × Nat))} (h : a ≠ 0x0000040) (hw : isFa a = true) : (ctlS 3 2 l).pathWrites (.session 1) a := by
  refine ⟨h, fun v m => ?_⟩
  have hr : (ctlS 3 2 l).roleOf 1 = 3 := rfl
  have hf : (ctlS 3 2 l).fa = true := rfl
  simp only [Ctl.mayWrite, hr, hf, hw, Bool.and_true]

/-- SessionCommands: an operator's commands, with a program image of one word in the partition's plain range. -/
theorem wit_operator : let k := ctlS 1 1 []
    let c : SecCmd := ⟨33, 1, 0, true⟩
    let d := ((dat thread).wr 0x150000000 2 7).wr 0x150000004 4 1
    let s := st k d
    (∀ opc ∈ [0x10, 0x11, 0x20, 0x30, 0x31, 0x32, 0x50, 0x51], Ctl.mayCommand k c opc ⟨33, 1, 0, 0, 500000000⟩) ∧ WordAccess s (.session 1) 0x1340040 ∧
    k.mayRead 1 0x1340040 = true ∧ counterAt 0x1340040 = none ∧ k.mayStore 1 0x1340040 0x40 0x40 = true ∧ maskAt (fun t => t != .rwc) 0x1340040 = 0#64 ∧
    (0x40 : BitVec 64) &&& maskAt (fun t => t == .rwc) 0x1340040 ≠ 0#64 ∧ k.regionsServe = true ∧ k.inPlain 0 0x150000000 (16 + 4 * 1 + 96) = true ∧
    ofBytesLE (memBytes d.mem 0x150000004 4) = 1 ∧ d.bad 0x150000000 116 = false ∧ Tab.has k.sec.progKeys 0 = false ∧ k.fld 0x0800040 16 1 ≠ 1 ∧
    k.storeBytes 0 - 0 + 4 * 1 ≤ k.progKb 0 * 1024 ∧ progLive d 0 7 = false ∧ Tab.has ({ k with progs := [(7, ⟨[0], false⟩)] } : Ctl).progs (65536 * 0 + 7) = true := by
  unfold Ctl.mayCommand WordAccess; decide +kernel

/-- SessionCommands: an installer's and a maker's, the option bytes of the safe defaults among them, and the enrolment of an UNOWNED device. -/
theorem wit_installer : let c : SecCmd := ⟨33, 1, 0, true⟩
    let body := (obSafe.drop 8).take 500
    (∀ opc ∈ [0x21, 0x40, 0x41], Ctl.mayCommand (ctlS 2 1 []) c opc ⟨33, 2, 0, 0, 500000000⟩) ∧
    (∀ opc ∈ [0x60, 0x61], Ctl.mayCommand (ctlS 3 1 []) c opc ⟨33, 3, 0, 0, 500000000⟩) ∧ body.length = 500 ∧ (ctlS 2 1 []).rst.safe = false ∧
    obFields (bytesLE 4 0x4B524F42 ++ bytesLE 4 (((ctlS 2 1 []).rst.seq + 1) % 2 ^ 32) ++ body) = true ∧ (ctl []).serves 33 = true ∧ (ctl []).sec.owner = 0 ∧
    (ctl []).sec.recovery = false := by unfold Ctl.mayCommand; decide +kernel

/-- RegisterAccess: a word that is staged, one of W1C bits, an RC counter, and one that a path may not touch. -/
theorem wit_registers : let k := ctlS 1 1 []
    let s := st k (dat thread)
    let b := ctl portWords
    (∀ a ∈ [0x1340040, 0x1100080, 0x1980000, 0x0400040], WordAccess s (.session 1) a ∧ k.mayRead 1 a = true) ∧ maskAt (fun t => t != .rwc) 0x1340040 = 0#64 ∧
    maskAt (fun t => t == .rwc) 0x1340040 ≠ 0#64 ∧ maskAt (fun t => t != .w1c && t != .ro) 0x1100080 = 0#64 ∧ winOf 0x1100080 ≠ 0x1A ∧ counterAt 0x1980000 = some true ∧
    counterAt 0x0400040 = none ∧ (∀ v m, (ctlS 3 1 []).mayWrite 1 0x1340040 v m = false) ∧ WordAccess (st (ctlS 3 1 []) (dat thread)) (.session 1) 0x1340040 ∧
    WordAccess (st b (datW thread [])) (.half 0) 0x0500040 ∧ b.halfReach 0 0x0500040 = false ∧ targetOf 0x3E00000 8 = .unmapped ∧ pathLive k (dat thread) (.session 1) = true ∧
    k.spaceUp = true := by
  unfold WordAccess
  refine ⟨by decide +kernel, by decide +kernel, by decide +kernel, by decide +kernel, by decide +kernel, by decide +kernel, by decide +kernel, fun _ _ => rfl, ?_⟩
  decide +kernel

theorem wit_registerWrites : (∀ a ∈ [0x1340040, 0x1100080], (ctlS 1 1 []).pathWrites (.session 1) a) := by
  intro a h
  simp only [List.mem_cons, List.not_mem_nil, or_false] at h
  obtain rfl | rfl := h <;> exact operator_writes (by decide) (by decide)

/-- Commits: the set of the Spool, whose check passes; that of the time service with a reserved source; a domain that is down; a set that is captured. -/
theorem wit_commits : let k := ctlS 1 1 []
    let bad := stageBits k 0x0400040 3 3
    let d := dat thread
    let g := fun (k : Ctl) (a : Nat) => (⟨.session 1, 5, 500000000, (setWords a).foldl (fun t w => Tab.set t (k.stagedWord (.session 1) w).1 (k.stagedWord (.session 1) w).2) [],
      takeStaged k.shell.staged (setWords a)⟩ : Capture)
    let held := { k with shell := { k.shell with commits := [(0x1300000, ⟨0, .ok, 0, some (g k 0x1300000)⟩)] } }
    isCommit 0x1300000 = true ∧ isCommit 0x0400000 = true ∧ WordAccess (st k d) (.session 1) 0x1300000 ∧ (k.commit 0x1300000).cap = none ∧ k.domainDown 0x1300000 = false ∧
    ({ k with down := [63, 127, 191, 255] } : Ctl).domainDown 0x1300000 = true ∧ setWords 0x1300000 ≠ [] ∧ commitCheck k d 0x1300000 (g k 0x1300000) = .ok ∧
    bad.domainDown 0x0400000 = false ∧ commitCheck bad d 0x0400000 (g bad 0x0400000) = .cfgInvalid ∧ (held.commit 0x1300000).cap = some (g k 0x1300000) ∧
    commitCheck held d 0x1300000 (g k 0x1300000) = .ok ∧ ¬ (g k 0x1300000).since + 5000000 ≤ k.ticks ∧ winOf 0x1300000 ≠ 0 ∧ commitBusy d 0x1300000 (g k 0x1300000) = false ∧
    (let c : Capture := ⟨.session 1, 5, 500000000, [(objKey 0x1F10200 4, 1)], [(0x1F10200, ⟨1, 1⟩)]⟩
     let o := { d with bdl := { d.bdl with jobs := [{ (default : OutJob) with dests := [(4, [], 0xFFFF)] }] } }
     commitBusy o 0x1F10000 c = true ∧ commitBusy d 0x0200000 c = false) ∧ (495000000 : Nat) + 5000000 ≤ k.ticks := by unfold WordAccess; decide +kernel

/-- RegisterActions: what each action asks for. -/
theorem wit_actions : let k := ctlS 1 1 [(0x1C00080, [(6, 42, 0x14A000000 / 64), (48, 7, 1)])]
    let d := (dat thread).wr 0x14A000000 2 8
    (∀ a ∈ [0x1E00080, 0x0100040, 0x01000C0], WordAccess (st k d) (.session 1) a) ∧ k.domainDown 0x1E00080 = false ∧ k.dpaCheck 0 0x144000000 34816 false = none ∧
    watchOf k d 8 = some 0x14A000000 ∧ watchDead d 0x14A000000 = false ∧ d.ttx.qps = [] ∧ k.fld 0x1C40080 48 16 = 0 ∧ k.fld 0x1C00040 0 1 = 0 ∧
    (∀ a ∈ [0x09000C0, 0x09000C8], WordAccess (st (ctlS 3 2 []) d) (.session 1) a) ∧ (ctlS 3 2 []).fa = true ∧
    ({ k.rst with wdtFed := some 0 } : Rst).wdtFed.isSome = true ∧ k.rst.blk = none ∧ k.done = true ∧ k.powered 21 = true ∧ k.down.contains (64 * 3 + 63) = false ∧
    d.ras.steps = [] := by unfold WordAccess; decide +kernel

theorem wit_actionWrites : (∀ a ∈ [0x1E00080, 0x0100040, 0x01000C0, 0x1300000], (ctlS 1 1 []).pathWrites (.session 1) a) ∧
    (∀ a ∈ [0x09000C0, 0x09000C8], (ctlS 3 2 []).pathWrites (.session 1) a) := by
  constructor
  · intro a h
    simp only [List.mem_cons, List.not_mem_nil, or_false] at h
    obtain rfl | rfl | rfl | rfl := h <;> exact operator_writes (by decide) (by decide)
  · intro a h
    simp only [List.mem_cons, List.not_mem_nil, or_false] at h
    obtain rfl | rfl := h <;> exact maker_writes (by decide) (by decide)

/-! ### Resets, start-up, power, time and errors -/

/-- Resets: the supplies absent and present, a half as a device, and the watchdog with its flag as before and changed. -/
theorem wit_resets : let k := { ctl (portWords ++ [(0x0100100, [(0, 1, 1), (16, 16, 10)])]) with rst := { (ctl []).rst with wdtFed := some 0, perstWarm := 1 } }
    let cell := Tab.getD (dat thread).mbx.flags ((k.frange 0).1 + k.fld 0x0100100 32 16) 0#64
    k.pwr.vaux = true ∧ k.pwr.vin = true ∧ k.pwr.state ≠ .s3 ∧ ({ k.pwr with vaux := false, vin := false } : Pwr).vin = false ∧ k.halfMode 0 = 2 ∧
    bitsOf k.rst.perstWarm 0 1 = 1 ∧ bitsOf (ctl []).rst.perstWarm 0 1 = 0 ∧ k.rst.wdtFed = some 0 ∧ k.fld 0x0100100 0 1 = 1 ∧ k.pwr.state = .run ∧
    0 + k.fld 0x0100100 16 16 * 500000 ≤ k.ticks ∧ cell = k.rst.wdtVal ∧ cell ≠ 1#64 := by decide +kernel

/-- StartupSteps: every step from reset, with firmware that verifies and without; the boot program of one word. -/
theorem wit_startup : let k := fun (n : Nat) => { Ctl.reset with rst := { Rst.reset with stage := n } }
    let b := { ctl [] with rst := { Rst.reset with stage := 13 } }
    let k1 := installProg b 0 0 [0#32] (Config.sha384 (bytesLE 4 0))
    (∀ n ∈ [1, 2, 3, 4, 12], (k n).rst.fail = false ∧ (k n).sec.recovery = false ∧ (k n).pwr.state ≠ .s3 ∧ (k n).pwr.vaux = true ∧ (k n).pwr.vin = true ∧ (k n).rst.stage = n) ∧
    (k 2).sec.fwPick = some 0 ∧ ({ (k 2).sec with fw := [] } : Sec).fwPick = none ∧ Tab.get? b.sec.fw b.sec.fwSlot = some ⟨true, 0, 0, 0, [0#32]⟩ ∧ k1.up 0 0 = true ∧
    (launch k1 (dat thread) (k1.rtSlots != 0) 0 0 (BitVec.ofNat 512 (2 ^ 36))).2 = none := by decide +kernel

/-- PowerStates: each request where it may be and where it may not; the ends of an entry; a wake; the evaluations. -/
theorem wit_power : let k := ctlS 1 1 [(0x0200080, [(32, 2, 3)])]
    let d := dat thread
    let busy := datB thread (basket .pushing)
    WordAccess (st k d) (.session 1) 0x02000C0 ∧ k.pwr.req = none ∧ k.pwr.state = .run ∧ s1Refused k d = false ∧ s1Refused k (withQp d) = true ∧ s3Refused k d = false ∧
    s3Refused k busy = true ∧ ({ k.pwr with req := some 0 } : Pwr).next = 0 ∧ s1Hold d = false ∧ sailBusy d = false ∧ s1Hold busy = true ∧
    0 + 50000000 ≤ k.ticks ∧ k.pwr.vaux = true ∧ k.pwr.vin = true ∧ k.pwr.tripped = none ∧ k.ticks < 0 + 5000000000 ∧ 4 ≤ k.rst.stage ∧ d.stsBit 0x0200100 3 = false := by
  unfold WordAccess; decide +kernel

theorem wit_powerWrites : (ctlS 1 1 [(0x0200080, [(32, 2, 3)])]).pathWrites (.session 1) 0x02000C0 := operator_writes (by decide) (by decide)

/-- TimeService: inputs there and away; an edge that is early, and the first; PTP; the source lost; a pulse; a Sync of the own clock. -/
theorem wit_time : let k := fun (src ptp : Nat) => ctl [(0x0400040, [(0, 2, src), (2, 1, ptp), (16, 16, 100), (32, 16, 10)]), (0x0400080, [(0, 1, 1)]), (0x04000C0, [(0, 1, 1), (1, 1, 1)])]
    let t := (k 1 0).tim
    (k 1 0).pwr.state ≠ .s3 ∧ (k 1 0).pwr.vin = true ∧ bitsOf t.inputs 9 1 = 1 ∧ bitsOf t.inputs 7 1 = 0 ∧ 50000 < edgeError 100000 (k 1 0).ticks ∧ t.edge = none ∧
    (k 1 0).fld 0x0400040 0 2 = 1 ∧ t.tod = none ∧ (k 2 1).fld 0x0400040 2 1 = 1 ∧ (k 2 1).fld 0x0400040 0 2 = 2 ∧ t.stepAt = 0 ∧
    (((k 2 1).fld 0x0400040 32 16 * 1000 : Nat) : Int) < 10001 ∧ ((-100 : Int).natAbs ≤ (k 2 1).fld 0x0400040 16 16) ∧ (k 2 1).fld 0x0400040 16 16 < (-101 : Int).natAbs ∧
    t.heard = none ∧ ({ t with state := .locked } : Tim).state = .locked ∧ (k 1 0).fld 0x0400080 2 30 ≤ (k 1 0).ns ∧ t.pulse0 < ((k 1 0).ns - 0) / 1000000000 ∧
    (k 1 0).fld 0x0400080 0 1 = 1 ∧ (k 1 0).fld 0x0400080 1 1 = 0 ∧ (k 1 0).fld 0x04000C0 1 1 = 1 ∧ ({ t with state := .locked } : Tim).state ≠ .freerun ∧
    (k 0 1).fld 0x0400040 2 1 = 1 ∧ (k 0 1).fld 0x0400040 0 2 ≠ 2 := by decide +kernel

/-- ErrorsContained: where each error strikes. -/
theorem wit_errors : let k := ctl []
    let d := { datB thread (basket .prefill) with ras := { (dat thread).ras with steps := [⟨64 * 3 + 21, 499500000, true⟩] }, slices := (({ datB thread (basket .prefill) with slices := [] } : Data).touchRec 5 true).slices }
    let r : BbRec := default
    d.thr 0 = some thread ∧ thread.ops = [] ∧ (d.basket 5).state ≠ .free ∧ d.recDirty 5 = true ∧ (datB thread (basket .prefill)).recDirty 5 = false ∧
    locListed k 0x40 = true ∧ locListed k 0x10000000 = false ∧ locListed k 4 = true ∧ k.tierOf 0x144000000 1 = .plain ∧ d.ras.closed.contains (4 * 0 + 3) = false ∧
    d.ras.steps.find? (fun y => y.blk == 64 * 3 + 21) = some ⟨64 * 3 + 21, 499500000, true⟩ ∧ 499500000 + 500000 ≤ k.ticks ∧ d.ras.steps.any (fun y => y.blk == 64 * 3 + 21) = true ∧
    fld (4 : BitVec 32) 0 2 = 0 ∧ Tab.get? d.ras.ces (4 : BitVec 32).toNat = none ∧ k.fld 0x0900040 24 16 < 65536 ∧ k.pwr.state = .run ∧ k.up (7 / 2) (8 + 7 % 2) = true ∧
    (Tab.getD d.ras.patrol 7 (0, 0)).1 + 1 < 96 * 2 ^ 30 / 64 ∧ k.pwr.vaux = true ∧ ({ d.bbx with queue := [r] } : Bbx).queue = r :: [] := by decide +kernel

/-! ### The invariants -/

theorem wit_invariants : State.reset.k.cfgDefined ∧ State.reset.d.memCanon ∧ State.reset.k.sessionsBounded :=
  ⟨fun _ _ h => by simp [State.reset, Ctl.reset, Shell.reset] at h, rfl, by decide, by simp [State.reset, Ctl.reset, Sec.reset]⟩

end Sys2Proof.Tests
end

/-!
PROOFS. O50, the commit handshake (R51 to R54, R701): accesses to register words, the commit registers, GO and DISCARD, the application point, and the withdrawal.
-/
namespace Sys2Proof.Machine

/-! ### Whole-word accesses to the control space -/

/-- A command that lifts an effect goes, and its claim is one about that effect. -/
theorem goesBoth_of_onBoth {i : Instr} {s : State} {f : Ctl × Data → Ctl × Data} {P : Ctl → Data → Prop}
    (h : exec i s = onBoth f s) (hp : P (f (s.k, s.d)).1 (f (s.k, s.d)).2) : GoesBoth i s P := ⟨_, _, h, hp⟩

/-- A path that may write a word of a control space that answers reaches the word's own write. -/
theorem gatedWrite_of_pathWrites (x : Ctl × Data) {path : Path} {a : Nat} (v m : Word) (hs : x.1.spaceUp = true) (hw : x.1.pathWrites path a) :
    gatedWrite x path a v m = wordWrite x path a v m := by
  obtain ⟨hr, hw⟩ := hw
  cases path with
  | session n =>
    have hw : ∀ v m, x.1.mayWrite n a v m = true := hw
    simp [gatedWrite, hs, hw]
  | half h =>
    have hw : x.1.halfReach h a = true := hw
    simp [gatedWrite, hs, hw, hr]

/-- A whole-word write by a path that may make it is the word's own write of the bits that its fields cover (R695). -/
theorem accessWrite_of_access {s : State} {path : Path} {a : Nat} (v m : Word) (h : WordAccess s path a) (hw : s.k.pathWrites path a) :
    accessWrite (s.k, s.d) path a 8 v m = wordWrite (s.k, s.d) path a v (m &&& writeLane a 8) := by
  obtain ⟨h8, ht, hl, hs⟩ := h
  have hword : a / 8 * 8 = a := by omega
  have hlane : ∀ u : Word, toLane a u = u := fun u => by
    have : a % 8 ≠ 4 := by omega
    simp [toLane, this]
  simp only [accessWrite, ht, hl, hlane, hword, if_true]
  exact gatedWrite_of_pathWrites (s.k, s.d) v _ hs hw

/-! ### The commit registers -/

@[simp] theorem Ctl.commit_setCommit_self (k : Ctl) (a : Nat) (c : Commit) : (k.setCommit a c).commit a = c := Tab.getD_put_self _ _ a c
@[simp] theorem commitReport_shell_cfg (k : Ctl) (a tag : Nat) (st : Status) : (commitReport k a tag st).shell.cfg = k.shell.cfg := rfl

/-- A report shows the result and the tag, and BUSY has fallen (R52). -/
theorem commit_commitReport (k : Ctl) (a tag : Nat) (st : Status) :
    ((commitReport k a tag st).commit a).result = st ∧ ((commitReport k a tag st).commit a).doneTag = tag ∧ ((commitReport k a tag st).commit a).cap = none := by
  simp [commitReport]

/-- A set dropped reports as any other. -/
theorem commit_commitDrop (k : Ctl) (a : Nat) (c : Capture) (st : Status) :
    ((commitDrop k a c st).commit a).result = st ∧ ((commitDrop k a c st).commit a).doneTag = c.tag ∧ ((commitDrop k a c st).commit a).cap = none :=
  commit_commitReport k a c.tag st

theorem wordFields_of_isCommit {a : Nat} (h : isCommit a = true) : wordFields a = some commitFields := by
  have hw : windowExists (winOf a) = true := by
    simp only [isCommit, Bool.and_eq_true] at h
    exact h.1.1
  simp [wordFields, hw, h]

/-- The bits of a commit register that a whole-word write covers: GO, DISCARD, BUSY, TAG, RESULT and DONE_TAG. -/
theorem writeLane_of_isCommit {a : Nat} (h8 : a % 8 = 0) (h : isCommit a = true) : writeLane a 8 = 0xFFFFFF07#64 := by
  have hword : a / 8 * 8 = a := by omega
  simp [writeLane, hword, wordFields_of_isCommit h, commitFields, accMask, maskOf]

/-- A whole-word write to a commit register is its own write. -/
theorem accessWrite_of_isCommit {s : State} {path : Path} {a : Nat} (v m : Word) (hc : isCommit a = true) (h : WordAccess s path a)
    (hw : s.k.pathWrites path a) : accessWrite (s.k, s.d) path a 8 v m = commitWrite (s.k, s.d) path a v (m &&& 0xFFFFFF07#64) := by
  rw [accessWrite_of_access v m h hw, writeLane_of_isCommit h.1 hc]
  simp only [wordWrite, hc, if_true]

/-- TAG as a write of GO and TAG alone leaves it, whatever it was. -/
theorem fld_tag_of_go (old : Word) (tag : BitVec 8) :
    Sys2Proof.fld ((old &&& ~~~0xFF01#64) ||| (BitVec.ofNat 64 (1 + tag.toNat * 256) &&& 0xFF01#64)) 8 8 = tag.toNat := by
  have e : BitVec.extractLsb' 8 8 ((old &&& ~~~0xFF01#64) ||| (BitVec.ofNat 64 (1 + tag.toNat * 256) &&& 0xFF01#64)) = tag := by
    apply BitVec.eq_of_getLsbD_eq
    intro i hi
    have hm : (0xFF01#64).getLsbD (8 + i) = true := (by decide : ∀ j < 8, (0xFF01#64).getLsbD (8 + j) = true) i hi
    have hv : (BitVec.ofNat 64 (1 + tag.toNat * 256)).getLsbD (8 + i) = tag.getLsbD i := by
      have hq : (1 + tag.toNat * 256) / 2 ^ 8 = tag.toNat := by omega
      have h64 : 8 + i < 64 := by omega
      rw [BitVec.getLsbD_ofNat, decide_eq_true h64, Bool.true_and, Nat.add_comm 8 i, ← Nat.testBit_div_two_pow, hq, BitVec.testBit_toNat]
    simp only [BitVec.getLsbD_extractLsb', BitVec.getLsbD_or, BitVec.getLsbD_and, BitVec.getLsbD_not, hm, hv, hi, decide_true, Bool.not_true, Bool.and_false,
      Bool.false_or, Bool.and_true, Bool.true_and]
  refine Eq.trans ?_ (congrArg BitVec.toNat e)
  rw [BitVec.extractLsb'_toNat, Nat.shiftRight_eq_div_pow]
  rfl

/-! ### GO and DISCARD -/

/-- The set that GO captures through a path (R52): the staged words of its region, and the marks that it takes with them. -/
def Ctl.capture (k : Ctl) (path : Path) (a tag : Nat) : Capture :=
  ⟨path, tag, k.ticks, (setWords a).foldl (fun t w => Tab.set t (k.stagedWord path w).1 (k.stagedWord path w).2) [], takeStaged k.shell.staged (setWords a)⟩

theorem exec_commitGo {s : State} {path : Path} {a : Nat} (tag : BitVec 8) (hc : isCommit a = true) (h : WordAccess s path a) (hw : s.k.pathWrites path a) :
    exec (.commitGo path a tag) s = onBoth (fun x => commitGo x path a tag.toNat) s := by
  have hm : 0xFF01#64 &&& 0xFFFFFF07#64 = 0xFF01#64 := rfl
  have hgo : bitAt (BitVec.ofNat 64 (1 + tag.toNat * 256) &&& 0xFF01#64) 0 = true := by
    have hodd : (1 + tag.toNat * 256) % 2 = 1 := by omega
    have h0 : (BitVec.ofNat 64 (1 + tag.toNat * 256)).getLsbD 0 = true := by
      rw [BitVec.getLsbD_ofNat, Nat.testBit_zero, hodd]
      rfl
    rw [bitAt, BitVec.getLsbD_and, h0]
    rfl
  show execCommitGo path a tag s = _
  simp only [execCommitGo, onBoth_next, hc, if_true, accessWrite_of_isCommit _ _ hc h hw, hm, commitWrite, hgo, fld_tag_of_go]

/-- While BUSY, GO and its TAG are ignored (R54). -/
theorem commitGo_of_busy (x : Ctl × Data) (path : Path) {a : Nat} (tag : Nat) (h : (x.1.commit a).cap.isSome = true) : commitGo x path a tag = x := by
  simp [commitGo, h]

/-- GO to a block whose domain is down reports DOMAIN_OFF (R701). -/
theorem commitGo_of_domainDown (x : Ctl × Data) (path : Path) {a : Nat} (tag : Nat) (h : (x.1.commit a).cap = none) (hd : x.1.domainDown a = true) :
    commitGo x path a tag = (commitReport (x.1.setCommit a { x.1.commit a with tag := tag }) a tag .domainOff, x.2) := by
  simp [commitGo, h, hd]

/-- GO of a set that fails its check reports why (R52). -/
theorem commitGo_of_rejected (x : Ctl × Data) (path : Path) {a : Nat} (tag : Nat) (h : (x.1.commit a).cap = none) (hd : x.1.domainDown a = false)
    (hst : commitCheck x.1 x.2 a (x.1.capture path a tag) ≠ .ok) :
    commitGo x path a tag =
      (commitReport (x.1.setCommit a { x.1.commit a with tag := tag }) a tag (commitCheck x.1 x.2 a (x.1.capture path a tag)), x.2) := by
  unfold Ctl.capture at hst
  simp [commitGo, Ctl.capture, h, hd, hst]

/-- GO of a set that passes its check captures it, and its staged words are taken (R52). -/
theorem commitGo_of_accepted (x : Ctl × Data) (path : Path) {a : Nat} (tag : Nat) (h : (x.1.commit a).cap = none) (hd : x.1.domainDown a = false)
    (hst : commitCheck x.1 x.2 a (x.1.capture path a tag) = .ok) (hl : setWords a ≠ []) :
    let k1 := x.1.setCommit a { x.1.commit a with tag := tag }
    let k2 := k1.setCommit a { k1.commit a with cap := some (x.1.capture path a tag) }
    commitGo x path a tag = ({ k2 with shell := { k2.shell with staged := dropStaged x.1.shell.staged (setWords a) } }, x.2) := by
  unfold Ctl.capture at hst
  simp [commitGo, Ctl.capture, h, hd, hst, hl]

/-- A write of DISCARD alone discards, and leaves some TAG. -/
theorem commitWrite_discard (x : Ctl × Data) (path : Path) (a : Nat) :
    ∃ tag, commitWrite x path a 2#64 3#64 = ((commitDiscard x.1 a).setCommit a { (commitDiscard x.1 a).commit a with tag := tag }, x.2) := ⟨_, rfl⟩

theorem exec_commitDiscard {s : State} {path : Path} {a : Nat} (hc : isCommit a = true) (h : WordAccess s path a) (hw : s.k.pathWrites path a) :
    ∃ tag, exec (.commitDiscard path a) s =
      onBoth (fun x => ((commitDiscard x.1 a).setCommit a { (commitDiscard x.1 a).commit a with tag := tag }, x.2)) s := by
  have hm : 3#64 &&& 0xFFFFFF07#64 = 3#64 := rfl
  obtain ⟨tag, ht⟩ := commitWrite_discard (s.k, s.d) path a
  refine ⟨tag, ?_⟩
  show execCommitDiscard path a s = _
  simp only [execCommitDiscard, onBoth_next, hc, if_true, accessWrite_of_isCommit _ _ hc h hw, hm, ht]

/-- DISCARD clears the marks of the set of a register that is not BUSY (R51). -/
theorem commitDiscard_of_idle (k : Ctl) {a : Nat} (h : (k.commit a).cap = none) :
    commitDiscard k a = { k with shell := { k.shell with staged := dropStaged k.shell.staged (setWords a) } } := by
  simp [commitDiscard, h]

/-! ### What an application leaves of the register shells -/

@[simp] theorem timeGo_shell (x : Ctl × Data) (st : TState) : (timeGo x st).1.shell = x.1.shell := by
  unfold timeGo
  split <;> rfl

@[simp] theorem timCommit_shell (x : Ctl × Data) (oldSrc : Nat) (todWritten : Bool) : (timCommit x oldSrc todWritten).1.shell = x.1.shell := by
  unfold timCommit
  extract_lets k0 tim k1
  have hk : k1.shell = x.1.shell := by cases todWritten <;> rfl
  split
  · exact hk
  · exact (timeGo_shell _ _).trans hk

@[simp] theorem wdtStart_shell (k n : Ctl) (d : Data) : (wdtStart k n d).shell = n.shell := by
  unfold wdtStart
  split <;> rfl

theorem chipApply_shell (k n : Ctl) (d : Data) (c : Capture) (win : Nat) : (chipApply k n d c win).1.shell = n.shell := by
  unfold chipApply
  split
  · exact wdtStart_shell k n d
  · exact timCommit_shell _ _ _
  all_goals rfl

/-- An application puts the captured words in force, and changes no other word of the shells. -/
theorem commitApply_shell (k : Ctl) (d : Data) (a : Nat) (c : Capture) : (commitApply k d a c).1.shell = (k.withWords c.words).shell := by
  unfold commitApply
  split
  · exact chipApply_shell k _ d c _
  · split
    · rfl
    · split <;> rfl
  all_goals rfl

/-! ### The application point and the withdrawal -/

/-- How a captured set fares at its application point (R18, R52, R53, R701). -/
def pointStatus (k : Ctl) (d : Data) (a : Nat) (c : Capture) : Status :=
  if k.domainDown a = true then .domainOff else if c.since + 5000000 ≤ k.ticks then .timeout
  else if winOf a = 0 then commitCheck k d a c else .ok

section
variable (x : Ctl × Data) {a : Nat} {c : Capture}

theorem commitPoint_of_failed (hz : (x.1.commit a).cap = some c) (hst : pointStatus x.1 x.2 a c ≠ .ok) :
    commitPoint x a = (commitDrop x.1 a c (pointStatus x.1 x.2 a c), x.2) := by
  unfold pointStatus at hst ⊢
  simp only [commitPoint, hz]
  rw [if_pos hst]

theorem commitPoint_of_reader (hz : (x.1.commit a).cap = some c) (hst : pointStatus x.1 x.2 a c = .ok) (hb : commitBusy x.2 a c = true) : commitPoint x a = x := by
  unfold pointStatus at hst
  simp only [commitPoint, hz, hst, hb, ne_eq, not_true_eq_false, if_false, if_true]

/-- PWR_CFG and PWR_LIM in S1 are kept until its exit (R681). -/
theorem commitPoint_of_s1 (hz : (x.1.commit 0x0200000).cap = some c) (hst : pointStatus x.1 x.2 0x0200000 c = .ok) (hb : commitBusy x.2 0x0200000 c = false)
    (hs : x.1.pwr.state = .s1) :
    commitPoint x 0x0200000 =
      (commitReport { x.1 with pwr := { x.1.pwr with lim := restoreStaged x.1.pwr.lim c.staged } } 0x0200000 c.tag .ok, x.2) := by
  unfold pointStatus at hst
  simp [commitPoint, hz, hst, hb, hs]

theorem commitPoint_of_applied (hz : (x.1.commit a).cap = some c) (hst : pointStatus x.1 x.2 a c = .ok) (hb : commitBusy x.2 a c = false)
    (hs : a ≠ 0x0200000 ∨ x.1.pwr.state ≠ .s1) :
    commitPoint x a = (commitReport (commitApply x.1 x.2 a c).1 a c.tag .ok, (commitApply x.1 x.2 a c).2) := by
  unfold pointStatus at hst
  have hs : ¬ (a = 0x0200000 ∧ x.1.pwr.state = .s1) := fun h => hs.elim (fun h1 => h1 h.1) (fun h2 => h2 h.2)
  simp only [commitPoint, hz, hst, hb, hs, ne_eq, not_true_eq_false, if_false, Bool.false_eq_true]

end

theorem exec_commitApply (s : State) (a : Nat) : exec (.commitApply a) s = onBoth (fun x => commitPoint x a) s := rfl

theorem exec_commitWithdraw {s : State} {a : Nat} {c : Capture} (hz : (s.k.commit a).cap = some c) (ht : c.since + 5000000 ≤ s.k.ticks) :
    exec (.commitWithdraw a) s = onBoth (fun x => (commitDrop x.1 a c .timeout, x.2)) s := by
  show execCommitWithdraw a s = _
  simp [execCommitWithdraw, hz, Nat.not_lt.mpr ht]

/-- Settles O50: each clause is one of the cases of GO, of DISCARD, of the application point or of the withdrawal; what an application adds beside the captured words
(`commitApply_shell`) is outside the register shells. -/
theorem commits : Obligations.Commits := by
  intro s path a tag hc z l g same reported
  refine ⟨fun h hw => ⟨?busy, fun hz => ⟨?domainDown, fun hd st hst => ⟨?rejected, ?captured⟩, ?discarded⟩⟩,
    fun c hz => ⟨fun st hst => ⟨?applied, ?keptInS1, ?reader, ?failed⟩, ?withdrawn⟩⟩
  case busy =>
    intro hz
    refine goesBoth_of_onBoth (exec_commitGo tag hc h hw) ?_
    rw [commitGo_of_busy (s.k, s.d) path tag.toNat hz]
    exact ⟨rfl, rfl⟩
  case domainDown =>
    intro hd
    refine goesBoth_of_onBoth (exec_commitGo tag hc h hw) ?_
    rw [commitGo_of_domainDown (s.k, s.d) path tag.toNat hz hd]
    exact ⟨⟨rfl, rfl⟩, commit_commitReport _ a tag.toNat .domainOff, rfl⟩
  case rejected =>
    intro hne
    subst hst
    refine goesBoth_of_onBoth (exec_commitGo tag hc h hw) ?_
    rw [commitGo_of_rejected (s.k, s.d) path tag.toNat hz hd hne]
    exact ⟨⟨rfl, rfl⟩, commit_commitReport _ a tag.toNat _, rfl⟩
  case captured =>
    intro hok hl
    refine goesBoth_of_onBoth (exec_commitGo tag hc h hw) ?_
    rw [commitGo_of_accepted (s.k, s.d) path tag.toNat hz hd (hst.trans hok) hl]
    exact ⟨⟨rfl, rfl⟩, congrArg Commit.cap (Ctl.commit_setCommit_self _ a _), rfl⟩
  case discarded =>
    obtain ⟨tag', he⟩ := exec_commitDiscard hc h hw
    refine goesBoth_of_onBoth he ?_
    rw [commitDiscard_of_idle s.k hz]
    exact ⟨⟨rfl, rfl⟩, rfl, (congrArg Commit.cap (Ctl.commit_setCommit_self _ a _)).trans hz⟩
  case applied =>
    intro hok hb hs
    refine goesBoth_of_onBoth (exec_commitApply s a) ?_
    rw [commitPoint_of_applied (s.k, s.d) hz (hst.trans hok) hb hs]
    exact ⟨commit_commitReport _ a c.tag .ok, by rw [commitReport_shell_cfg, commitApply_shell]⟩
  case keptInS1 =>
    intro hok hb ha hs
    subst ha
    refine goesBoth_of_onBoth (exec_commitApply s 0x0200000) ?_
    rw [commitPoint_of_s1 (s.k, s.d) hz (hst.trans hok) hb hs]
    exact ⟨⟨rfl, rfl⟩, commit_commitReport _ 0x0200000 c.tag .ok, rfl⟩
  case reader =>
    intro hok hb
    refine goesBoth_of_onBoth (exec_commitApply s a) ?_
    rw [commitPoint_of_reader (s.k, s.d) hz (hst.trans hok) hb]
    exact ⟨rfl, rfl⟩
  case failed =>
    intro hne
    subst hst
    refine goesBoth_of_onBoth (exec_commitApply s a) ?_
    rw [commitPoint_of_failed (s.k, s.d) hz hne]
    exact ⟨⟨rfl, rfl⟩, commit_commitDrop s.k a c _, rfl⟩
  case withdrawn =>
    intro ht
    refine goesBoth_of_onBoth (exec_commitWithdraw hz ht) ?_
    exact ⟨⟨rfl, rfl⟩, commit_commitDrop s.k a c .timeout, rfl⟩

end Sys2Proof.Machine

/-!
PROOFS. O32, the Match Array's rule banks (R186 to R198), leases, parity, scrub and forwarded lookups (R206, R207, R210, R615): values in memory and status bits, the
issue of an operation that starts at once, searches, updates and hashes as engine work, the place of a new rule, and what the Match Array leaves unchanged.
-/
namespace Sys2Proof.Machine

/-! ### Values in memory -/

@[simp] theorem length_bytesLE (n v : Nat) : (bytesLE n v).length = n := by
  induction n generalizing v with
  | zero => rfl
  | succ n ih => simp [bytesLE, ih]

theorem ofBytesLE_bytesLE (n v : Nat) : ofBytesLE (bytesLE n v) = v % 256 ^ n := by
  induction n generalizing v with
  | zero => simp [bytesLE, ofBytesLE, Nat.mod_one]
  | succ n ih => simp [bytesLE, ofBytesLE, ih, Nat.pow_succ', Nat.mod_mul]

/-- Bytes written are read back whole. -/
theorem memBytes_memPutBytes (l : List Byte) (m : List Host.Cell) (a : Nat) : memBytes (memPutBytes m a l) a l.length = l := by
  induction l generalizing m a with
  | nil => rfl
  | cons b r ih =>
    have hb : memByte (memPutBytes m a (b :: r)) a = b := memByte_memPutBytes_inside (b :: r) m a 0 (Nat.succ_pos _)
    rw [List.length_cons, memBytes, hb]
    exact congrArg (b :: ·) (ih (memPut m a b) (a + 1))

/-- A value written is read back. -/
theorem Data.rd_wr (d : Data) {a n v : Nat} (h : v < 256 ^ n) : (d.wr a n v).rd a n = v := by
  have hb := memBytes_memPutBytes (bytesLE n v) d.mem a
  rw [length_bytesLE] at hb
  show ofBytesLE (memBytes (memPutBytes d.mem a (bytesLE n v)) a n) = v
  rw [hb, ofBytesLE_bytesLE, Nat.mod_eq_of_lt h]

theorem Data.sameOutside_wr (d : Data) (a n v : Nat) : SameOutside d (d.wr a n v) a n := by
  have h := d.sameOutside_wrBytes a (bytesLE n v)
  rwa [length_bytesLE] at h

/-! ### Status bits -/

theorem bitAt_setBit_self (x : Word) {i : Nat} (hi : i < 64) : bitAt (setBit x i true) i = true := by
  have hb : (BitVec.ofNat 64 (2 ^ i)).getLsbD i = true := by rw [BitVec.getLsbD_ofNat, decide_eq_true hi, Nat.testBit_two_pow_self, Bool.true_and]
  simp only [bitAt, setBit, setBits, if_true, BitVec.getLsbD_or, Nat.pow_one, Nat.one_mod, Nat.one_mul, hb, Bool.or_true]

theorem Data.stsBit_setSts_self (d : Data) (a : Nat) {i : Nat} (hi : i < 64) : (d.setSts a i).stsBit a i = true := by
  simp only [Data.stsBit, Data.setSts, Tab.getD_put_self, bitAt_setBit_self _ hi]

theorem Data.stsBit_setSts_ne (d : Data) {a b : Nat} (i j : Nat) (h : b ≠ a) : (d.setSts a i).stsBit b j = d.stsBit b j := by
  simp only [Data.stsBit, Data.setSts, Tab.getD_put_ne _ _ _ h]

/-! ### Prompt issues -/

/-- A thread that has gone on behind the issue of an operation. -/
def Thread.withOp (th : Thread) (o : Op) : Thread := ({ th with ops := th.ops ++ [o], nextOp := th.freshOp + 1, wait := none }).next 4

theorem le_foldl_opIds (l : List Op) (n : Nat) :
    n ≤ l.foldl (fun n o => Nat.max n (o.id + 1)) n ∧ ∀ o ∈ l, o.id < l.foldl (fun n o => Nat.max n (o.id + 1)) n := by
  induction l generalizing n with
  | nil => simp
  | cons x xs ih =>
    obtain ⟨hn, hx⟩ := ih (Nat.max n (x.id + 1))
    have hl := Nat.le_max_left n (x.id + 1)
    have hr := Nat.le_max_right n (x.id + 1)
    refine ⟨Nat.le_trans hl hn, fun o ho => ?_⟩
    rcases List.mem_cons.mp ho with rfl | ho
    · exact Nat.lt_of_lt_of_le (Nat.lt_of_succ_le hr) hn
    · exact hx o ho

/-- No outstanding operation of a thread has the number of its next one. -/
theorem Thread.id_lt_freshOp {th : Thread} {o : Op} (h : o ∈ th.ops) : o.id < th.freshOp := (le_foldl_opIds th.ops th.nextOp).2 o h

theorem Thread.find?_withOp {th : Thread} {o : Op} (h : o.id = th.freshOp) : (th.withOp o).ops.find? (fun x => x.id == o.id) = some o := by
  have hn : th.ops.find? (fun x => x.id == o.id) = none := List.find?_eq_none.mpr fun x hx => by
    have := Thread.id_lt_freshOp hx
    simp only [beq_iff_eq]
    omega
  simp [Thread.withOp, Thread.next, List.find?_append, hn]

/-- Engine work on operation `o` of thread `t`, which is `th`: not finished yet, and of no Basket. -/
def Works (d : Data) (t : Nat) (th : Thread) (o : Op) : Prop :=
  d.thr t = some th ∧ th.ops.find? (fun x => x.id == o.id) = some o ∧ o.done = none ∧ o.bsk = none

theorem engRun_of_works (f : Ctl → Data → Nat → Nat → Thread → Op → Data) (k : Ctl) {d : Data} {t : Nat} {th : Thread} {o : Op} (h : Works d t th o) :
    engRun f k d t o.id = f k d t o.id th o := by
  obtain ⟨ht, ho, hd, hb⟩ := h
  simp [engRun, ht, ho, hd, hb]

/-- An engine's work on an operation just issued. -/
theorem works_newOp (k : Ctl) (d : Data) (t : Nat) (th : Thread) (eng opc : Nat) (ts : BitVec 5) (ds : BitVec 4) :
    let o := newOp k th eng opc none ts ds
    Works (d.setThr t (th.withOp o)) t (th.withOp o) o := ⟨Data.thr_setThr_self d t _, Thread.find?_withOp rfl, rfl, rfl⟩

section
variable {k : Ctl} {d : Data} {t : Nat} {p : BitVec 2} {th : Thread} {eng opc : Nat} {ts : BitVec 5} {ds : BitVec 4}

/-- Where nothing keeps an operation that names no Basket from starting, its engine does its work on it as it is issued. -/
theorem issue_noBsk_of_prompt (run : EngRun) (h : Issues d t p th) (hp : Prompt k d th (newOp k th eng opc none ts ds)) (he : eng ≠ 7) :
    let o := newOp k th eng opc none ts ds
    issue eng opc noBsk run t p ts ds k d = run k (d.setThr t (th.withOp o)) t o.id := by
  obtain ⟨hr, hh, hq, hm, -⟩ := hp
  intro o
  have hd : th.dropOldest = th := by simp [Thread.dropOldest, hr]
  have hq : th.ops.any (fun x => x.eng == eng && !x.started && x.done.isNone) = false := by
    refine List.any_eq_false.mpr fun x hx hc => ?_
    simp only [Bool.and_eq_true, beq_iff_eq, Bool.not_eq_true', Option.isNone_iff_eq_none] at hc
    obtain ⟨⟨hx7, hns⟩, hnd⟩ := hc
    rcases hq x hx hx7 with hs | hs
    · simp [hns] at hs
    · simp [hnd] at hs
  have hm : metering k (d.setThr t (th.withOp o)) (th.withOp o) o = .pass := hm
  have hi : issue eng opc noBsk run t p ts ds k d = startOps (fun _ _ => run) k t [o] (d.setThr t (th.withOp o)) [] := by
    rw [issue, fylInstr_issues _ k h (fun h4 => absurd h4 (by decide))]
    have hr' : th.reserved ≠ 32 := by omega
    simp only [hr', hh, he, hd, hq, false_and, Bool.and_false, Bool.false_eq_true, or_self, if_false]
    rfl
  have hs : o.started = false ∧ o.done = none ∧ o.bsk = none := ⟨rfl, rfl, rfl⟩
  rw [hi]
  simp [startOps, hs, hm]

/-- The command of an issue goes with what the engine's work on it leaves. -/
theorem goes_of_prompt {s : State} {c : Instr} {run : EngRun} {P : Data → Prop} (hc : exec c s = onData (issue eng opc noBsk run t p ts ds) s)
    (h : Issues s.d t p th) (hp : Prompt s.k s.d th (newOp s.k th eng opc none ts ds)) (he : eng ≠ 7)
    (hP : let o := newOp s.k th eng opc none ts ds; P (run s.k (s.d.setThr t (th.withOp o)) t o.id)) : Goes c s P :=
  ⟨_, by rw [hc, onData_next, issue_noBsk_of_prompt run h hp he], hP⟩

end

/-! ### Completions -/

/-- A thread one of whose operations has been finished. -/
def Thread.finishOp (th : Thread) (id : Nat) (st : Status) (count detail : Nat) : Thread :=
  { th with ops := th.ops.map (fun o =>
    if o.id = id ∧ o.done.isNone then { o with started := true, done := some (o.cpl th.part st count detail) } else o) }

theorem Data.thr_finish {d : Data} {t : Nat} {th : Thread} (h : d.thr t = some th) (id : Nat) (st : Status) (count detail : Nat) :
    (d.finish t id st count detail).thr t = some (th.finishOp id st count detail) := by
  rw [Data.finish, Data.onThr_some d t _ h]
  exact Data.thr_setThr_self d t _

theorem Thread.mem_finishOp {th : Thread} {o : Op} (ho : o ∈ th.ops) (hd : o.done = none) (st : Status) (count detail : Nat) :
    { o with started := true, done := some (o.cpl th.part st count detail) } ∈ (th.finishOp o.id st count detail).ops :=
  List.mem_map.mpr ⟨o, ho, by simp [hd]⟩

/-- An operation just issued completes with what its engine finishes it with, whatever the engine has done beside it. -/
theorem completed_finish {d : Data} {t : Nat} {th : Thread} {o : Op} (h : d.thr t = some (th.withOp o)) (hd : o.done = none) (st : Status)
    (count detail : Nat) : Completed (d.finish t o.id st count detail) t th o st count detail :=
  ⟨_, Data.thr_finish h o.id st count detail, rfl, Thread.mem_finishOp (List.mem_append_right th.ops List.mem_cons_self) hd st count detail⟩

/-- A finished operation shows in its thread what it was finished with. -/
theorem opDone_finish {d : Data} {t id : Nat} {th : Thread} {o : Op} (h : d.thr t = some th) (ho : o ∈ th.ops) (hid : o.id = id) (hd : o.done = none) (st : Status)
    (count detail : Nat) : OpDone (d.finish t id st count detail) t id st count detail := by
  subst hid
  exact ⟨_, _, _, Data.thr_finish h o.id st count detail, Thread.mem_finishOp ho hd st count detail, rfl, rfl, rfl, rfl, rfl⟩

@[simp] theorem Data.finish_mat (d : Data) (t id : Nat) (st : Status) (count detail : Nat) : (d.finish t id st count detail).mat = d.mat := by
  rw [(Data.finish_else d t id st count detail).1]

@[simp] theorem Data.finish_ttx (d : Data) (t id : Nat) (st : Status) (count detail : Nat) : (d.finish t id st count detail).ttx = d.ttx := by
  rw [(Data.finish_else d t id st count detail).1]

/-! ### Banks -/

@[simp] theorem Data.bankTab_setBank_self (d : Data) (b : Nat) (x : Tab MatEntry) : (d.setBank b x).bankTab b = x := Tab.getD_set_self _ b x _
theorem Data.bankTab_setBank_ne (d : Data) {b c : Nat} (x : Tab MatEntry) (h : c ≠ b) : (d.setBank b x).bankTab c = d.bankTab c := Tab.getD_set_ne _ x _ h

/-- A look-up in any bank after an entry of one bank is dropped. -/
theorem Data.get?_bankTab_erase (d : Data) (b slot c i : Nat) :
    Tab.get? ((d.setBank b (Tab.erase (d.bankTab b) slot)).bankTab c) i = if c = b ∧ i = slot then none else Tab.get? (d.bankTab c) i := by
  by_cases hc : c = b
  · subst hc
    by_cases hi : i = slot
    · simp [hi]
    · simp [hi, Tab.get?_erase_ne _ hi]
  · simp [hc, Data.bankTab_setBank_ne d _ hc]

/-! ### Searches -/

/-- The winner of a bank is one of its hits, of the lowest PRIO (R190). -/
theorem bankWinner_cases (l : Tab MatEntry) : (l = [] ∧ bankWinner l = none) ∨ ∃ y ∈ l, bankWinner l = some y.2 ∧ ∀ z ∈ l, y.2.prio ≤ z.2.prio := by
  induction l with
  | nil => exact .inl ⟨rfl, rfl⟩
  | cons x r ih =>
    refine .inr ?_
    rcases ih with ⟨rfl, -⟩ | ⟨y, hy, he, hm⟩
    · exact ⟨x, List.mem_cons_self, rfl, by simp⟩
    · by_cases h : x.2.prio ≤ y.2.prio
      · exact ⟨x, List.mem_cons_self, by simp [bankWinner, he, h], List.forall_mem_cons.mpr ⟨Nat.le_refl _, fun z hz => Nat.le_trans h (hm z hz)⟩⟩
      · exact ⟨y, List.mem_cons_of_mem _ hy, by simp [bankWinner, he, h], List.forall_mem_cons.mpr ⟨by omega, hm⟩⟩

/-- An entry of lower PRIO than every other hit wins. -/
theorem bankWinner_of_lowest {l : Tab MatEntry} {y : Nat × MatEntry} (hy : y ∈ l) (h : ∀ z ∈ l, z = y ∨ y.2.prio < z.2.prio) : bankWinner l = some y.2 := by
  rcases bankWinner_cases l with ⟨rfl, -⟩ | ⟨w, hw, he, hm⟩
  · cases hy
  · rcases h w hw with rfl | hlt
    · exact he
    · exact absurd (hm y hy) (by omega)

/-- A compare of a bank none of whose rows is bad finds no parity error. -/
theorem compareParity_of_good (k : Ctl) {d : Data} {b : Nat} (h : ∀ r ∈ d.mat.bad, r / 8192 ≠ b) (pfv pfm : BitVec 8) : compareParity k d b pfv pfm = d := by
  unfold compareParity
  rw [List.filter_eq_nil_iff.mpr (fun r hr => by simp [h r hr])]
  rfl

/-- A search of one sound bank counts, and gives the winner of its hits and their number (R190, R215). -/
theorem searchBanks_single (k : Ctl) {d : Data} {b : Nat} (h : ∀ r ∈ d.mat.bad, r / 8192 ≠ b) (key : BitVec 320) (pfv pfm : BitVec 8) :
    ∃ c, searchBanks k d [b] key pfv pfm =
      ({ d with cnt := c }, (bankWinner (bankHits k d b key pfv pfm)).map (fun e => (b, e)), (bankHits k d b key pfv pfm).length) := by
  simp only [searchBanks, List.foldl_cons, List.foldl_nil, compareParity_of_good k h, Nat.zero_add]
  split
  · exact ⟨_, rfl⟩
  · exact ⟨_, rfl⟩

/-! ### Checks -/

@[simp] theorem failIf_false (st : Status) : failIf false st = none := rfl
@[simp] theorem firstOf_none (l : List (Option Status)) : firstOf (none :: l) = firstOf l := rfl
@[simp] theorem firstOf_nil : firstOf [] = none := rfl
theorem Ctl.offCheck_of_up {k : Ctl} {r b : Nat} (h : k.up r b = true) : k.offCheck r b = none := by simp [Ctl.offCheck, h]

/-- Checks that all pass let the engine work. -/
theorem checked_of_pass {l : List (Option Status)} (h : firstOf l = none) (d : Data) (t id : Nat) (f : Data) : checked d t id l f = f := by
  simp [checked, h]

/-! ### Searches, as engine work -/

/-- COUNT and the result word of a search of rule bank `b` with these hits (R190): the winner, with MULTI where there are others, or a zero word. -/
def ruleAnswer (b : Nat) (hits : Tab MatEntry) : Nat × Nat :=
  match bankWinner hits with
  | some e => (1, 1 + (if 1 < hits.length then 2 else 0) + 4 * b + 2 ^ 16 * (e.prio % 65536) + 2 ^ 64 * (e.assoc % 2 ^ 64))
  | none => (0, 0)

/-- COUNT 1 and the word of the winner, with MULTI where it is not alone. -/
theorem ruleAnswer_of_lowest (b : Nat) {hits : Tab MatEntry} {y : Nat × MatEntry} (hy : y ∈ hits) (h : ∀ z ∈ hits, z = y ∨ y.2.prio < z.2.prio) :
    ruleAnswer b hits = (1, 1 + (if 1 < hits.length then 2 else 0) + 4 * b + 2 ^ 16 * (y.2.prio % 65536) + 2 ^ 64 * (y.2.assoc % 2 ^ 64)) := by
  rw [ruleAnswer, bankWinner_of_lowest hy h]

/-- The result word fills 16 bytes. -/
theorem ruleAnswer_lt {b n v : Nat} {hits : Tab MatEntry} (hb : b < 32) (h : ruleAnswer b hits = (n, v)) : v < 256 ^ 16 := by
  unfold ruleAnswer at h
  split at h
  · cases h
    split <;> omega
  · cases h
    decide

section
variable {k : Ctl} {d : Data} {t : Nat} {th : Thread} {o : Op}

/-- A search of one sound rule bank counts, and writes its answer (R189, R190). -/
theorem runMatSearch_of_sound {b n v : Nat} (h : Works d t th o) (hx : descOk o.desc [(0, 0, 368), (48, 0, 48)] = true) (hr : df o.desc 48 0 48 % 16 = 0)
    (hb : (List.range 32).filter (fun b => bitAt o.desc (320 + b)) = [b]) (hrule : k.bankRule b th.part = true)
    (hdpa : k.dpaCheck th.part (df o.desc 48 0 48) 16 false = none) (hup : k.up (b / 8) 17 = true)
    (hw : k.bank b 13 4 ≤ ones8 (BitVec.ofNat 8 (df o.desc 45 0 8))) (hkey : o.desc.setWidth 320 &&& ~~~ unitMask (k.bankWidth b) = 0#320)
    (hlost : d.stsBit 0x17000C0 b = false) (hbad : ∀ r ∈ d.mat.bad, r / 8192 ≠ b)
    (hans : ruleAnswer b (bankHits k d b (o.desc.setWidth 320) (BitVec.ofNat 8 (df o.desc 44 0 8)) (BitVec.ofNat 8 (df o.desc 45 0 8))) = (n, v)) :
    ∃ c, runMatSearch k d t o.id = (Data.wr { d with cnt := c } (df o.desc 48 0 48) 16 v).finish t o.id .ok n 0 := by
  obtain ⟨c, hs⟩ := searchBanks_single k hbad (o.desc.setWidth 320) (BitVec.ofNat 8 (df o.desc 44 0 8)) (BitVec.ofNat 8 (df o.desc 45 0 8))
  have hlost' : Data.stsBit { d with cnt := c } 0x17000C0 b = false := hlost
  refine ⟨c, ?_⟩
  rw [runMatSearch, engRun_of_works _ k h]
  dsimp only
  rw [hb, checked_of_pass, checked_of_pass, hs]
  · dsimp only
    rw [List.any_cons, hlost', List.any_nil, Bool.or_false, if_neg Bool.false_ne_true]
    unfold ruleAnswer at hans
    cases hwin : bankWinner (bankHits k d b (o.desc.setWidth 320) (BitVec.ofNat 8 (df o.desc 44 0 8)) (BitVec.ofNat 8 (df o.desc 45 0 8))) with
    | none =>
      rw [hwin] at hans
      cases hans
      rfl
    | some e =>
      rw [hwin] at hans
      cases hans
      simp only [Option.map_some, Nat.mul_comm]
  · have hw : ¬ ones8 (BitVec.ofNat 8 (df o.desc 45 0 8)) < k.bank b 13 4 := Nat.not_lt.mpr hw
    simp [hw, hkey, hlost]
  · simp [hx, hr, hrule, hdpa, hup]

/-! ### Updates of a rule bank -/

/-- What every update of a rule bank must pass first (R192, R208). -/
def RuleUpdate (k : Ctl) (th : Thread) (x : Desc) : Prop :=
  df x 8 5 1 = 0 ∧ descOk x [(0, 0, 48), (8, 0, 6)] = true ∧ k.bankRule (df x 8 0 5) th.part = true ∧ k.up (df x 8 0 5 / 8) 17 = true

/-- What an update with an image must pass beside it (R192, R208). -/
def ImageSound (k : Ctl) (d : Data) (th : Thread) (x : Desc) : Prop :=
  df x 0 0 48 % 8 = 0 ∧ k.dpaCheck th.part (df x 0 0 48) 96 false = none ∧ d.bad (df x 0 0 48) 96 = false ∧
  imageOk d (df x 0 0 48) (k.bankWidth (df x 8 0 5)) = true

/-- The image of a rule that an update names. -/
def ruleImage (k : Ctl) (d : Data) (x : Desc) : MatEntry := imageAt d (df x 0 0 48) (k.bankWidth (df x 8 0 5))

theorem firstOf_updateChecks_image {x : Desc} (hu : RuleUpdate k th x) (hi : ImageSound k d th x) (l : List (Option Status)) :
    firstOf (updateChecks k d t th x true ++ l) = firstOf l := by
  obtain ⟨hb, hx, hrule, hup⟩ := hu
  obtain ⟨ha, hdpa, hbad, -⟩ := hi
  simp [updateChecks, hb, hx, hrule, ha, hdpa, hbad, Ctl.offCheck_of_up hup]

theorem firstOf_updateChecks_spread {x : Desc} (hu : RuleUpdate k th x) : firstOf (updateChecks k d t th x false) = none := by
  obtain ⟨hb, hx, hrule, hup⟩ := hu
  simp [updateChecks, hx, hrule, Ctl.offCheck_of_up hup]

/-- A rule insert puts its image into its bank, and counts (R193, R215). -/
theorem runMatInsert_rule (h : Works d t th o) (hu : RuleUpdate k th o.desc) (hi : ImageSound k d th o.desc) {r : Tab MatEntry × Nat}
    (hr : ruleInsert (k.bankSlots (df o.desc 8 0 5)) (d.bankTab (df o.desc 8 0 5)) (ruleImage k d o.desc) = some r) :
    ∃ n, runMatInsert k d t o.id = ((d.setBank (df o.desc 8 0 5) r.1).bump (matCnt (df o.desc 8 0 5) 2) n).finish t o.id .ok 0 0 := by
  refine ⟨k.bankWidth (df o.desc 8 0 5) * (r.2 + 1), ?_⟩
  have hb : (df o.desc 8 5 1 == 1) = false := by rw [hu.1]; rfl
  rw [runMatInsert, engRun_of_works _ k h]
  simp only [hb, Bool.false_and, Bool.false_eq_true, if_false, failIf_false]
  rw [checked_of_pass]
  · rw [ruleImage] at hr
    rw [hr]
  · rw [List.append_assoc, List.singleton_append, firstOf_none, firstOf_updateChecks_image hu hi]
    obtain ⟨-, -, -, himg⟩ := hi
    simp [himg]

/-- The lowest entry of a bank that a delete of an image takes out (R196). -/
def deleted (x : Tab MatEntry) (e : MatEntry) : Option (Nat × MatEntry) := x.find? (fun y => y.2.key == e.key && y.2.care == e.care && y.2.prio == e.prio)

section
variable (h : Works d t th o) (hu : RuleUpdate k th o.desc) (hi : ImageSound k d th o.desc)
include h hu hi

theorem runMatDelete_rule :
    runMatDelete k d t o.id = match deleted (d.bankTab (df o.desc 8 0 5)) (ruleImage k d o.desc) with
      | none => d.finish t o.id .ok 0 0
      | some y => ((d.setBank (df o.desc 8 0 5) (Tab.erase (d.bankTab (df o.desc 8 0 5)) y.1)).bump (matCnt (df o.desc 8 0 5) 2) 1).finish t o.id .ok 1 0 := by
  have hb : (df o.desc 8 5 1 == 1) = false := by rw [hu.1]; rfl
  rw [runMatDelete, engRun_of_works _ k h]
  simp only [hb, Bool.false_and, Bool.false_eq_true, if_false, failIf_false]
  rw [checked_of_pass]
  · rfl
  · rw [firstOf_updateChecks_image hu hi]
    obtain ⟨-, -, -, himg⟩ := hi
    simp [himg]

/-- A rule delete that finds an equal entry drops it, and counts (R196, R215). -/
theorem runMatDelete_hit {y : Nat × MatEntry} (hy : deleted (d.bankTab (df o.desc 8 0 5)) (ruleImage k d o.desc) = some y) :
    runMatDelete k d t o.id =
      ((d.setBank (df o.desc 8 0 5) (Tab.erase (d.bankTab (df o.desc 8 0 5)) y.1)).bump (matCnt (df o.desc 8 0 5) 2) 1).finish t o.id .ok 1 0 := by
  rw [runMatDelete_rule h hu hi, hy]

theorem runMatDelete_miss (hn : deleted (d.bankTab (df o.desc 8 0 5)) (ruleImage k d o.desc) = none) :
    runMatDelete k d t o.id = d.finish t o.id .ok 0 0 := by
  rw [runMatDelete_rule h hu hi, hn]

end

/-- A spread completes, with its entries moved (R195). -/
theorem runMatSpread_rule (h : Works d t th o) (hu : RuleUpdate k th o.desc) :
    runMatSpread k d t o.id = (spreadBank k d (df o.desc 8 0 5)).1.finish t o.id .ok (spreadBank k d (df o.desc 8 0 5)).2 0 := by
  rw [runMatSpread, engRun_of_works _ k h]
  exact checked_of_pass (firstOf_updateChecks_spread hu) _ _ _ _

theorem map_snd_zip_eq {l : Tab MatEntry} (g : Nat → Nat) :
    (((List.range l.length).zip l).map (fun e => (g e.1, e.2.2))).map (fun y => y.2) = l.map (fun y => y.2) := by
  have hz : ((List.range l.length).zip l).map Prod.snd = l := List.map_snd_zip (by simp)
  calc (((List.range l.length).zip l).map (fun e => (g e.1, e.2.2))).map (fun y => y.2)
      = (((List.range l.length).zip l).map Prod.snd).map (fun y => y.2) := by rw [List.map_map, List.map_map]; rfl
    _ = l.map (fun y => y.2) := by rw [hz]

/-- A spread keeps a bank's entries in their order, and changes no other bank, no thread and no byte (R195). -/
theorem spreadBank_else (k : Ctl) (d : Data) (b : Nat) :
    let e := (spreadBank k d b).1
    e.fyl = d.fyl ∧ e.mem = d.mem ∧ (e.bankTab b).map (fun y => y.2) = (d.bankTab b).map (fun y => y.2) ∧ ∀ c, c ≠ b → e.bankTab c = d.bankTab c := by
  unfold spreadBank
  split
  · exact ⟨rfl, rfl, rfl, fun _ _ => rfl⟩
  · exact ⟨rfl, rfl, (congrArg _ (Data.bankTab_setBank_self d b _)).trans (map_snd_zip_eq _), fun _ hc => Data.bankTab_setBank_ne d _ hc⟩

/-- The hashes of a chain depend on memory only. -/
theorem chain_congr {d d' : Data} (h : d'.mem = d.mem) (key a tb n h0 : Nat) : chain d' key a tb n h0 = chain d key a tb n h0 := by
  induction n generalizing a h0 with
  | zero => rfl
  | succ n ih => simp only [chain, h, ih]

theorem length_chain (d : Data) (key a tb n h0 : Nat) : (chain d key a tb n h0).length = n := by
  induction n generalizing a h0 with
  | zero => rfl
  | succ n ih => simp [chain, ih]

theorem length_flatMap_bytesLE (n : Nat) (l : List Nat) : (l.flatMap (fun h => bytesLE n h)).length = n * l.length := by
  induction l with
  | nil => rfl
  | cons x r ih => rw [List.flatMap_cons, List.length_append, length_bytesLE, ih, List.length_cons, Nat.mul_succ, Nat.add_comm]

/-- The seed of the chain of a `mat.hash`: its salt, or the hash of what it names with the salt (R197, R198). -/
def hashSeed (x : Desc) (key tt : Nat) : Nat :=
  if df x 20 2 1 = 1 then df x 24 0 64 else sipHash key (bytesLE 2 (df x 36 0 12) ++ bytesLE 2 tt ++ bytesLE 4 (df x 32 0 32) ++ bytesLE 8 (df x 24 0 64))

/-- `mat.hash` writes the chain of its pages of `tt` tokens from its seed on (R197, R198). -/
theorem runMatHash_of_sound {tt pages key : Nat} (h : Works d t th o) (htt : 16 * 2 ^ df o.desc 20 0 2 = tt) (hpages : df o.desc 16 0 19 / tt = pages)
    (hx : descOk o.desc [(0, 0, 48), (8, 0, 48), (16, 0, 19), (20, 0, 3), (24, 0, 64), (32, 0, 32), (36, 0, 12)] = true) (h3 : df o.desc 20 0 2 < 3)
    (hn : df o.desc 16 0 19 ≤ 4096 * tt) (htok : k.dpaCheck th.part (df o.desc 0 0 48) (4 * tt * pages) false = none)
    (hout : k.dpaCheck th.part (df o.desc 8 0 48) (8 * pages) false = none) (hup : k.up (regionOf t) 17 = true)
    (hkey : Tab.get? k.sec.prefixKeys th.part = some key) (hpos : 0 < pages) (hbad : d.bad (df o.desc 0 0 48) (4 * tt * pages) = false) :
    runMatHash k d t o.id = (d.wrBytes (df o.desc 8 0 48)
      ((chain d key (df o.desc 0 0 48) (4 * tt) pages (hashSeed o.desc key tt)).flatMap (fun h => bytesLE 8 h))).finish t o.id .ok pages 0 := by
  have h3 : (df o.desc 20 0 2 == 3) = false := beq_false_of_ne (Nat.ne_of_lt h3)
  have hn : ¬ 4096 * tt < df o.desc 16 0 19 := Nat.not_lt.mpr hn
  have hpos : (pages == 0) = false := beq_false_of_ne (Nat.ne_of_gt hpos)
  have hget : Tab.getD k.sec.prefixKeys th.part 0 = key := by simp [Tab.getD, hkey]
  rw [runMatHash, engRun_of_works _ k h]
  dsimp only
  rw [htt, hpages, hget, checked_of_pass]
  · rfl
  · simp [hx, h3, hn, htok, hout, Ctl.offCheck_of_up hup, Tab.has, hkey, hpos, hbad]

end

/-! ### Where a rule goes -/

/-- The slots of a bank rise, and its PRIOs do not fall. -/
def Ranked (x : Tab MatEntry) : Prop := (x.map (fun y => y.1)).Pairwise (fun i j => i < j) ∧ (x.map (fun y => y.2.prio)).Pairwise (fun i j => i ≤ j)

/-- The entries behind which one of PRIO `p` goes (R193). -/
def ahead (x : Tab MatEntry) (p : Nat) : Tab MatEntry := x.filter (fun y => decide (y.2.prio ≤ p))
/-- The entries before which it goes. -/
def behind (x : Tab MatEntry) (p : Nat) : Tab MatEntry := x.filter (fun y => decide (p < y.2.prio))

/-- The entries of a bank with a new one behind those of equal or lower PRIO, and before the others. -/
def placed (x : Tab MatEntry) (e : MatEntry) : List MatEntry := (ahead x e.prio).map (fun y => y.2) ++ e :: (behind x e.prio).map (fun y => y.2)

theorem mem_ahead {x : Tab MatEntry} {p : Nat} {y : Nat × MatEntry} : y ∈ ahead x p ↔ y ∈ x ∧ y.2.prio ≤ p := by simp [ahead]
theorem mem_behind {x : Tab MatEntry} {p : Nat} {y : Nat × MatEntry} : y ∈ behind x p ↔ y ∈ x ∧ p < y.2.prio := by simp [behind]

/-- A ranked bank is what goes ahead of a new entry, then what goes behind it. -/
theorem Ranked.eq_append {x : Tab MatEntry} (h : Ranked x) (p : Nat) : x = ahead x p ++ behind x p := by
  obtain ⟨-, h⟩ := h
  induction x with
  | nil => rfl
  | cons y r ih =>
    rw [List.map_cons, List.pairwise_cons] at h
    obtain ⟨hy, hr⟩ := h
    by_cases hp : y.2.prio ≤ p
    · have hb : ¬ p < y.2.prio := by omega
      simp only [ahead, behind, List.filter_cons, hp, hb, decide_true, decide_false, if_true, List.cons_append, Bool.false_eq_true, if_false]
      exact congrArg _ (ih hr)
    · have hr : ∀ z ∈ r, p < z.2.prio := fun z hz => Nat.lt_of_lt_of_le (Nat.lt_of_not_le hp) (hy _ (List.mem_map_of_mem hz))
      have ha : ahead (y :: r) p = [] := List.filter_eq_nil_iff.mpr fun z hz => by
        rcases List.mem_cons.mp hz with rfl | hz
        · simpa using hp
        · simpa using hr z hz
      have hb : behind (y :: r) p = y :: r := List.filter_eq_self.mpr fun z hz => by
        rcases List.mem_cons.mp hz with rfl | hz
        · simpa using hp
        · simpa using hr z hz
      rw [ha, hb, List.nil_append]

theorem insertAt_fold_behind {x : Tab MatEntry} {p : Nat} (h : ∀ y ∈ x, p < y.2.prio) (n : Nat) :
    x.foldl (fun n e => if e.2.prio ≤ p then e.1 + 1 else n) n = n := by
  induction x with
  | nil => rfl
  | cons y r ih =>
    obtain ⟨hy, hr⟩ := List.forall_mem_cons.mp h
    rw [List.foldl_cons, if_neg (Nat.not_le.mpr hy), ih hr]

/-- The place of a new entry, as a fold from `n` on: `n`, or just above the last entry ahead of it. -/
theorem insertAt_fold (x : Tab MatEntry) (p n : Nat) (h : Ranked x) (hn : ∀ y ∈ x, n ≤ y.1) :
    let r := x.foldl (fun n e => if e.2.prio ≤ p then e.1 + 1 else n) n
    n ≤ r ∧ (∀ y ∈ x, y.2.prio ≤ p → y.1 < r) ∧ ∀ y ∈ x, p < y.2.prio → r ≤ y.1 := by
  obtain ⟨hs, hp⟩ := h
  induction x generalizing n with
  | nil => simp
  | cons y r ih =>
    rw [List.map_cons, List.pairwise_cons] at hs hp
    obtain ⟨hs1, hs⟩ := hs
    obtain ⟨hp1, hp⟩ := hp
    have hny := hn y List.mem_cons_self
    have hs1 : ∀ z ∈ r, y.1 < z.1 := fun z hz => hs1 _ (List.mem_map_of_mem hz)
    have hp1 : ∀ z ∈ r, y.2.prio ≤ z.2.prio := fun z hz => hp1 _ (List.mem_map_of_mem hz)
    rw [List.foldl_cons]
    by_cases hy : y.2.prio ≤ p
    · rw [if_pos hy]
      obtain ⟨h1, h2, h3⟩ := ih (y.1 + 1) hs1 hs hp
      exact ⟨by omega, List.forall_mem_cons.mpr ⟨fun _ => h1, h2⟩, List.forall_mem_cons.mpr ⟨fun hc => by omega, h3⟩⟩
    · rw [if_neg hy]
      have hr : ∀ z ∈ r, p < z.2.prio := fun z hz => Nat.lt_of_lt_of_le (Nat.lt_of_not_le hy) (hp1 z hz)
      rw [insertAt_fold_behind hr]
      exact ⟨Nat.le_refl n, List.forall_mem_cons.mpr ⟨fun hc => absurd hc hy, fun z hz hc => absurd hc (Nat.not_le.mpr (hr z hz))⟩, fun z hz _ => hn z hz⟩

/-- The place of a new entry is above what goes ahead of it, and not above what goes behind it (R193). -/
theorem insertAt_between {x : Tab MatEntry} (h : Ranked x) (p : Nat) :
    (∀ y ∈ ahead x p, y.1 < insertAt x p) ∧ ∀ y ∈ behind x p, insertAt x p ≤ y.1 := by
  obtain ⟨-, ha, hb⟩ := insertAt_fold x p 0 h (fun _ _ => Nat.zero_le _)
  exact ⟨fun y hy => ha y (mem_ahead.mp hy).1 (mem_ahead.mp hy).2, fun y hy => hb y (mem_behind.mp hy).1 (mem_behind.mp hy).2⟩

/-- An entry set between lower and higher numbers stands between them. -/
theorem Tab.set_between {α : Type} {lo hi : Tab α} {i : Nat} (v : α) (hlo : ∀ y ∈ lo, y.1 < i) (hhi : ∀ y ∈ hi, i < y.1) :
    Tab.set (lo ++ hi : List (Nat × α)) i v = lo ++ (i, v) :: hi := by
  induction lo with
  | nil =>
    cases hi with
    | nil => rfl
    | cons y r => simp [Tab.set, hhi y List.mem_cons_self]
  | cons y r ih =>
    obtain ⟨hy, hr⟩ := List.forall_mem_cons.mp hlo
    have h1 : ¬ i < y.1 := by omega
    have h2 : ¬ i = y.1 := by omega
    simp [Tab.set, h1, h2, ih hr]

/-- Entries moved between slots and one set between them: what was ahead, the new one, what was behind. -/
theorem map_set_moved {x : Tab MatEntry} (h : Ranked x) (e : MatEntry) (i : Nat) (g : Nat × MatEntry → Nat)
    (ha : ∀ y ∈ ahead x e.prio, g y < i) (hb : ∀ y ∈ behind x e.prio, i < g y) :
    (Tab.set (x.map (fun y => (g y, y.2))) i e).map (fun y => y.2) =
      placed x e := by
  have hx : x.map (fun y => (g y, y.2)) = (ahead x e.prio).map (fun y => (g y, y.2)) ++ (behind x e.prio).map (fun y => (g y, y.2)) := by
    rw [← List.map_append, ← h.eq_append]
  rw [hx, Tab.set_between]
  · simp [placed, Function.comp_def]
  · exact List.forall_mem_map.mpr ha
  · exact List.forall_mem_map.mpr hb

/-- A free slot at or above a place. -/
theorem freeUp_some {used : List Nat} {a n f : Nat} (h : freeUp used a n = some f) : a ≤ f ∧ f ∉ used := by
  obtain ⟨i, hi, rfl⟩ := Option.map_eq_some_iff.mp h
  have := List.find?_some hi
  exact ⟨Nat.le_add_right a i, by simpa using this⟩

/-- A free slot below a place. -/
theorem freeDown_some {used : List Nat} {a f : Nat} (h : freeDown used a = some f) : f < a ∧ f ∉ used := by
  obtain ⟨i, hi, rfl⟩ := Option.map_eq_some_iff.mp h
  have hlt := List.mem_range.mp (List.mem_of_find?_eq_some hi)
  have := List.find?_some hi
  exact ⟨by omega, by simpa using this⟩

theorem mem_usedSlots {x : Tab MatEntry} {y : Nat × MatEntry} (h : y ∈ x) : y.1 ∈ usedSlots x := List.mem_map_of_mem h

section
variable {x : Tab MatEntry} {e : MatEntry} {f : Nat}

/-- Moving the entries from the place of a new one up to a free slot makes room for it. -/
theorem map_set_shiftUp (h : Ranked x) (hf : insertAt x e.prio ≤ f) (hu : f ∉ usedSlots x) :
    (Tab.set (shiftUp x (insertAt x e.prio) f) (insertAt x e.prio) e).map (fun y => y.2) =
      placed x e := by
  obtain ⟨ha, hb⟩ := insertAt_between h e.prio
  have hs : shiftUp x (insertAt x e.prio) f = x.map (fun y => (if insertAt x e.prio ≤ y.1 ∧ y.1 < f then y.1 + 1 else y.1, y.2)) :=
    List.map_congr_left fun y _ => by split <;> rfl
  rw [hs]
  refine map_set_moved h e _ _ (fun y hy => ?_) (fun y hy => ?_)
  · have := ha y hy
    rw [if_neg (by omega)]
    exact this
  · have hpos := hb y hy
    have hne : y.1 ≠ f := fun hc => hu (hc ▸ mem_usedSlots (mem_behind.mp hy).1)
    split <;> omega

/-- Moving the entries below the place of a new one down to a free slot makes room for it. -/
theorem map_set_shiftDown (h : Ranked x) (hf : f < insertAt x e.prio) (hu : f ∉ usedSlots x) :
    (Tab.set (shiftDown x (f + 1) (insertAt x e.prio)) (insertAt x e.prio - 1) e).map (fun y => y.2) =
      placed x e := by
  obtain ⟨ha, hb⟩ := insertAt_between h e.prio
  have hs : shiftDown x (f + 1) (insertAt x e.prio) = x.map (fun y => (if f + 1 ≤ y.1 ∧ y.1 < insertAt x e.prio then y.1 - 1 else y.1, y.2)) :=
    List.map_congr_left fun y _ => by split <;> rfl
  rw [hs]
  refine map_set_moved h e _ _ (fun y hy => ?_) (fun y hy => ?_)
  · have hpos := ha y hy
    have hne : y.1 ≠ f := fun hc => hu (hc ▸ mem_usedSlots (mem_ahead.mp hy).1)
    split <;> omega
  · have := hb y hy
    rw [if_neg (by omega)]
    omega

end

/-- A rule insert puts its entry behind those of equal or lower PRIO and before the others, which all stay in their order (R193). -/
theorem map_ruleInsert {x : Tab MatEntry} {e : MatEntry} {n : Nat} {r : Tab MatEntry × Nat} (h : Ranked x) (hr : ruleInsert n x e = some r) :
    r.1.map (fun y => y.2) = placed x e := by
  have up : ∀ u m, freeUp (usedSlots x) (insertAt x e.prio) n = some u →
      some (Tab.set (shiftUp x (insertAt x e.prio) u) (insertAt x e.prio) e, m) = some r → r.1.map (fun y => y.2) = placed x e := fun u m hu he => by
    obtain ⟨hf, hu⟩ := freeUp_some hu
    rw [← Option.some.inj he]
    exact map_set_shiftUp h hf hu
  have down : ∀ w m, freeDown (usedSlots x) (insertAt x e.prio) = some w →
      some (Tab.set (shiftDown x (w + 1) (insertAt x e.prio)) (insertAt x e.prio - 1) e, m) = some r → r.1.map (fun y => y.2) = placed x e := fun w m hw he => by
    obtain ⟨hf, hw⟩ := freeDown_some hw
    rw [← Option.some.inj he]
    exact map_set_shiftDown h hf hw
  unfold ruleInsert at hr
  dsimp only at hr
  split at hr
  next u w hu hw =>
    split at hr
    · exact up u _ hu hr
    · exact down w _ hw hr
  next u hu hw => exact up u _ hu hr
  next w hu hw => exact down w _ hw hr
  next => cases hr

/-! ### What references, watermarks and deletes leave unchanged -/

/-- Only memory, its marks and counters may differ. -/
def OnlyMem (d d' : Data) : Prop := ∃ m p r f c, d' = { d with mem := m, poison := p, rawUe := r, flaws := f, cnt := c }

theorem OnlyMem.refl (d : Data) : OnlyMem d d := ⟨_, _, _, _, _, rfl⟩

theorem OnlyMem.trans {d e f : Data} (h1 : OnlyMem d e) (h2 : OnlyMem e f) : OnlyMem d f := by
  obtain ⟨_, _, _, _, _, rfl⟩ := h1
  obtain ⟨_, _, _, _, _, rfl⟩ := h2
  exact ⟨_, _, _, _, _, rfl⟩

theorem OnlyMem.fields {d d' : Data} (h : OnlyMem d d') : d'.fyl = d.fyl ∧ d'.mat = d.mat ∧ d'.ttx = d.ttx := by
  obtain ⟨_, _, _, _, _, rfl⟩ := h
  exact ⟨rfl, rfl, rfl⟩

theorem onlyMem_wr (d : Data) (a n v : Nat) : OnlyMem d (d.wr a n v) := ⟨_, _, _, _, _, rfl⟩

theorem onlyMem_bump (d : Data) (a n : Nat) : OnlyMem d (d.bump a n) := ⟨_, _, _, _, _, rfl⟩

theorem onlyMem_deref (d : Data) (r a : Nat) : OnlyMem d (deref d r a) := by
  unfold deref
  extract_lets n d1
  split
  · exact (onlyMem_wr d a 2 _).trans ((onlyMem_wr _ a 8 _).trans (onlyMem_bump _ _ 1))
  · exact onlyMem_wr d a 2 _

theorem onlyMem_derefAll (k : Ctl) (m r : Nat) (l : List Nat) (d : Data) : OnlyMem d (derefAll k m r l d).1 := by
  induction l generalizing d with
  | nil => exact OnlyMem.refl d
  | cons f rest ih => exact (onlyMem_deref d r _).trans (ih _)

theorem onlyMem_derefDels (k : Ctl) (m r : Nat) (fs : List Nat) (n : Nat) (d : Data) : OnlyMem d (derefDels k m r fs n d).1 := by
  induction n generalizing d with
  | zero => exact OnlyMem.refl d
  | succ n ih => exact (onlyMem_derefAll k m r fs d).trans (ih _)

/-- GEN + 1 and the references dropped with it (R207) leave the threads, the Match Array and the transport alone. -/
theorem derefDels_fields (k : Ctl) (m r : Nat) (fs : List Nat) (n : Nat) (d : Data) (a : Nat) :
    let e := (derefDels k m r fs n (bumpGen d a)).1
    e.fyl = d.fyl ∧ e.mat = d.mat ∧ e.ttx = d.ttx :=
  ((onlyMem_wr d (a + 10) 2 _).trans (onlyMem_derefDels k m r fs n (bumpGen d a))).fields

/-- A watermark changes its marks, and the mailboxes, outputs, counters and status bits of its doorbell. -/
theorem wmTier_else (k : Ctl) (d : Data) (p tier : Nat) : ∃ l m o n s, wmTier k d p tier = { d with low := l, mbx := m, out := o, cnt := n, sts := s } := by
  unfold wmTier
  dsimp only
  split
  · exact ⟨_, _, _, _, _, rfl⟩
  · split
    · split
      · exact ⟨_, _, _, _, _, rfl⟩
      · exact ⟨_, _, _, _, _, rfl⟩
    · split
      · obtain ⟨m, o, n, s, h, -⟩ := ringDoor_else k { d with low := (2 * p + tier) :: d.low } p (k.fld (0x1840048 + 0x1000 * p) 48 16)
        exact ⟨_, m, o, n, s, h⟩
      · exact ⟨_, _, _, _, _, rfl⟩

theorem wmCheck_fields (k : Ctl) (d : Data) (p : Nat) : (wmCheck k d p).fyl = d.fyl ∧ (wmCheck k d p).mat = d.mat ∧ (wmCheck k d p).ttx = d.ttx := by
  obtain ⟨_, _, _, _, _, h0⟩ := wmTier_else k d p 0
  obtain ⟨_, _, _, _, _, h1⟩ := wmTier_else k (wmTier k d p 0) p 1
  rw [wmCheck, h1, h0]
  exact ⟨rfl, rfl, rfl⟩

theorem freeRecSlot_fields (k : Ctl) (d : Data) (p a : Nat) :
    (freeRecSlot k d p a).fyl = d.fyl ∧ (freeRecSlot k d p a).mat = d.mat ∧ (freeRecSlot k d p a).ttx = d.ttx := by
  unfold freeRecSlot
  dsimp only
  split <;> exact ⟨rfl, rfl, rfl⟩

/-- The references of a record's deletes dropped, and its deletes and their evictions settled: what the completions of its end start from (R207). -/
def recordDropped (k : Ctl) (d : Data) (a : Nat) : Data :=
  let r := derefDels k (recModel d a) (a / 64 % 4) (recFrames d a) (d.mat.dels.filter (fun x => x.record == a)).length (bumpGen d a)
  { r.1 with mat := { r.1.mat with
    dels := r.1.mat.dels.filter (fun x => x.record != a)
    evicts := r.1.mat.evicts.map (fun e =>
      if e.left.contains a then { e with left := e.left.filter (fun x => x != a), zeroed := e.zeroed + r.2 } else e) } }

@[simp] theorem recordDropped_fyl (k : Ctl) (d : Data) (a : Nat) : (recordDropped k d a).fyl = d.fyl := (derefDels_fields k _ _ _ _ d a).1
@[simp] theorem recordDropped_ttx (k : Ctl) (d : Data) (a : Nat) : (recordDropped k d a).ttx = d.ttx := (derefDels_fields k _ _ _ _ d a).2.2

theorem recordDropped_mat {k : Ctl} {d : Data} {a : Nat} {o : Option (Nat × Nat)} (hdels : d.mat.dels = [⟨a, o⟩]) (hev : d.mat.evicts = []) :
    (recordDropped k d a).mat = { d.mat with dels := [] } := by
  unfold recordDropped
  dsimp only
  rw [(derefDels_fields k _ _ _ _ d a).2.1]
  simp [hdels, hev]

/-- A delete that an operation waits for completes it with the frames dereferenced (R207). -/
def completeDel (frames : Nat) (d : Data) (x : MatDel) : Data :=
  match x.owner with
  | some o => d.finish o.1 o.2 .ok frames 0
  | none => d

@[simp] theorem completeDel_ttx (frames : Nat) (d : Data) (x : MatDel) : (completeDel frames d x).ttx = d.ttx := by
  unfold completeDel
  split
  · exact Data.finish_ttx d _ _ _ _ _
  · rfl

/-- The end of a record leaves the threads, the Match Array and the transport as the completions of its deletes leave them. -/
theorem endRecord_fields (k : Ctl) (d : Data) (a : Nat) :
    let e := (d.mat.dels.filter (fun x => x.record == a)).foldl (completeDel (recFrames d a).length) (recordDropped k d a)
    (endRecord k d a).fyl = e.fyl ∧ (endRecord k d a).mat = e.mat ∧ (endRecord k d a).ttx = e.ttx := by
  intro e
  have hslot : ∀ c : Bool, let f := if c = true then e else freeRecSlot k e (recPart d a) a; f.fyl = e.fyl ∧ f.mat = e.mat ∧ f.ttx = e.ttx := fun c => by
    cases c
    · exact freeRecSlot_fields k e (recPart d a) a
    · exact ⟨rfl, rfl, rfl⟩
  obtain ⟨h1, h2, h3⟩ := hslot ((prefixEntries k e (recPart d a)).any (fun y => y.2.2.assoc == a))
  obtain ⟨w1, w2, w3⟩ := wmCheck_fields k
    (if (prefixEntries k e (recPart d a)).any (fun y => y.2.2.assoc == a) then e else freeRecSlot k e (recPart d a) a) (recPart d a)
  exact ⟨w1.trans h1, w2.trans h2, w3.trans h3⟩

/-- The one delete of a record whose lease is over completes with the frames that it dereferenced (R207). -/
theorem settleMat_single {k : Ctl} {d : Data} {t a id : Nat} (hdels : d.mat.dels = [⟨a, some (t, id)⟩]) (hev : d.mat.evicts = [])
    (hl : leaseOver k d a = true) :
    (settleMat k d).mat = { d.mat with dels := [] } ∧
    ∃ e : Data, e.fyl = d.fyl ∧ (settleMat k d).fyl = (e.finish t id .ok (recFrames d a).length 0).fyl := by
  have hm : d.mat.dels.filter (fun x => x.record == a) = [⟨a, some (t, id)⟩] := by simp [hdels]
  obtain ⟨h1, h2, -⟩ := endRecord_fields k d a
  rw [hm] at h1 h2
  have hscan : leaseScan k d = endRecord k d a := by
    simp [leaseScan, hdels, hl]
  have hmat : (endRecord k d a).mat = { d.mat with dels := [] } := h2.trans ((Data.finish_mat _ t id _ _ _).trans (recordDropped_mat hdels hev))
  have hs : settleMat k d = endRecord k d a := by
    have he : (endRecord k d a).mat.evicts = [] := by rw [hmat]; exact hev
    simp [settleMat, hscan, settleEvicts, he]
  rw [hs]
  exact ⟨hmat, recordDropped k d a, recordDropped_fyl k d a, h1⟩

/-! ### The Match Array leaves the transport alone -/

/-- A fold keeps what every one of its steps keeps. -/
theorem foldl_keeps {α β γ : Type} (π : α → γ) {f : α → β → α} (h : ∀ x y, π (f x y) = π x) (l : List β) (x : α) : π (l.foldl f x) = π x := by
  induction l generalizing x with
  | nil => rfl
  | cons y r ih => exact (ih (f x y)).trans (h x y)

@[simp] theorem endRecord_ttx (k : Ctl) (d : Data) (a : Nat) : (endRecord k d a).ttx = d.ttx := by
  obtain ⟨-, -, h⟩ := endRecord_fields k d a
  exact h.trans ((foldl_keeps Data.ttx (completeDel_ttx _) _ _).trans (recordDropped_ttx k d a))

@[simp] theorem leaseScan_ttx (k : Ctl) (d : Data) : (leaseScan k d).ttx = d.ttx :=
  foldl_keeps Data.ttx (fun e _ => by split <;> simp) _ _

@[simp] theorem evictRun_ttx (k : Ctl) (d : Data) (e : EvictOp) : (evictRun k d e).ttx = d.ttx := by
  unfold evictRun
  split <;> rfl

@[simp] theorem settleEvicts_ttx (k : Ctl) (n : Nat) (d : Data) : (settleEvicts k n d).ttx = d.ttx := by
  induction n generalizing d with
  | zero => rfl
  | succ n ih =>
    unfold settleEvicts
    split
    · simp [ih]
    · split
      · simp [ih]
      · rfl

@[simp] theorem settleMat_ttx (k : Ctl) (d : Data) : (settleMat k d).ttx = d.ttx := by simp [settleMat]

@[simp] theorem parityErr_ttx (k : Ctl) (d : Data) (b row : Nat) : (parityErr k d b row).ttx = d.ttx := by
  unfold parityErr
  extract_lets slot _ d1 d2
  have h1 : d1.ttx = d.ttx := by simp only [d1, Data.rasUe, Data.bump_ttx, Data.setSts_ttx]
  have h2 : d2.ttx = d.ttx := by
    unfold d2
    split
    · split
      · exact (settleMat_ttx k _).trans h1
      · exact h1
    · exact h1
  split
  · exact h2
  · exact h2

@[simp] theorem compareParity_ttx (k : Ctl) (d : Data) (b : Nat) (pfv pfm : BitVec 8) : (compareParity k d b pfv pfm).ttx = d.ttx :=
  foldl_keeps Data.ttx (fun e _ => parityErr_ttx k e b _) _ _

@[simp] theorem runHits_ttx (k : Ctl) (m p : Nat) (hs : List Nat) (d : Data) : (runHits k m p hs d).1.ttx = d.ttx := by
  induction hs generalizing d with
  | nil => rfl
  | cons h r ih =>
    unfold runHits
    split
    · rfl
    · dsimp only
      split
      · simp
      · simp [ih, hitRecord]

/-! ### Parity of a rule bank -/

@[simp] theorem Data.stsBit_bump (d : Data) (a n b i : Nat) : (d.bump a n).stsBit b i = d.stsBit b i := rfl

/-- A row of a rule bank that fails its parity check is noted in the status words, and its entry is cleared; nothing else of the banks changes, and no byte (R210). -/
theorem parityErr_rule {k : Ctl} {d : Data} {b row : Nat} (hb : b < 32) (h : k.bank b 0 2 = 2) :
    let d' := parityErr k d b row
    d'.stsBit 0x1700080 0 = true ∧ d'.stsBit 0x17000C0 b = true ∧ Tab.get? (d'.bankTab b) (row / k.bankWidth b) = none ∧
    (∀ i, i ≠ row / k.bankWidth b → Tab.get? (d'.bankTab b) i = Tab.get? (d.bankTab b) i) ∧ d'.mem = d.mem := by
  have hp : k.bankPrefix b = false := by simp [Ctl.bankPrefix, h]
  unfold parityErr
  extract_lets slot m d1 d2 d'
  have h1 : d1.stsBit 0x1700080 0 = true := by
    simp only [d1, Data.rasUe, Data.stsBit_bump]
    rw [Data.stsBit_setSts_ne _ _ _ (by decide), Data.stsBit_bump, Data.stsBit_setSts_self _ _ (by decide)]
  have hm : d1.mem = d.mem := by simp only [d1, Data.rasUe, Data.bump_mem, Data.setSts_mem]
  have hbank : d1.bankTab b = d.bankTab b := by simp only [d1, m, Data.bankTab, Data.rasUe, Data.bump_mat, Data.setSts_mat]
  clear_value d1
  have h2 : d2.stsBit 0x1700080 0 = true ∧ Tab.get? (d2.bankTab b) slot = none ∧ (∀ i, i ≠ slot → Tab.get? (d2.bankTab b) i = Tab.get? (d.bankTab b) i) ∧
      d2.mem = d.mem := by
    unfold d2
    split
    next e he =>
      rw [hp, if_neg Bool.false_ne_true]
      refine ⟨h1, ?_, fun i hi => ?_, hm⟩
      · rw [Data.get?_bankTab_erase, if_pos ⟨rfl, rfl⟩]
      · rw [Data.get?_bankTab_erase, if_neg (fun hc => hi hc.2), hbank]
    next he => exact ⟨h1, he, fun i _ => by rw [hbank], hm⟩
  obtain ⟨hs, hg, ho, hm⟩ := h2
  have hd : d' = d2.setSts 0x17000C0 b := if_pos h
  rw [hd]
  exact ⟨(Data.stsBit_setSts_ne _ _ _ (by decide)).trans hs, Data.stsBit_setSts_self _ _ (by omega), hg, ho, hm⟩

/-! ### Messages of engines -/

/-- A message that an engine sees is the oldest of its QP, and for that engine. -/
theorem peekMsg_some {d : Data} {q c : Nat} {f : InMsg → Bool} {m : InMsg} (h : d.peekMsg q c f = some m) :
    d.ttx.inbox.find? (fun m => m.qp == q) = some m ∧ m.consumer = c := by
  unfold Data.peekMsg at h
  split at h
  next x hx =>
    split at h
    next hc =>
      cases h
      exact ⟨hx, by simpa using (Bool.and_eq_true_iff.mp hc).1⟩
    next => cases h
  next => cases h

/-- Taking a message that is no Merge contribution changes the inbox and the class of answers only. -/
theorem takeMsg_of_peekMsg {k : Ctl} {d : Data} {q c : Nat} {f : InMsg → Bool} {m : InMsg} (h : d.peekMsg q c f = some m) (hc : c ≠ 3) :
    (takeMsg k d q).mem = d.mem ∧ ((takeMsg k d q).qp q).state = (d.qp q).state := by
  obtain ⟨hf, hm⟩ := peekMsg_some h
  have hm3 : m.consumer ≠ 3 := hm ▸ hc
  unfold takeMsg
  rw [hf]
  dsimp only
  rw [if_neg hm3]
  refine ⟨rfl, ?_⟩
  rw [Data.onQp, Data.qp_setQp_self]
  rfl

/-- A message queued for the peer's engine waits to be sent. -/
theorem sentEngine_sendEngine (d : Data) (q c cls : Nat) (bytes : List Byte) (owner : TxOwner) : SentEngine (d.sendEngine q c cls bytes owner) q c bytes := by
  unfold SentEngine
  rw [Data.sendEngine, Data.enqueue, Data.onQp, Data.qp_setQp_self]
  exact ⟨_, List.mem_append_right _ List.mem_cons_self, rfl, rfl⟩

theorem Goes.imp {c : Instr} {s : State} {P Q : Data → Prop} (h : Goes c s P) (hi : ∀ d', P d' → Q d') : Goes c s Q := by
  obtain ⟨d', he, hp⟩ := h
  exact ⟨d', he, hi d' hp⟩

/-! ### The five operations -/

section
variable {s : State} {t : Nat} {p : BitVec 2} {th : Thread} {eng opc : Nat} {ts : BitVec 5} {ds : BitVec 4}

/-- An issue whose engine finishes its operation at once completes it; memory and the Match Array are what the engine left. -/
theorem goes_finish {c : Instr} {run : EngRun} {e : Data} {st : Status} {count detail : Nat} (hc : exec c s = onData (issue eng opc noBsk run t p ts ds) s)
    (h : Issues s.d t p th) (hp : Prompt s.k s.d th (newOp s.k th eng opc none ts ds)) (he : eng ≠ 7)
    (hrun : run s.k (s.d.setThr t (th.withOp (newOp s.k th eng opc none ts ds))) t (newOp s.k th eng opc none ts ds).id =
      e.finish t (newOp s.k th eng opc none ts ds).id st count detail)
    (hf : e.fyl = (s.d.setThr t (th.withOp (newOp s.k th eng opc none ts ds))).fyl) :
    Goes c s (fun d' => Completed d' t th (newOp s.k th eng opc none ts ds) st count detail ∧ d'.mem = e.mem ∧ d'.mat = e.mat) := by
  have ht : e.thr t = some (th.withOp (newOp s.k th eng opc none ts ds)) := by
    rw [Data.thr, hf]
    exact Data.thr_setThr_self s.d t _
  refine goes_of_prompt hc h hp he ?_
  intro o
  rw [hrun]
  exact ⟨completed_finish ht rfl st count detail, Data.finish_mem e t _ st count detail, Data.finish_mat e t _ st count detail⟩

/-- A search of one sound rule bank goes, and leaves its answer at the result address and nothing else (R189, R190). -/
theorem goes_matSearch {b n v : Nat} (h : Issues s.d t p th) (hp : Prompt s.k s.d th (newOp s.k th 5 0 none ts ds)) :
    let x := th.dReg ds.toNat
    descOk x [(0, 0, 368), (48, 0, 48)] = true → df x 48 0 48 % 16 = 0 → (List.range 32).filter (fun b => bitAt x (320 + b)) = [b] →
    s.k.bankRule b th.part = true → s.k.dpaCheck th.part (df x 48 0 48) 16 false = none → s.k.up (b / 8) 17 = true →
    s.k.bank b 13 4 ≤ ones8 (BitVec.ofNat 8 (df x 45 0 8)) → x.setWidth 320 &&& ~~~ unitMask (s.k.bankWidth b) = 0#320 →
    s.d.stsBit 0x17000C0 b = false → (∀ r ∈ s.d.mat.bad, r / 8192 ≠ b) →
    ruleAnswer b (bankHits s.k s.d b (x.setWidth 320) (BitVec.ofNat 8 (df x 44 0 8)) (BitVec.ofNat 8 (df x 45 0 8))) = (n, v) →
    Goes (.matSearch t p ts ds) s (fun d' => Completed d' t th (newOp s.k th 5 0 none ts ds) .ok n 0 ∧ SameOutside s.d d' (df x 48 0 48) 16 ∧
      d'.rd (df x 48 0 48) 16 = v ∧ d'.mat = s.d.mat) := by
  intro x hx hr hb hrule hdpa hup hw hkey hlost hbad hans
  have hb32 : b < 32 := List.mem_range.mp (List.mem_filter.mp (hb ▸ List.mem_singleton_self b)).1
  obtain ⟨c, hrun⟩ := runMatSearch_of_sound (works_newOp s.k s.d t th 5 0 ts ds) hx hr hb hrule hdpa hup hw hkey hlost hbad hans
  refine (goes_finish rfl h hp (by decide) hrun rfl).imp fun d' ⟨hc, hmem, hmat⟩ => ⟨hc, ?_, ?_, hmat⟩
  · unfold SameOutside
    rw [hmem]
    exact Data.sameOutside_wr { s.d with cnt := c } _ 16 v
  · rw [Data.rd, hmem]
    exact Data.rd_wr { s.d with cnt := c } (ruleAnswer_lt hb32 hans)

/-- A rule insert goes, and leaves its image behind the entries of equal or lower PRIO (R193). -/
theorem goes_matInsert (h : Issues s.d t p th) (hp : Prompt s.k s.d th (newOp s.k th 5 1 none ts ds)) (hu : RuleUpdate s.k th (th.dReg ds.toNat))
    (hi : ImageSound s.k s.d th (th.dReg ds.toNat)) {r : Tab MatEntry × Nat} (hrank : Ranked (s.d.bankTab (df (th.dReg ds.toNat) 8 0 5)))
    (hr : ruleInsert (s.k.bankSlots (df (th.dReg ds.toNat) 8 0 5)) (s.d.bankTab (df (th.dReg ds.toNat) 8 0 5)) (ruleImage s.k s.d (th.dReg ds.toNat)) = some r) :
    let b := df (th.dReg ds.toNat) 8 0 5
    Goes (.matInsert t p ts ds) s (fun d' => Completed d' t th (newOp s.k th 5 1 none ts ds) .ok 0 0 ∧ d'.mem = s.d.mem ∧
      (d'.bankTab b).map (fun y => y.2) = placed (s.d.bankTab b) (ruleImage s.k s.d (th.dReg ds.toNat)) ∧ ∀ c, c ≠ b → d'.bankTab c = s.d.bankTab c) := by
  obtain ⟨n, hrun⟩ := runMatInsert_rule (works_newOp s.k s.d t th 5 1 ts ds) hu hi hr
  refine (goes_finish rfl h hp (by decide) hrun rfl).imp fun d' ⟨hc, hmem, hmat⟩ => ⟨hc, hmem, ?_, fun c hne => ?_⟩
  · rw [Data.bankTab, hmat]
    exact (congrArg _ (Data.bankTab_setBank_self s.d _ r.1)).trans (map_ruleInsert hrank hr)
  · rw [Data.bankTab, hmat]
    exact Data.bankTab_setBank_ne s.d r.1 hne

/-- A rule delete that finds an equal entry drops the lowest and counts 1 (R196). -/
theorem goes_matDelete_hit (h : Issues s.d t p th) (hp : Prompt s.k s.d th (newOp s.k th 5 2 none ts ds)) (hu : RuleUpdate s.k th (th.dReg ds.toNat))
    (hi : ImageSound s.k s.d th (th.dReg ds.toNat)) {y : Nat × MatEntry} :
    let b := df (th.dReg ds.toNat) 8 0 5
    let e := ruleImage s.k s.d (th.dReg ds.toNat)
    (s.d.bankTab b).find? (fun y => y.2.key == e.key && y.2.care == e.care && y.2.prio == e.prio) = some y →
    Goes (.matDelete t p ts ds) s (fun d' => Completed d' t th (newOp s.k th 5 2 none ts ds) .ok 1 0 ∧ d'.mem = s.d.mem ∧
      ∀ c i, Tab.get? (d'.bankTab c) i = if c = b ∧ i = y.1 then none else Tab.get? (s.d.bankTab c) i) := by
  intro b e hy
  have hrun := runMatDelete_hit (works_newOp s.k s.d t th 5 2 ts ds) hu hi hy
  refine (goes_finish rfl h hp (by decide) hrun rfl).imp fun d' ⟨hc, hmem, hmat⟩ => ⟨hc, hmem, fun c i => ?_⟩
  rw [Data.bankTab, hmat]
  exact Data.get?_bankTab_erase s.d b y.1 c i

/-- A rule delete that finds no equal entry changes nothing and counts 0 (R196). -/
theorem goes_matDelete_miss (h : Issues s.d t p th) (hp : Prompt s.k s.d th (newOp s.k th 5 2 none ts ds)) (hu : RuleUpdate s.k th (th.dReg ds.toNat))
    (hi : ImageSound s.k s.d th (th.dReg ds.toNat)) :
    let e := ruleImage s.k s.d (th.dReg ds.toNat)
    (∀ y ∈ s.d.bankTab (df (th.dReg ds.toNat) 8 0 5), ¬ (y.2.key = e.key ∧ y.2.care = e.care ∧ y.2.prio = e.prio)) →
    Goes (.matDelete t p ts ds) s (fun d' => Completed d' t th (newOp s.k th 5 2 none ts ds) .ok 0 0 ∧ d'.mem = s.d.mem ∧ d'.mat = s.d.mat) := by
  intro e hn
  have hn : deleted (s.d.bankTab (df (th.dReg ds.toNat) 8 0 5)) e = none := List.find?_eq_none.mpr fun y hy hc => hn y hy (by simpa [and_assoc] using hc)
  have hrun := runMatDelete_miss (works_newOp s.k s.d t th 5 2 ts ds) hu hi hn
  exact (goes_finish rfl h hp (by decide) hrun rfl).imp fun _ hd => hd

/-- A spread goes, and keeps the order of its bank's entries (R195). -/
theorem goes_matSpread (h : Issues s.d t p th) (hp : Prompt s.k s.d th (newOp s.k th 5 3 none ts ds)) (hu : RuleUpdate s.k th (th.dReg ds.toNat)) :
    let b := df (th.dReg ds.toNat) 8 0 5
    Goes (.matSpread t p ts ds) s (fun d' => (∃ n, Completed d' t th (newOp s.k th 5 3 none ts ds) .ok n 0) ∧ d'.mem = s.d.mem ∧
      (d'.bankTab b).map (fun y => y.2) = (s.d.bankTab b).map (fun y => y.2) ∧ ∀ c, c ≠ b → d'.bankTab c = s.d.bankTab c) := by
  intro b
  have hrun := runMatSpread_rule (works_newOp s.k s.d t th 5 3 ts ds) hu
  obtain ⟨hf, hsm, hsb, hso⟩ := spreadBank_else s.k (s.d.setThr t (th.withOp (newOp s.k th 5 3 none ts ds))) b
  refine (goes_finish rfl h hp (by decide) hrun hf).imp fun d' ⟨hc, hmem, hmat⟩ => ⟨⟨_, hc⟩, hmem.trans hsm, ?_, fun c hne => ?_⟩
  · rw [Data.bankTab, hmat]
    exact hsb
  · rw [Data.bankTab, hmat]
    exact hso c hne

/-- `mat.hash` goes, and writes its chain at the output address and nothing else (R197, R198). -/
theorem goes_matHash {tt pages key : Nat} (h : Issues s.d t p th) (hp : Prompt s.k s.d th (newOp s.k th 5 4 none ts ds)) :
    let x := th.dReg ds.toNat
    16 * 2 ^ df x 20 0 2 = tt → df x 16 0 19 / tt = pages →
    descOk x [(0, 0, 48), (8, 0, 48), (16, 0, 19), (20, 0, 3), (24, 0, 64), (32, 0, 32), (36, 0, 12)] = true → df x 20 0 2 < 3 → df x 16 0 19 ≤ 4096 * tt →
    s.k.dpaCheck th.part (df x 0 0 48) (4 * tt * pages) false = none → s.k.dpaCheck th.part (df x 8 0 48) (8 * pages) false = none →
    s.k.up (regionOf t) 17 = true → Tab.get? s.k.sec.prefixKeys th.part = some key → 0 < pages → s.d.bad (df x 0 0 48) (4 * tt * pages) = false →
    Goes (.matHash t p ts ds) s (fun d' => Completed d' t th (newOp s.k th 5 4 none ts ds) .ok pages 0 ∧ SameOutside s.d d' (df x 8 0 48) (8 * pages) ∧
      memBytes d'.mem (df x 8 0 48) (8 * pages) = (chain s.d key (df x 0 0 48) (4 * tt) pages (hashSeed x key tt)).flatMap (fun h => bytesLE 8 h)) := by
  intro x htt hpages hx h3 hn htok hout hup hkey hpos hbad
  have hrun := runMatHash_of_sound (works_newOp s.k s.d t th 5 4 ts ds) htt hpages hx h3 hn htok hout hup hkey hpos hbad
  rw [chain_congr (d := s.d) (d' := s.d.setThr t _) rfl] at hrun
  have hlen : ((chain s.d key (df x 0 0 48) (4 * tt) pages (hashSeed x key tt)).flatMap (fun h => bytesLE 8 h)).length = 8 * pages := by
    rw [length_flatMap_bytesLE, length_chain]
  refine (goes_finish rfl h hp (by decide) hrun rfl).imp fun d' ⟨hc, hmem, _⟩ => ⟨hc, ?_, ?_⟩
  · unfold SameOutside
    rw [hmem, ← hlen]
    exact Data.sameOutside_wrBytes s.d _ _
  · rw [hmem, ← hlen]
    exact memBytes_memPutBytes _ s.d.mem _

end

/-! ### Leases, parity, scrub and forwarded lookups -/

/-- The end of the lease of the one deleted record completes its delete, with the entries of the banks as they were (R207). -/
theorem goes_prefixLeaseEnd {s : State} {t a id : Nat} {th : Thread} {op : Op} (hdels : s.d.mat.dels = [⟨a, some (t, id)⟩]) (hev : s.d.mat.evicts = [])
    (hl : leaseOver s.k s.d a = true) (ht : s.d.thr t = some th) (ho : op ∈ th.ops) (hid : op.id = id) (hd : op.done = none) :
    Goes (.prefixLeaseEnd a) s (fun d' => d'.mat.dels = [] ∧ d'.mat.banks = s.d.mat.banks ∧ OpDone d' t id .ok (recFrames s.d a).length 0) := by
  obtain ⟨hmat, e, he, hf⟩ := settleMat_single hdels hev hl
  have hc : (s.d.mat.dels.any (fun x => x.record == a) && leaseOver s.k s.d a) = true := by simp [hdels, hl]
  have hexec : exec (.prefixLeaseEnd a) s = .next { s with d := settleMat s.k s.d } := by
    show execPrefixLeaseEnd a s = _
    rw [execPrefixLeaseEnd, onData_next]
    simp only [hc, if_true]
  refine ⟨_, hexec, by rw [hmat], by rw [hmat], ?_⟩
  have hthr : e.thr t = some th := by rw [Data.thr, he]; exact ht
  have hdone := opDone_finish hthr ho hid hd .ok (recFrames s.d a).length 0
  unfold OpDone Data.thr at hdone ⊢
  rw [hf]
  exact hdone

/-- A row of a rule bank that fails its parity check is treated as `parityErr` says. -/
theorem exec_matParityError {s : State} {b row : Nat} (hb : b < 32) (hr : row < 8192) (h2 : s.k.bank b 0 2 = 2) :
    exec (.matParityError b row) s = .next { s with d := parityErr s.k s.d b row } := by
  show execMatParityError b row s = _
  have h0 : s.k.bank b 0 2 ≠ 0 := by omega
  rw [execMatParityError, onData_next, if_pos ⟨hb, hr, h0⟩]

/-- A scrub of a sound row goes on to the next (R615). -/
theorem goes_matScrubRow {s : State} {b : Nat} (hb : b < 32) (h0 : s.k.bank b 0 2 ≠ 0) (hg : 8192 * b + Tab.getD s.d.mat.scrub b 0 ∉ s.d.mat.bad) :
    Goes (.matScrubRow b) s (fun d' =>
      Tab.getD d'.mat.scrub b 0 = (Tab.getD s.d.mat.scrub b 0 + 1) % 8192 ∧ d'.mat.banks = s.d.mat.banks ∧ d'.mem = s.d.mem) := by
  have hexec : ∃ c, exec (.matScrubRow b) s = .next { s with d := { s.d with
      mat := { s.d.mat with scrub := Tab.put 0 s.d.mat.scrub b ((Tab.getD s.d.mat.scrub b 0 + 1) % 8192) }
      cnt := c } } := by
    have hn : ¬ (32 ≤ b ∨ s.k.bank b 0 2 = 0) := by omega
    have hg : s.d.mat.bad.contains (8192 * b + Tab.getD s.d.mat.scrub b 0) = false := by simpa using hg
    show ∃ c, execMatScrubRow b s = _
    rw [execMatScrubRow, onData_next, if_neg hn]
    simp only [hg, Bool.false_eq_true, if_false]
    exact ⟨_, rfl⟩
  obtain ⟨c, hexec⟩ := hexec
  exact ⟨_, hexec, Tab.getD_put_self 0 _ b _, rfl, rfl⟩

/-- A forwarded lookup at a node of another role than C answers PERM (R206). -/
theorem goes_forwardedLookup_perm {s : State} {q : Nat} {i : InMsg} (hi : s.d.peekMsg q 4 (fun m => mfld m.bytes 0 2 == 1) = some i)
    (hq : (s.d.qp q).state = .ready) (hc : s.k.cacheRole = false) :
    Goes (.forwardedLookup q) s (fun d' => SentEngine d' q 4 (lookupAns .perm []) ∧ d'.mem = s.d.mem) := by
  obtain ⟨hmem, hst⟩ := takeMsg_of_peekMsg (k := s.k) hi (by decide)
  refine ⟨(takeMsg s.k s.d q).sendEngine q 4 i.cls (lookupAns .perm []) .nobody, ?_, sentEngine_sendEngine _ q 4 _ _ _, hmem⟩
  show execForwardedLookup q s = _
  rw [execForwardedLookup, onData_next]
  simp [hi, hc, hst, hq]

/-- A forwarded lookup at a cache node with its home banks in service answers the run of hits (R205, R206). -/
theorem goes_forwardedLookup_cache {s : State} {q : Nat} {i : InMsg} (hi : s.d.peekMsg q 4 (fun m => mfld m.bytes 0 2 == 1) = some i)
    (hq : (s.d.qp q).state = .ready) (hc : s.k.cacheRole = true) (hup : (msgWords i.bytes (mfld i.bytes 4 4)).all s.k.homeUp = true) :
    let r := runHits s.k (mfld i.bytes 2 2) (s.d.qp q).part (msgWords i.bytes (mfld i.bytes 4 4)) (takeMsg s.k s.d q)
    Goes (.forwardedLookup q) s (fun d' => SentEngine d' q 4 (lookupAns .ok (r.2.map (fun a => resultEntry r.1 a))) ∧ d'.mem = r.1.mem) := by
  intro r
  obtain ⟨-, hst⟩ := takeMsg_of_peekMsg (k := s.k) hi (by decide)
  have hr : (r.1.qp q).state = .ready := by
    rw [← hq, ← hst, Data.qp, Data.qp, runHits_ttx]
  refine ⟨r.1.sendEngine q 4 i.cls (lookupAns .ok (r.2.map (fun a => resultEntry r.1 a))) .nobody, ?_, sentEngine_sendEngine _ q 4 _ _ _, rfl⟩
  show execForwardedLookup q s = _
  rw [execForwardedLookup, onData_next]
  simp only [hi, hc, hup, Bool.not_true, Bool.false_eq_true, if_false]
  rw [if_pos hr]

/-- Settles O32: each clause is the one lemma on its command, from what the engine's work leaves of memory and of the banks. -/
theorem matchRules : Obligations.MatchRules := by
  refine ⟨fun s t p th ts ds h => ⟨?search, ?update, ?hash⟩, fun s b row a q => ⟨?lease, ?parity, ?scrub, ?lookup⟩⟩
  case search =>
    intro b key pfv pfm res w hits hp hx hr hb hrule hdpa hup hw hkey hlost hbad
    refine ⟨fun hn => goes_matSearch h hp hx hr hb hrule hdpa hup hw hkey hlost hbad ?_, fun y hy hlow => ?_⟩
    · exact congrArg (ruleAnswer b) hn
    · exact (goes_matSearch h hp hx hr hb hrule hdpa hup hw hkey hlost hbad (ruleAnswer_of_lowest b hy hlow)).imp
        fun d' ⟨hc, ho, hv, hm⟩ => ⟨hc, ho, hm, hv⟩
  case update =>
    intro b a e bank hb hx hrule hup
    have hu : RuleUpdate s.k th (th.dReg ds.toNat) := ⟨hb, hx, hrule, hup⟩
    exact ⟨fun r hp ha hdpa hbad himg hs hr hi => goes_matInsert h hp hu ⟨ha, hdpa, hbad, himg⟩ ⟨hs, hr⟩ hi,
      fun y hp ha hdpa hbad himg hy => goes_matDelete_hit h hp hu ⟨ha, hdpa, hbad, himg⟩ hy,
      fun hp ha hdpa hbad himg hn => goes_matDelete_miss h hp hu ⟨ha, hdpa, hbad, himg⟩ hn,
      fun hp => goes_matSpread h hp hu⟩
  case hash =>
    intro tok out tt pages key hp hx h3 hn htok hout hup hkey hpos hbad
    exact goes_matHash h hp rfl rfl hx h3 hn htok hout hup hkey hpos hbad
  case lease =>
    intro t id th op hdels hev hl ht ho hid hd
    exact goes_prefixLeaseEnd hdels hev hl ht ho hid hd
  case parity =>
    intro hb hr h2
    exact ⟨_, exec_matParityError hb hr h2, parityErr_rule hb h2⟩
  case scrub =>
    intro hb h0 hg
    exact goes_matScrubRow hb h0 hg
  case lookup =>
    intro i hi hq d0 r
    exact ⟨fun hc => goes_forwardedLookup_perm hi hq hc, fun hc hup => goes_forwardedLookup_cache hi hq hc hup⟩

end Sys2Proof.Machine

/-!
PROOFS. O14, the flag cells (R546 to R549, R583): a thread after a result scalar, what a write to a cell leaves of the cells and of the threads that wait for one, the
flag instructions on a cell that the partition reaches, and the thread that a write has satisfied.
-/
namespace Sys2Proof.Machine

/-! ### A result scalar -/

/-- An instruction that writes one scalar and goes on writes nothing else of its thread. -/
theorem Thread.wroteScalar_next_setS (th : Thread) (rd : Nat) (v : Word) (len : Nat) : WroteScalar th ((th.setS rd v).next len) rd v len := by
  refine ⟨fun n => th.sReg_setS rd n v, ?_⟩
  unfold Thread.setS
  split <;> rfl

/-- A thread that may issue an instruction waits for nothing. -/
theorem Thread.wait_eq_none_of_running {th : Thread} (h : th.running = true) : th.wait = none := by
  simp only [Thread.running, Bool.and_eq_true, Option.isNone_iff_eq_none] at h
  obtain ⟨⟨-, hw⟩, -⟩ := h
  exact hw

theorem Issues.wait_eq_none {d : Data} {t : Nat} {p : BitVec 2} {th : Thread} (h : Issues d t p th) : th.wait = none := by
  obtain ⟨-, hrun, -⟩ := h
  exact Thread.wait_eq_none_of_running hrun

/-! ### A write to a flag cell -/

/-- A thread after a write of `v` to a flag cell: a wait that the value satisfies keeps the value (R549). -/
def Thread.afterFlag (th : Thread) (cell : Nat) (v : Word) : Thread :=
  match th.wait with
  | some (.flag c cc x rd) => if c = cell && flagCond cc v x then { th with wait := some (.flagMet rd v) } else th
  | _ => th

/-- A write to a flag cell shows it to each thread. -/
theorem Data.thr_setFlag (d : Data) (cell : Nat) (v : Word) (u : Nat) : (d.setFlag cell v).thr u = (d.thr u).map (fun th => th.afterFlag cell v) :=
  Tab.get?_mapVals d.fyl.threads (fun _ th => th.afterFlag cell v) u

theorem Thread.afterFlag_of_wait_none {th : Thread} (cell : Nat) (v : Word) (h : th.wait = none) : th.afterFlag cell v = th := by
  simp only [Thread.afterFlag, h]

theorem Thread.afterFlag_of_met {th : Thread} {cell cc rd : Nat} {v x : Word} (hw : th.wait = some (.flag cell cc x rd)) (hc : flagCond cc v x = true) :
    th.afterFlag cell v = { th with wait := some (.flagMet rd v) } := by
  simp only [Thread.afterFlag, hw, hc, decide_true, Bool.and_true, if_true]

/-- The cells after a write: the one written, and the others as they were. -/
theorem Data.flags_setFlag (d : Data) (cell : Nat) (v : Word) (i : Nat) :
    Tab.getD (d.setFlag cell v).mbx.flags i 0#64 = if i = cell then v else Tab.getD d.mbx.flags i 0#64 := by
  show Tab.getD (Tab.put 0#64 d.mbx.flags cell v) i 0#64 = _
  split
  case isTrue h => rw [h, Tab.getD_put_self]
  case isFalse h => exact Tab.getD_put_ne _ _ _ h

/-- A thread that goes on as it writes a flag cell is not among those that wait for one. -/
theorem Data.thr_setFlag_setThr_self (d : Data) (t : Nat) {th : Thread} (cell : Nat) (v : Word) (h : th.wait = none) :
    ((d.setThr t th).setFlag cell v).thr t = some th := by
  rw [Data.thr_setFlag, Data.thr_setThr_self, Option.map_some, Thread.afterFlag_of_wait_none cell v h]

/-- A waiting thread whose condition a write makes true keeps the value written (R549). -/
theorem Data.thr_setFlag_of_met {d : Data} {u cell cc rd : Nat} {v x : Word} {w : Thread} (hu : d.thr u = some w)
    (hw : w.wait = some (.flag cell cc x rd)) (hc : flagCond cc v x = true) :
    (d.setFlag cell v).thr u = some { w with wait := some (.flagMet rd v) } := by
  rw [Data.thr_setFlag, hu, Option.map_some, Thread.afterFlag_of_met hw hc]

/-- GE is the sign of the difference (R547). -/
theorem flagGe_iff (cell x : Word) : flagGe cell x = true ↔ 0 ≤ (cell - x).toInt := by
  rw [flagGe, BitVec.msb_eq_toInt, Bool.not_eq_true', decide_eq_false_iff_not, Int.not_lt]

theorem flagCond_ge_iff (cell x : Word) : flagCond 3 cell x = true ↔ 0 ≤ (cell - x).toInt := flagGe_iff cell x

theorem flagCond_lt_iff (cell x : Word) : flagCond 2 cell x = true ↔ (cell - x).toInt < 0 := by
  rw [flagCond, Bool.not_eq_true', ← Bool.not_eq_true, flagGe_iff, Int.not_le]

/-- Each of the four conditions of a flag wait, under its code (R583, R547). -/
theorem flagCond_of_condition {cc : BitVec 2} {cell x : Word}
    (h : (cc = 0#2 ∧ cell = x) ∨ (cc = 1#2 ∧ cell ≠ x) ∨ (cc = 2#2 ∧ (cell - x).toInt < 0) ∨ (cc = 3#2 ∧ 0 ≤ (cell - x).toInt)) :
    flagCond cc.toNat cell x = true := by
  rcases h with ⟨rfl, h⟩ | ⟨rfl, h⟩ | ⟨rfl, h⟩ | ⟨rfl, h⟩
  case inl => simp [flagCond, h]
  case inr.inl => simp [flagCond, h]
  case inr.inr.inl => exact (flagCond_lt_iff cell x).mpr h
  case inr.inr.inr => exact (flagCond_ge_iff cell x).mpr h

/-! ### The flag instructions -/

/-- The cell, by its number in the chip, that a flag instruction through sA of a thread names (R558, R583). -/
def Thread.flagCell (k : Ctl) (th : Thread) (ra : BitVec 5) : Nat := (k.frange th.part).1 + (th.sReg ra.toNat).toNat

/-- A flag instruction of a thread reaches its cell: the index is below FCOUNT and the region of the cell is not fenced (R583, R40, log entry 187). -/
def Thread.reachesFlag (k : Ctl) (th : Thread) (ra : BitVec 5) : Prop :=
  (th.sReg ra.toNat).toNat < (k.frange th.part).2 ∧ k.down.contains (64 * (th.flagCell k ra % 4) + 63) = false

section
variable {s : State} {t : Nat} {p : BitVec 2} {th : Thread} {ra : BitVec 5}

/-- A flag instruction that reaches its cell has its effect on the cell and the value that it holds. -/
theorem goes_of_flagInstr {i : Instr} {f : Data → Thread → Nat → Word → Data} {P : Data → Prop} (he : exec i s = onData (flagInstr t p ra f) s)
    (h : Issues s.d t p th) (hr : th.reachesFlag s.k ra)
    (hP : P (f s.d th (th.flagCell s.k ra) (Tab.getD s.d.mbx.flags (th.flagCell s.k ra) 0#64))) : Goes i s P := by
  obtain ⟨hlt, hup⟩ := hr
  have hf : flagInstr t p ra f s.k s.d = f s.d th (th.flagCell s.k ra) (Tab.getD s.d.mbx.flags (th.flagCell s.k ra) 0#64) := by
    rw [flagInstr, fylInstr_issues _ s.k h (fun h4 => absurd h4 (by decide)), if_pos hlt]
    exact if_neg (Bool.eq_false_iff.mp hup)
  exact ⟨_, by rw [he, onData_next, hf], hP⟩

/-- `flag.set` stores sB in the cell; the thread goes on, and a waiting thread sees the write. -/
theorem goes_flagSet (rb : BitVec 5) {P : Data → Prop} (h : Issues s.d t p th) (hr : th.reachesFlag s.k ra)
    (hP : P ((s.d.setThr t (th.next 4)).setFlag (th.flagCell s.k ra) (th.sReg rb.toNat))) : Goes (.flagSet t p ra rb) s P :=
  goes_of_flagInstr rfl h hr hP

theorem goes_flagAdd (rd rb : BitVec 5) {P : Data → Prop} (h : Issues s.d t p th) (hr : th.reachesFlag s.k ra)
    (hP : let old := Tab.getD s.d.mbx.flags (th.flagCell s.k ra) 0#64
      P ((s.d.setThr t ((th.setS rd.toNat old).next 4)).setFlag (th.flagCell s.k ra) (old + th.sReg rb.toNat))) : Goes (.flagAdd t p rd ra rb) s P :=
  goes_of_flagInstr rfl h hr hP

/-- What `flag.read`, and `flag.wait` with its condition met, do: the value goes to sD and the thread goes on. -/
def ReadsFlag (s : State) (t : Nat) (th : Thread) (rd ra : BitVec 5) (d' : Data) : Prop :=
  ∃ th', OnlyThread s.d d' t th' ∧ WroteScalar th th' rd.toNat (Tab.getD s.d.mbx.flags (th.flagCell s.k ra) 0#64) 4

theorem readsFlag_setThr (s : State) (t : Nat) (th : Thread) (rd ra : BitVec 5) :
    ReadsFlag s t th rd ra (s.d.setThr t ((th.setS rd.toNat (Tab.getD s.d.mbx.flags (th.flagCell s.k ra) 0#64)).next 4)) :=
  ⟨_, Data.setThr_onlyThread s.d t _, th.wroteScalar_next_setS rd.toNat _ 4⟩

theorem goes_flagRead (rd : BitVec 5) (h : Issues s.d t p th) (hr : th.reachesFlag s.k ra) : Goes (.flagRead t p rd ra) s (ReadsFlag s t th rd ra) :=
  goes_of_flagInstr rfl h hr (readsFlag_setThr s t th rd ra)

/-- `flag.wait` whose condition holds at issue does not yield (R547). -/
theorem goes_flagWait_met (rd rb : BitVec 5) {cc : BitVec 2} (h : Issues s.d t p th) (hr : th.reachesFlag s.k ra)
    (hc : flagCond cc.toNat (Tab.getD s.d.mbx.flags (th.flagCell s.k ra) 0#64) (th.sReg rb.toNat) = true) :
    Goes (.flagWait t p rd ra rb cc) s (ReadsFlag s t th rd ra) := by
  refine goes_of_flagInstr rfl h hr ?_
  rw [if_pos hc]
  exact readsFlag_setThr s t th rd ra

end

/-! ### The thread that a write has satisfied -/

/-- A waiting thread that wakes is ready, waits for nothing and stands in the ready queue. -/
theorem Data.wake_setThr_of_waiting (d : Data) (t now : Nat) {th : Thread} (h : th.run = .waiting) :
    ((d.setThr t th).wake t now).thr t = some { th with run := .ready, wait := none, since := now } ∧ t ∈ ((d.setThr t th).wake t now).fyl.readyQ := by
  simp only [Data.wake, Data.thr_setThr_self, h]
  exact ⟨Tab.get?_set_self _ t _, List.mem_append_right _ (List.mem_singleton_self t)⟩

/-- A thread in its frame whose flag wait is satisfied becomes ready behind the wait, with the value that the write stored (R549). -/
theorem goes_flagWaiterWake {s : State} {u rd : Nat} {v : Word} {w : Thread} (hu : s.d.thr u = some w) (hw : w.wait = some (.flagMet rd v))
    (hr : w.run = .waiting) : Goes (.flagWaiterWake u) s (fun d' => ∃ w', d'.thr u = some w' ∧ w'.run = .ready ∧ w'.wait = none ∧ w'.pc = w.pc + 4 ∧
      ScalarsAfter w w' rd v ∧ u ∈ d'.fyl.readyQ) := by
  have he : exec (.flagWaiterWake u) s = .next { s with d := (s.d.setThr u ((w.setS rd v).next 4)).wake u s.k.ticks } := by
    show execFlagWaiterWake u s = _
    simp only [execFlagWaiterWake, onData_next, hu, hw]
  obtain ⟨ht, hq⟩ := Data.wake_setThr_of_waiting s.d u s.k.ticks (th := (w.setS rd v).next 4) (by simpa using hr)
  exact ⟨_, he, _, ht, rfl, rfl, by simp, fun n => w.sReg_setS rd n v, hq⟩

/-- Settles O14: each instruction is its one lemma on the cell reached, and the waiting thread is what a write to the cell leaves of it, woken. -/
theorem flagForms : Obligations.FlagForms := by
  refine ⟨fun s t p th rd ra rb cc h hlt => ?cell, fun s t u p th w ra rb cc rd x h hlt hne hu hup hw hc hrun => ?wake⟩
  case cell =>
    intro cell hup old b cellAfter
    have hr : th.reachesFlag s.k ra := ⟨hlt, hup⟩
    refine ⟨goes_flagSet rb h hr ⟨⟨rfl, ?_⟩, ?_⟩, goes_flagAdd rd rb h hr ⟨⟨rfl, ?_⟩, _, ?_, th.wroteScalar_next_setS rd.toNat old 4⟩,
      goes_flagRead rd h hr, fun hc => goes_flagWait_met rd rb h hr (flagCond_of_condition hc)⟩
    · exact Data.flags_setFlag _ cell b
    · exact Data.thr_setFlag_setThr_self s.d t cell b h.wait_eq_none
    · exact Data.flags_setFlag _ cell (old + b)
    · exact Data.thr_setFlag_setThr_self s.d t cell (old + b) ((th.setS_wait rd.toNat old).trans h.wait_eq_none)
  case wake =>
    have hmet := Data.thr_setFlag_of_met ((Data.thr_setThr_ne s.d (th.next 4) hne).trans hu) hw hc
    exact goes_flagSet rb h ⟨hlt, hup⟩ ⟨hmet, fun s' hs' =>
      goes_flagWaiterWake (w := { w with wait := some (.flagMet rd (th.sReg rb.toNat)) }) (by rw [hs']; exact hmet) rfl hrun⟩

end Sys2Proof.Machine
